-- ==== Sys2Proof/Word.lean ====
section
/-! DEFINITION. The word types of the module: nibbles, bytes, 32-bit registers, 64-bit instructions and addresses (R2, R3, R7). -/

namespace Sys2Proof

/-- One nibble, the unit in which module memory is addressed (R25). -/
abbrev Nib := BitVec 4

/-- One byte of host memory, or two nibbles of module memory (R4). -/
abbrev Byte := BitVec 8

/-- A 32-bit register or general register (R7, R92). -/
abbrev Word := BitVec 32

/-- A 64-bit instruction, register pair or global nibble address (R102, R290). -/
abbrev Long := BitVec 64

/-- The index of an instruction in instruction memory (R92). -/
abbrev Pc := BitVec 13

/-- An error pattern on the 36 symbols of a codeword, symbol p at bits [4p+3:4p] (R242). -/
abbrev Upset := BitVec 144

end Sys2Proof
end

