-- ==== Sys2Proof/Machine/Types.lean ====
section
/-! DEFINITION. The plain data that commands carry and the state holds: status codes, modes, descriptors, flits, images and what the outside world answers. Each type names the rule of spec/ it follows. -/

namespace Sys2Proof

/-- The status codes of every command, completion and fault (R382). -/
inductive Status where
  | ok | wrongState | badDescriptor | keyMismatch | poisoned | jobTorn | lengthExceeded | weightFenced
  | tiedUnsupported | scheduleRejected | deadRead | pinLimit | guardFault | scaleRerun | signatureInvalid
  | notAuthorized
  deriving DecidableEq, Repr

/-- The code of a status (R382). -/
def Status.code : Status → Nat
  | .ok => 0 | .wrongState => 1 | .badDescriptor => 2 | .keyMismatch => 3 | .poisoned => 4 | .jobTorn => 5
  | .lengthExceeded => 6 | .weightFenced => 7 | .tiedUnsupported => 8 | .scheduleRejected => 9
  | .deadRead => 10 | .pinLimit => 11 | .guardFault => 12 | .scaleRerun => 13 | .signatureInvalid => 14
  | .notAuthorized => 15

/-! ### Thread instructions (R92 to R132) -/

/-- Where an instruction issues: the tile, the entry of its rotor list, and the guard (R102, R105, R106). `fetch` is the
error pattern in the codeword that holds the instruction, `mem` those of the tile-store codewords it reads (R93, R243). -/
structure Iss where
  tile : Nat
  entry : Nat
  gpred : Nat
  gneg : Bool
  fetch : Upset
  mem : List (Nat × Upset)
  deriving DecidableEq, Repr

/-- Operand B or C: a register, or the 32-bit immediate of EXT (R102). -/
inductive Opd where
  | reg (r : Nat)
  | imm (v : Word)
  deriving DecidableEq, Repr

/-- The registers an operand reads. -/
def Opd.regs : Opd → List Nat
  | .reg r => [r]
  | .imm _ => []

/-- A floating-point source with the negate and absolute-value modifiers of class x1 (R103). -/
structure FOpd where
  src : Opd
  neg : Bool
  abs : Bool
  deriving DecidableEq, Repr

/-- The comparisons of ISETP and FSETP (R103 names the instructions and not the codes: PRESUMED, log 8). -/
inductive Cmp where
  | eq | ne | lt | le | gt | ge
  deriving DecidableEq, Repr

/-- The format codes and conversion control of CVT and CVT.BLK: modifiers [3:0], [7:4], [11:8] (R120). -/
structure CvtMod where
  src : Nat
  dst : Nat
  ctrl : Nat
  deriving DecidableEq, Repr

/-- Access widths N1 to N16 (R98). -/
inductive Width where
  | n1 | n2 | n4 | n8 | n16
  deriving DecidableEq, Repr

/-- The number of nibbles of an access width (R98). -/
def Width.nibs : Width → Nat
  | .n1 => 1 | .n2 => 2 | .n4 => 4 | .n8 => 8 | .n16 => 16

/-- The target of a branch or call: an instruction index, or a register (R103, R111). -/
inductive Target where
  | direct (n : Nat)
  | ind (r : Nat)
  deriving DecidableEq, Repr

/-- The operations of ATOM (R122). -/
inductive AtomFn where
  | add | sub | and | or | xor | min | max | minu | maxu | fadd | fmin | fmax | swap | cas
  deriving DecidableEq, Repr

/-- The modes of SHF (R118). -/
inductive ShfMode where
  | idx | up | down | xor
  deriving DecidableEq, Repr

/-- The modes of VOTE (R119). -/
inductive VoteMode where
  | all | any | ballot
  deriving DecidableEq, Repr

/-- A group instruction that its home group has reached and not yet executed (R115), with its operands. The guard is
kept beside it. -/
inductive GroupOp where
  | shf (mode : ShfMode) (d a : Nat) (b mask : Opd)
  | vote (mode : VoteMode) (d pa : Nat) (mask : Opd)
  | cvtBlk (d a b : Nat) (m : CvtMod)
  | atomT (fn : AtomFn) (d a : Nat) (off : Opd) (b c : Nat) (mask : Opd)
  | atomG (fn : AtomFn) (d a : Nat) (b c : Nat) (mask : Opd)
  | post (cell : Opd) (n : Nat) (self : Bool) (a : Nat)
  | take (cell : Opd) (n : Nat)
  | mxi (d a : Nat) (imm : Nat)
  | mxw (d t : Nat)
  | flush (mask : Nat)
  | dmakGo (ch : Opd) (a : Nat) (imm : Nat)
  | dmakWait (d : Nat) (ch : Opd)
  deriving DecidableEq, Repr

/-- Error patterns met in named codewords by the command that reads them (R243): the physical upset of each codeword
since it was last written or found poisoned. Codewords not named have none. -/
abbrev Upsets := List (Nat × Upset)

/-! ### Orders of service (R35 to R43) -/

/-- One entry of an access order list: the user, WAIT or OFFER, and the quantum of 1 to 16 (R35, R36). -/
structure AolEntry where
  user : Nat
  wait : Bool
  quantum : Nat
  deriving DecidableEq, Repr

/-- The resources served by access order lists (R37, R349). -/
inductive ListRes where
  | banks (tile : Nat)
  | matrix (tile : Nat)
  | vault (field site ch : Nat)
  | dmaPath (field : Nat)
  | hostDma
  deriving DecidableEq, Repr

/-- The resources served by rotas (R42, R396, R473). -/
inductive RotaRes where
  /-- The mesh link that leaves a site: 0 north, 1 east, 2 south, 3 west. -/
  | mesh (field site dir : Nat)
  /-- The mesh link from the edge port of a side into a mesh row or column (R45, R46). -/
  | edge (side line : Nat)
  | link (k : Nat)
  | slice (half n : Nat)
  | interHalf (dir : Nat)
  | config
  | fieldTree (field : Nat)
  | crescentTree (n : Nat)
  | linkTree (n : Nat)
  | recorder
  deriving DecidableEq, Repr

/-- A slot of a rota: IDLE, a source, or a source set (R39, R40). -/
inductive RotaSlot where
  | idle
  | src (id : Nat)
  | set (ids : List Nat)
  deriving DecidableEq, Repr

/-- The phase tag of a kernel entry index in a schedule image (R48). -/
inductive KTag where
  | fwd | bwd | none
  deriving DecidableEq, Repr

/-- Who may take from a rendezvous cell: a group slot, or a reduction channel (R126, R331). -/
inductive Taker where
  | slot (n : Nat)
  | chan (c : Nat)
  deriving DecidableEq, Repr

/-! ### What the checker sees of a program (R48, R49) -/

/-- Nibbles that an instruction or a descriptor names: module memory, or the accumulator rows of a spar of a tile (R159). -/
inductive Place where
  | mem
  | acc (tile spar : Nat)
  deriving DecidableEq, Repr

/-- A run of nibbles, or of accumulator rows, and whether it is written. -/
structure Span where
  place : Place
  base : Nat
  len : Nat
  write : Bool
  deriving DecidableEq, Repr

/-- What an instruction of a kernel does, as the checker's tests read it (R48, R49, R126, R132, R159, R170). A cell, target or
channel that the program computes at run time is none. -/
inductive KOp where
  /-- No node and no access that a test looks at. -/
  | plain
  /-- LDT, STT and ATOM.T at offsets that the program fixes: their spans. -/
  | tile (spans : List Span)
  /-- LDG, STG, ATOM.G, whose addresses the checker does not see. -/
  | global
  /-- POST to a global tile index of this module, or of another one. -/
  | post (target : Option Nat) (cell : Option Nat)
  | remotePost
  | take (cell : Option Nat)
  /-- MXI with the spans of its descriptor: what operand delivery reads, and what export and accumulation write. `fill` is the
  FILL bit with its array. -/
  | mxi (reads writes : List Span) (fill : Option Nat)
  /-- MXW for the operation of the MXI at the position named. -/
  | mxw (mxi : Nat)
  | flush (mask : Nat)
  | dmakGo (ch : Option Nat) (spans : List Span)
  | dmakWait (ch : Option Nat)
  deriving DecidableEq, Repr

/-- An instruction of a kernel with the positions that may follow it; none at EXIT (R48). -/
structure KInsn where
  op : KOp
  next : List Nat
  deriving DecidableEq, Repr

/-- A kernel that the image serves: its entry index, its tile and group slot, and its instructions from the entry on (R48). -/
structure Kern where
  entry : Nat
  tile : Nat
  slot : Nat
  code : List KInsn
  deriving DecidableEq, Repr

/-- A schedule image of a partition (R48), with the programs it serves as the checker reads them. The spec gives the image's
contents and no layout (DESIGN CHOICE, log 9). -/
structure SchedImage where
  /-- The access order lists, each with its resource (R35, R37). -/
  lists : List (ListRes × List AolEntry)
  /-- The rotas, each with its resource (R39, R42). -/
  rotas : List (RotaRes × List RotaSlot)
  /-- The tag of each kernel entry index (R48). -/
  tags : List (Nat × KTag)
  /-- The taker of each (tile, cell) (R126, R331). -/
  takers : List (Nat × Nat × Taker)
  /-- The (field, channel, tile, group slot) of each DMA channel assignment (R132). -/
  dmaOwners : List (Nat × Nat × Nat × Nat)
  /-- The 64-nibble reduction channel descriptors (R330). -/
  chans : List (BitVec 256)
  /-- The programs that the image serves (R48). -/
  kernels : List Kern
  /-- The (rota, slot index) pairs the image names beside its own rotas' slots (R43). -/
  slotsNamed : List (RotaRes × Nat)
  deriving DecidableEq, Repr

/-- The owner's slot frame: which partition owns which slot of which rota (R43). -/
structure FrameImage where
  slots : List (RotaRes × Nat × Nat)
  deriving DecidableEq, Repr

/-! ### The host (R367 to R377) -/

/-- How the host answers a read (R359, R374, R377). -/
inductive HostReply where
  | data | unsupported | abort | poisoned | timeout
  deriving DecidableEq, Repr

/-- What every command entry of a ring carries beside its payload (R375). `reserved` is true when any reserved bit of
the entry is not zero. -/
structure Cmd where
  ring : Nat
  tag : Word
  reserved : Bool
  deriving DecidableEq, Repr

/-- A requester of register accesses (R395). `ownerCmd` is true for a runtime write made while it carries out a
command of the owner ring (R498). -/
structure Req where
  id : Nat
  ownerCmd : Bool
  deriving DecidableEq, Repr

/-- A DMA channel: channel c of field f, or host channel h (R347, R348). -/
inductive DmaCh where
  | field (f c : Nat)
  | host (h : Nat)
  deriving DecidableEq, Repr

/-! ### Matrix descriptors (R149) -/

/-- A matrix descriptor, 256 bits (R149). -/
abbrev Mxd := BitVec 256

/-! ### The fabric and the links (R290 to R346) -/

/-- What an access does at its home (R301, R302): a load of `n` nibbles, a store of nibbles, or a combined atomic whose
lane operands (b, c) are given in lane order (R123), or a POST to a rendezvous cell of a tile (R127). -/
inductive AccKind where
  | load (n : Nat)
  | store (data : List Nib)
  | atomic (fn : AtomFn) (ops : List (Word × Word))
  | post (tile cell n : Nat)
  deriving DecidableEq, Repr

/-- The access is a load. -/
def AccKind.isLoad : AccKind → Bool
  | .load _ => true
  | _ => false

/-- The access is an atomic. -/
def AccKind.isAtomic : AccKind → Bool
  | .atomic _ _ => true
  | _ => false

/-- The access is a store. -/
def AccKind.isStore : AccKind → Bool
  | .store _ => true
  | _ => false

/-- The access is a POST. -/
def AccKind.isPost : AccKind → Bool
  | .post _ _ _ => true
  | _ => false

/-- The number of nibbles an access covers. -/
def AccKind.nibs : AccKind → Nat
  | .load n => n
  | .store l => l.length
  | .atomic _ _ => 8
  | .post _ _ _ => 0

/-- Symbol errors of one codeword as the lanes brought it: (position, error value) (R314). -/
abbrev SymErrs := List (Nat × Nat)

/-- The link header of a flit as it was sent (R317), and the symbol errors of the codewords that bring it: of the one that holds
its first bit, where no earlier flit began it, and of the next one, where the flit runs into it (R314, R315). -/
structure RxHdr where
  seq : Nat
  ack : Nat
  nak : Bool
  module : Nat
  partition : Nat
  slot : Nat
  runtime : Bool
  poison : Bool
  cw0 : SymErrs
  cw1 : SymErrs
  deriving DecidableEq, Repr

/-- The body of a FABRIC_REQ flit (R318), with the home module its address names. -/
structure ReqBody where
  addr : Long
  kind : AccKind
  tag : Nat
  key : Nat
  tile : Nat
  pair : Bool
  /-- The second flit of a pair (R319). -/
  second : Bool
  deriving DecidableEq, Repr

/-- The body of a FABRIC_RSP flit (R318): tag, status code, load data or the return word of each lane. R294 routes it by the
requester's module and the access's offset, for which R318's layout names no bits: they stand beside the body (DEDUCED, log 21). -/
structure RspBody where
  dest : Nat
  off : Nat
  tag : Nat
  status : Status
  data : List Nib
  words : List Word
  deriving DecidableEq, Repr

/-- A block slot of a REDUCE body (R333). -/
structure WireBlock where
  maxExp : Nat
  ovf : Bool
  nonfin : Bool
  poison : Bool
  sel : Bool
  elems : List Int
  deriving DecidableEq, Repr

/-- The four passes of a REDUCE flit (R333). -/
inductive Pass where
  | scatter | gather | rerunScatter | rerunRequest
  deriving DecidableEq, Repr

/-- The body of a REDUCE flit (R333): block i of the list is block FIRST + 8i. -/
structure ReduceBody where
  chan : Nat
  pass : Pass
  scale : Nat
  first : Nat
  blocks : List WireBlock
  deriving DecidableEq, Repr

/-- The body of a NORM flit (R339): exact sums in units of 2^-149 with their NONFIN flags. -/
structure NormBody where
  first : Nat
  sums : List (Int × Bool)
  deriving DecidableEq, Repr

/-- The body of a NORM_RESULT flit (R341): P32 totals and clip factors. -/
structure NormResultBody where
  first : Nat
  entries : List (BitVec 64 × Word)
  deriving DecidableEq, Repr

/-- How a link training ends (R326, R327): the peer's identity, what training detected, or a failure. -/
structure TrainResult where
  failed : Bool
  module : Nat
  link : Nat
  laneOk : Byte
  reversed : Bool
  inverted : Byte
  deriving DecidableEq, Repr

/-! ### Start-up, security and power inputs -/

/-- What an order of R409 finds outside the module or in its own self-test. Each order reads the fields that concern
it and ignores the others. -/
structure OrderData where
  /-- A rail out of tolerance at orders 2 to 4 (R418, class x1). -/
  rail : Option Nat
  /-- The input voltage in mV and the bulk capacitance in µF measured at order 2 (R425, R444). -/
  inputMv : Nat
  bulkUf : Nat
  /-- Whether the PUF correction succeeded at order 3 (R448). -/
  pufOk : Bool
  /-- Whether flash answered at order 4 (R410). -/
  flashOk : Bool
  /-- A crescent whose self-test failed at order 5 (R418, class x5). -/
  selfFail : Option Nat
  /-- Coolant inlet, outlet and hottest junction in °C at order 6 (R496). -/
  inlet : Nat
  outlet : Nat
  junction : Nat
  /-- (field, site, unit code) of each failing unit of BIST at order 6 (R412). -/
  fails : List (Nat × Nat × Nat)
  /-- (field, site, channel) of each channel found unusable at order 8 (R413). -/
  badCh : List (Nat × Nat × Nat)
  deriving DecidableEq, Repr

/-- A vendor-signed object read from host memory (R447): whether its carried root key hash and signature verify, whether
its signer is revoked, its version or level or target, and the identity hash and BOOTS it names (R461). -/
structure Signed where
  formatOk : Bool
  sigOk : Bool
  signer : Nat
  version : Nat
  target : Nat
  idHash : BitVec 256
  boots : Nat
  deriving DecidableEq, Repr

/-- A firmware image as stored in a flash slot (R410): version, signer, whether its signature verifies, its hash, and the bytes that
start-up copies into the west runtime memory (R16). -/
structure FwImage where
  version : Nat
  signer : Nat
  sigOk : Bool
  hash : BitVec 256
  code : List Byte
  deriving DecidableEq, Repr

/-- A revocation list (R447). -/
structure Revocation where
  version : Nat
  minFw : Nat
  signers : List Nat
  identities : List (BitVec 256)
  sigOk : Bool
  deriving DecidableEq, Repr

/-- The micro-batches of STEP_BEGIN: the input tensor and length of each, in order (R204). -/
abbrev Batches := List (Nat × Nat)

/-- A micro-batch or chunk of a step: its input tensor, its rows, and the masked rows that pad it (R204). -/
structure Chunk where
  tensor : Nat
  rows : Nat
  masked : Nat
  deriving DecidableEq, Repr

/-- What the compiled program fixes for splitting and for the norm (R204, R222): per tensor its Lmax and whether
splitting is allowed, and Bmax. -/
structure StepLimits where
  lmax : List (Nat × Nat × Bool)
  bmax : Nat
  deriving DecidableEq, Repr

/-- The job step table of R202 as read from host memory. -/
structure StepTable where
  format : Nat
  job : Nat
  jobSlot : Nat
  modules : Nat
  entries : Nat
  index : Nat
  interval : Nat
  clipWord : Nat
  reservedZero : Bool
  length : Nat
  /-- (module id, REGION) of each list entry. -/
  list : List (Nat × Bool)
  deriving DecidableEq, Repr

/-- What a module that lost its memory rebuilds from (R443): the checkpoint step, Q in units of 16 Mn, and of each surviving
position of its group the k parts it holds, P0 and P1 last (R441, R442). -/
structure Rebuild where
  step : Nat
  units : Nat
  survivors : List (Nat × List (List Nib))
  deriving DecidableEq, Repr

/-- A tied tensor of TIE_DECLARE (R215, R216). -/
structure Tie where
  tensor : Nat
  tile : Nat
  uses : Nat
  slots : Nat
  stride : Nat
  grad : Nat
  scratch : Nat
  elems : Nat
  deriving DecidableEq, Repr

/-- The clip settings of CLIP_SET (R220): mode code and F32 thresholds, by total index in per-tensor mode. -/
structure Clip where
  mode : Nat
  tau : List (Nat × Word)
  deriving DecidableEq, Repr

/-- A report-path source (R474): kind and index. -/
structure Src where
  kind : Nat
  index : Nat
  deriving DecidableEq, Repr

/-- The trigger classes of the event recorder (R480). -/
inductive Cls where
  | corrected | uncorrectable | threadFault | sync | fence | accessDenied | guard | cache | repair | thermal
  | power | link | teardown | ring | restore | startUp | security | core
  deriving DecidableEq, Repr

/-- The code of a trigger class (R480). -/
def Cls.code : Cls → Nat
  | .corrected => 1 | .uncorrectable => 2 | .threadFault => 3 | .sync => 4 | .fence => 5 | .accessDenied => 6
  | .guard => 7 | .cache => 8 | .repair => 9 | .thermal => 10 | .power => 11 | .link => 12 | .teardown => 13
  | .ring => 14 | .restore => 15 | .startUp => 16 | .security => 17 | .core => 18

end Sys2Proof
end

