-- ==== Sys2Proof/Syntax.lean ====
section
/-! DEFINITION. The commands of the module: one constructor for each row of spec/opcode_table.json, in the table's order, with the row's operands. -/

namespace Sys2Proof

/-- The commands. Thread instructions carry where they issue (`Iss`); register accesses carry their requester (`Req`);
ring commands carry their entry (`Cmd`) and payload; events carry what the outside world decides. -/
inductive Instr where
  -- class x0, integer (R103)
  | iadd (i : Iss) (d a : Nat) (b : Opd)
  | isub (i : Iss) (d a : Nat) (b : Opd)
  | imul (i : Iss) (d a : Nat) (b : Opd)
  | imulh (i : Iss) (d a : Nat) (b : Opd)
  | imad (i : Iss) (d a : Nat) (b : Opd) (c : Nat)
  | iand (i : Iss) (d a : Nat) (b : Opd)
  | ior (i : Iss) (d a : Nat) (b : Opd)
  | ixor (i : Iss) (d a : Nat) (b : Opd)
  | shl (i : Iss) (d a : Nat) (b : Opd)
  | shr (i : Iss) (d a : Nat) (b : Opd)
  | sar (i : Iss) (d a : Nat) (b : Opd)
  | imin (i : Iss) (signed : Bool) (d a : Nat) (b : Opd)
  | imax (i : Iss) (signed : Bool) (d a : Nat) (b : Opd)
  | sel (i : Iss) (d a : Nat) (b : Opd) (p : Nat)
  | mov (i : Iss) (d : Nat) (b : Opd)
  | popc (i : Iss) (d a : Nat)
  | clz (i : Iss) (d a : Nat)
  -- class x1, floating point (R104)
  | fadd (i : Iss) (d : Nat) (a b : FOpd)
  | fsub (i : Iss) (d : Nat) (a b : FOpd)
  | fmul (i : Iss) (d : Nat) (a b : FOpd)
  | ffma (i : Iss) (d : Nat) (a b c : FOpd)
  | fmin (i : Iss) (d : Nat) (a b : FOpd)
  | fmax (i : Iss) (d : Nat) (a b : FOpd)
  -- class x2, conversion (R120, R121)
  | cvt (i : Iss) (d a : Nat) (b : Opd) (c : Nat) (m : CvtMod)
  | cvtBlk (i : Iss) (d a b : Nat) (m : CvtMod)
  | i2f (i : Iss) (signed : Bool) (d a : Nat)
  | f2i (i : Iss) (signed : Bool) (d a : Nat)
  -- class x3, predicate
  | isetp (i : Iss) (c : Cmp) (signed : Bool) (pd a : Nat) (b : Opd)
  | fsetp (i : Iss) (c : Cmp) (pd : Nat) (a b : FOpd)
  | pand (i : Iss) (pd pa pb : Nat)
  | por (i : Iss) (pd pa pb : Nat)
  | pxor (i : Iss) (pd pa pb : Nat)
  | p2g (i : Iss) (d : Nat)
  | g2p (i : Iss) (a : Nat)
  -- class x4, control
  | bra (i : Iss) (t : Target)
  | call (i : Iss) (t : Target)
  | ret (i : Iss)
  | exit (i : Iss)
  | insnNop (i : Iss)
  | sys (i : Iss) (d sel : Nat)
  -- classes x5 to x7, memory and atomics
  | ldt (i : Iss) (w : Width) (sx : Bool) (d a : Nat) (b : Opd)
  | stt (i : Iss) (w : Width) (d a : Nat) (b : Opd)
  | ldg (i : Iss) (w : Width) (sx retire : Bool) (d a : Nat)
  | stg (i : Iss) (w : Width) (retire : Bool) (d a : Nat)
  | fenceM (i : Iss)
  | atomT (i : Iss) (fn : AtomFn) (grp : Option Opd) (d a : Nat) (off : Opd) (b c : Nat)
  | atomG (i : Iss) (fn : AtomFn) (grp : Option Opd) (d a : Nat) (b c : Nat)
  -- classes x8 to xB, group, rendezvous, matrix and DMA
  | shf (i : Iss) (m : ShfMode) (d a : Nat) (b mask : Opd)
  | vote (i : Iss) (m : VoteMode) (d pa : Nat) (mask : Opd)
  | post (i : Iss) (cell : Opd) (n : Nat) (self : Bool) (a : Nat)
  | take (i : Iss) (cell : Opd) (n : Nat)
  | mxi (i : Iss) (d a imm : Nat)
  | mxw (i : Iss) (d t : Nat)
  | flush (i : Iss) (mask : Nat)
  | dmakGo (i : Iss) (ch : Opd) (a imm : Nat)
  | dmakWait (i : Iss) (d : Nat) (ch : Opd)
  -- the rotor, the stall counter, the orders and the checker
  | entryMerge (tile a b : Nat)
  | carrierRepack (tile a b : Nat)
  | stallEvent (place wait : Nat) (adder : Bool := false)
  | orderListEntry (r : ListRes) (u : Upsets)
  | rotaSlot (r : RotaRes) (u : Upsets := [])
  | scheduleCheck
  -- matrix unit
  | mxdTakeUp (tile : Nat) (u : Upsets)
  | mxdStart (tile job : Nat) (u ua : Upsets)
  | stationaryLoadDone (tile job : Nat) (u : Upsets)
  | mxdComplete (tile job : Nat) (u ua : Upsets)
  | tieSum (p : Nat) (u ua : Upsets)
  -- DMA
  | dmaCopy (r : Req) (ch : DmaCh)
  | dmaPack (r : Req) (ch : DmaCh)
  | dmaUnpack (r : Req) (ch : DmaCh)
  | fieldRowBroadcast (r : Req) (ch : DmaCh)
  | dmaReadBackDone (ch : DmaCh) (u : Upsets := [])
  -- homes, cache, vaults and tile stores
  | homeAccess (n : Nat) (u : Upsets)
  | cacheAccess (half n : Nat) (u : Upsets)
  | cacheFill (half n : Nat) (u : Upsets)
  | thrashEvent (half : Nat)
  | refreshInterval (field site : Nat) (t0 t1 t2 t3 : Nat) (u : Upsets)
  | tileStoreScrub (tile pair : Nat) (u : Upsets)
  | recalibration (field site ch : Nat) (ok : Bool)
  | rowRemap (field site ch bank row : Nat) (u : Upsets := [])
  | laneGroupSpare (field site ch symbol : Nat)
  | slotMoveCopy (r : Req) (field site : Nat) (v : Word)
  | slotSwitchPoison (r : Req) (field site : Nat) (v : Word)
  | slotCopyDone (field site : Nat) (u : Upsets := [])
  | pinFillDone (half entry : Nat) (u : Upsets := [])
  | cacheClean (r : Req) (half len : Nat)
  | cacheDrop (r : Req) (half len : Nat)
  | cacheOpDone (half : Nat) (u : Upsets := [])
  -- fabric registers
  | regionCommit (r : Req) (v : Word)
  | regionFlip (r : Req) (v : Word)
  | keyMapCommit (r : Req) (v : Word)
  | routeCommit (r : Req) (v : Word)
  | linkRemap (r : Req) (g : Nat) (v : Word)
  | keeperSet (r : Req) (v : Word)
  | teardown (r : Req) (v : Word)
  -- keeper and training step
  | livenessIncrement
  | livenessRound (m : Nat) (downs : List (Nat × Nat)) (hops : List ((Nat × Nat) × (Nat × Nat)))
  | keeperTakeover (reachable : List Nat)
  | keeperReport (jobSlot m : Nat) (memLost : List Nat := []) (ckpts : List (Nat × List Nat) := [])
  | fwdEnter (p : Nat)
  | bwdEnter (p : Nat)
  | bwdClose (p : Nat)
  | clipEnter (p : Nat) (u : Upsets := [])
  | commitEnter (p : Nat)
  | recordOrder (p : Nat)
  | discardOrder (p : Nat)
  | recoveryReplay (p : Nat) (b : Option Rebuild) (u : Upsets := [])
  | checkpoint (p : Nat) (largest : Nat) (othersValid : Bool) (peers : List (Nat × List (List Nib))) (u : Upsets := [])
  | rollBack (p c : Nat) (decodable : Bool) (u : Upsets := [])
  | bucketStart (p c : Nat) (u : Upsets := [])
  -- links
  | idleFlit (k : Nat) (h : RxHdr)
  | fabricReq (k : Nat) (h : RxHdr) (b : ReqBody)
  | fabricRsp (k : Nat) (h : RxHdr) (b : RspBody) (u : Upsets := [])
  | reduce (k : Nat) (h : RxHdr) (b : ReduceBody) (u : Upsets := [])
  | norm (k : Nat) (h : RxHdr) (b : NormBody) (u : Upsets := [])
  | normResult (k : Nat) (h : RxHdr) (b : NormResultBody) (u : Upsets := [])
  | reservedKindFlit (k : Nat) (h : RxHdr) (kind : Nat)
  | linkReplay (k : Nat)
  | linkTraining (k : Nat) (t : TrainResult)
  | linkTrainingTimeout (k order : Nat)
  | linkRetrain (k : Nat) (replays : Bool)
  | laneSignalLoss (k lane : Nat)
  | linkEnable (r : Req) (k : Nat)
  | linkDisable (r : Req) (k : Nat)
  | linkCtrlRetrain (r : Req) (k : Nat)
  -- register writes
  | update (r : Req) (v : Word)
  | blockUpdateApply (base : Nat)
  | strobedWrite (r : Req) (off : Nat) (v : Word)
  | guardedFirstWrite (r : Req) (off : Nat) (v : Word)
  | guardTwinWrite (r : Req) (off : Nat) (v : Word)
  | bitAliasWrite (r : Req) (off bit : Nat) (b : Bool)
  | registerWrite (r : Req) (off : Nat) (v : Word)
  | mctpRegisterAccess (op byteOff : Nat) (v : Word)
  | tgFaultValid (r : Req) (field site : Nat)
  | vltThrottlePeakValid (r : Req) (field site : Nat)
  | vltErrNonzero (r : Req) (field site ch : Nat)
  | vltErrAddrValid (r : Req) (field site : Nat)
  | tsErrNonzero (r : Req) (field site : Nat)
  | tsErrAddrValid (r : Req) (field site : Nat)
  | scStatusThrash (r : Req) (half : Nat)
  | scErrNonzero (r : Req) (half : Nat)
  | fabErrNonzero (r : Req)
  | linkReplayNonzero (r : Req) (k : Nat)
  | mcGuardValid (r : Req)
  | evrLostNonzero (r : Req)
  | rgnPoisonClear (r : Req) (entry : Nat)
  | evrRelease (r : Req) (v : Word)
  | replicaCommit (r : Req) (v : Word)
  | hostDmaRing (r : Req) (n : Nat) (v : Word)
  | hostDmaList (r : Req) (hi : Bool) (v : Word)
  | pwrCtrlWake (r : Req)
  | ringEnable (r : Req) (ring : Nat) (reply : HostReply) (db : List Word)
  | ringDisable (r : Req) (ring : Nat)
  | doorbellNotify (ring : Nat) (reply : HostReply) (cmdProd cplCons : Word)
  | pcieCompletionTimeout (n : Nat)
  -- ring commands (R378, R379, R438, R465)
  | nop (c : Cmd)
  | fence (c : Cmd)
  | progLoad (c : Cmd) (first : Nat) (fields : Long) (reply : HostReply) (insns : List Long) (bad tied : Bool) (lim : StepLimits)
  | schedLoad (c : Cmd) (reply : HostReply) (img : SchedImage)
  | regionDefine (c : Cmd) (d0 d1 d3 : Word)
  | jobUnload (c : Cmd)
  | kernelLaunch (c : Cmd) (entry : Nat) (repack : Bool) (slots : BitVec 16) (fields : Long) (args kid : Nat)
  | kernelComplete (kid : Nat)
  | kernelAbort (c : Cmd) (kid : Nat)
  | dmaXfer (c : Cmd) (h : Nat) (paired : Bool) (reply : HostReply) (img : List Word)
  | cacheOp (c : Cmd) (line16 len kind : Nat)
  | pin (c : Cmd) (line16 len : Nat) (fill : Bool)
  | unpin (c : Cmd) (v : Nat)
  | stepBegin (c : Cmd) (index : Word) (reply : HostReply) (b : Batches)
  | stepAbort (c : Cmd)
  | clipSet (c : Cmd) (reply : HostReply) (v : Clip)
  | tieDeclare (c : Cmd) (reply : HostReply) (t : Tie)
  | stepQuery (c : Cmd) (p : Nat)
  | stepTable (c : Cmd) (reply : HostReply) (t : StepTable) (u : Upsets)
  | partCreate (c : Cmd) (p : Nat) (quads : BitVec 16) (job key : Nat)
  | partDestroy (c : Cmd) (p : Nat) (force : Bool)
  | scrubComplete (n : Nat)
  | frameLoad (c : Cmd) (reply : HostReply) (img : FrameImage)
  | sharedCreate (c : Cmd) (base len key replica : Nat)
  | sharedSeal (c : Cmd) (e : Nat)
  | keyGrant (c : Cmd) (p e : Nat) (module : Nat) (anymod : Bool) (base len key : Nat)
  | keyRevoke (c : Cmd) (p e : Nat)
  | sharedDestroy (c : Cmd) (e : Nat)
  | epochSet (c : Cmd) (tag : Word)
  | moduleQuery (c : Cmd)
  | powerQuery (c : Cmd)
  | powerReef (c : Cmd)
  | powerReefLeave (c : Cmd)
  | powerStrike (c : Cmd)
  | powerDormant (c : Cmd)
  | powerWake (c : Cmd)
  | powerLimits (c : Cmd) (cap lo hi : Nat)
  | eventRead (c : Cmd) (buf : Long) (len n : Nat) (release : Bool)
  | reset (c : Cmd)
  | certRead (c : Cmd) (buf : Long) (len : Nat)
  | attest (c : Cmd) (buf : Long) (len part : Nat) (nonce : BitVec 256)
  | revokeUpdate (c : Cmd) (reply : HostReply) (l : Revocation)
  | fwInstall (c : Cmd) (reply : HostReply) (img : FwImage)
  | debugSet (c : Cmd) (level : Nat) (reply : HostReply) (token : Option Signed)
  | lifecycle (c : Cmd) (target : Nat) (reply : HostReply) (token : Option Signed)
  | signQuery (c : Cmd)
  | nodeCacheBuild
  -- JTAG (R460)
  | idcode
  | bypass
  | secStatus
  | samplePreload (cells : Nat)
  | extest (cells : Nat)
  | regRead (off : Nat)
  | regWrite (off : Nat) (v : Word)
  | coreHalt (core : Nat)
  | coreStep (core : Nat)
  | mem (addr : Long) (k : AccKind) (u : Upsets := [])
  -- resets, start-up and power
  | powerUpReset
  | resetN
  | jtagReset
  | perstN
  | startupOrderComplete (d : OrderData)
  | startupOrderTimeout
  | coolantWaitTimeout
  | lampTimer
  | pfwNAssert
  | undervoltageWarning
  | pfwNRelease
  | holdEnd
  | resume
  | bulkStoreCollapse
  | governorSample (watts avg1 avg10 volt amps : Nat)
  | protectiveHold (field : Nat) (junction : Nat) (supplyBad : Bool)
  | protectiveHoldExit (field : Nat) (junction : Nat) (supplyBad : Bool) (u : Upsets := [])
  -- restore and recorder
  | sharedRestore (entry : Nat) (status : Status) (data : List Nib) (verify : List Upsets := [])
  | recorderTake
  | recordWrite
  -- rows added by the spec's second reading
  | shortRepairDone (field site ch : Nat) (u : Upsets := [])
  | unpinComplete (half entry : Nat) (u : Upsets := [])
  | controlCoreStop (core : Nat)
  | coolantCrossing (inlet outlet : Nat)
  | pcieLinkUp
  | hostReadCompletion (n : Nat) (reply : HostReply) (data : List Nib) (u : Upsets := [])
  deriving DecidableEq, Repr

end Sys2Proof
end

