-- ==== Sys2Proof/Decode.lean ====
section
/-! DEFINITION. The decoder of words spelled by the table's bits: spec/opcode_table.json gives no row any bits. -/

namespace Sys2Proof

/-- The command that a word spells: no row of the table has bits, so no word spells one. -/
def decodeTableWord (_nbits _w : Nat) : Option Instr := none

end Sys2Proof
end

