-- ==== Sys2Proof/Machine/State.lean ====
section
/-! DEFINITION. The state of the module as plain data: everything the spec gives it, and the queue of waiting commands. Sparse tables list only what differs from a stated default. -/

namespace Sys2Proof.Machine

/-- A sparse table: (key, value) pairs with keys strictly rising and no entry equal to what an unlisted key reads as. -/
abbrev Tab (α : Type) := List (Nat × α)

/-! ### Threads (R92 to R137) -/

/-- A completion token of a group: waiting for its operation, or done with a status (R129, R130). -/
inductive Token where
  | busy
  | done (st : Status)
  deriving DecidableEq, Repr

/-- What an entry waits for (R107, R115). -/
inductive Wait where
  /-- Runnable as far as waits go. -/
  | none
  /-- At a group instruction, waiting for its home group's other members (R115); the guard is kept. -/
  | arrive (op : GroupOp) (gpred : Nat) (gneg : Bool)
  /-- At FENCE.M until the thread's global accesses have completed (R101). -/
  | fence
  /-- At POST until every store and atomic of its home group has completed (R127). -/
  | post (cell n : Nat) (target : Option Nat)
  /-- At TAKE until the count of the cell reaches n (R128). -/
  | take (cell n : Nat)
  /-- At MXW until the token's operation has written its results (R130). -/
  | mxw (d token : Nat)
  /-- At DMAK.GO until the busy channel completes (R132). -/
  | dmakGo (ch image : Nat)
  /-- At DMAK.WAIT until the channel's transfer completes (R132). -/
  | dmakWait (d ch : Nat)
  deriving DecidableEq, Repr

/-- An entry of the rotor list: lanes that share one program counter (R106). A lane is named by home slot × 32 + home
lane. `stalled` is set once the stall of the node at which it waits has been logged (R56). -/
structure Entry where
  lanes : List Nat
  pc : Pc
  wait : Wait
  stalled : Bool
  deriving DecidableEq, Repr

/-- The access of an issued instruction of classes x5 to x7, its operands read (R101, R107). -/
inductive PipeOp where
  | ldt (w : Width) (sx : Bool) (d : Nat) (l : List (Nat × Nat))
  | stt (l : List (Nat × Nat × List Nib))
  | atomT (fn : AtomFn) (d : Nat) (l : List (Nat × Nat × Word × Word))
  | glob (d : Option Nat) (w : Width) (sx retire : Bool) (l : List (Nat × Long × AccKind))
  | atomG (fn : AtomFn) (d : Nat) (l : List (Nat × Long × Word × Word))
  deriving DecidableEq, Repr

/-- An instruction in the memory pipe of a tile: its access, its program counter, and the error patterns in the codewords that it
reads (R107, R243). -/
structure PipeItem where
  op : PipeOp
  pc : Nat
  mem : Upsets
  deriving DecidableEq, Repr

/-- What the instruction that the rotor issued last was, while a second one of the same entry may pair with it (R108): its class,
and the registers and predicates it writes. -/
structure Mate where
  cls : Nat
  regs : List Nat
  preds : List Nat
  deriving DecidableEq, Repr

/-- The rotor of a tile: its live entries in list order, the pointer to the last entry visited (R106), what may still pair with its
issue (R108), and the memory pipe, oldest first (R107). -/
structure Rotor where
  entries : List Entry
  ptr : Nat
  mate : Option Mate
  pipe : List PipeItem
  deriving DecidableEq, Repr

/-- A group slot (R94, R96, R129, R135). -/
structure Group where
  live : Bool
  halted : Bool
  kernel : Nat
  part : Nat
  /-- Tile-store offset of the kernel's argument block (R95, selector x07). -/
  args : Nat
  /-- Index among the kernel's groups of the tile (R95, selector x08). -/
  index : Nat
  repack : Bool
  /-- Lanes that have exited (R96). -/
  exited : Word
  /-- Allocated tokens by number (R129). -/
  tokens : Tab Token
  deriving DecidableEq, Repr

/-- A live kernel (R94, R378): its command, its group slots as tile × 16 + slot, its first fault and whether it was
aborted. -/
structure Kernel where
  part : Nat
  ring : Nat
  tag : Word
  entry : Nat
  slots : List Nat
  fault : Status
  aborted : Bool
  deriving DecidableEq, Repr

/-! ### Matrix unit (R138 to R196) -/

/-- An accumulator element: its P32 pair, its residual and its poison mark (R176, R190). -/
structure Acc where
  hi : Word
  lo : Word
  r : Word
  poison : Bool
  deriving DecidableEq, Repr

/-- A descriptor copied by MXI, or a FLUSH, waiting in the matrix-issue list (R129, R131, R154). -/
inductive MxItem where
  | mxd (slot token : Nat) (d : Mxd)
  | flush (slot mask : Nat)
  deriving DecidableEq, Repr

/-- A request of a job: the group and token it answers to, its descriptor, its row mask as read at take-up, and the
seed and epoch active at take-up (R84, R163, R169). -/
structure MxReq where
  slot : Nat
  token : Nat
  d : Mxd
  mask : List Bool
  seed : Long
  epoch : Nat
  /-- True for a tie-sum, which has no token (R216). -/
  tie : Bool
  deriving DecidableEq, Repr

/-- A job in the spar queues: a descriptor, or the pass of a fill gate with its requests in join order (R155, R169). -/
structure MxJob where
  id : Nat
  array : Nat
  reqs : List MxReq
  started : Bool
  /-- The first stationary tile has been loaded (R146, R148, R157). -/
  loaded : Bool
  /-- That tile as it was read, with a poison mark each: in the shadow registers until the job starts, and from then on, after the swap,
  in the active ones (R146, R147). -/
  tile : List (Nat × Bool)
  /-- What each request has met: OK, POISONED, or BAD_DESCRIPTOR at its start (R157, R161). -/
  met : List Status
  /-- The job was torn down: it stops at its next chunk boundary (R160). -/
  torn : Bool
  deriving DecidableEq, Repr

/-- A tile placed in the shadow registers by PRELOAD: the descriptor, and the values read, with a poison mark each
(R157). -/
structure Preload where
  d : Mxd
  vals : List (Nat × Bool)
  deriving DecidableEq, Repr

/-- The matrix unit of a tile (R146 to R169). -/
structure Mx where
  issue : List MxItem
  jobs : List MxJob
  nextId : Nat
  /-- Requests held by the gate of spars 0 to 3, in join order (R167). -/
  gate0 : List MxReq
  gate1 : List MxReq
  gate2 : List MxReq
  gate3 : List MxReq
  /-- The array of each gate that holds requests (R168). -/
  gateArr : Tab Nat
  /-- The preloaded tile of the array whose lowest spar is the key (R157). -/
  preload : Tab Preload
  deriving DecidableEq, Repr

/-! ### Vaults and caches (R234 to R289) -/

/-- An entry of a slot table (R238). -/
structure SlotEntry where
  target : Nat
  tier : Nat
  frame : Nat
  deriving DecidableEq, Repr

/-- A slot copy in progress (R261). -/
structure SlotCopy where
  slot : Nat
  dest : SlotEntry
  deriving DecidableEq, Repr

/-- A vault controller (R246 to R264). Lists are indexed by channel. -/
structure Vault where
  /-- Channels found unusable by BIST or order 8 (R265). -/
  badCh : List Nat
  copy : Option SlotCopy
  /-- Next sector of each channel's scrub, in ascending bank, row, sector (R247). -/
  scrub : List Nat
  /-- Completed passes of each channel. -/
  passes : List Nat
  /-- Hottest tier reading at the last calibration of each channel (R258). -/
  calTemp : List Nat
  /-- (channel, bank, row) of rows corrected in the pass under way, and in the last one (R258). -/
  rowsNow : List (Nat × Nat × Nat)
  rowsLast : List (Nat × Nat × Nat)
  /-- Spare rows used of each (channel × 32 + bank) (R258). -/
  spareRows : Tab Nat
  /-- Symbol position of the run of successive corrections and the rows it met, as bank × 4096 + row, per channel
  (R258). -/
  symRun : List (Nat × List Nat)
  /-- Short repair running per channel, and the service units of each channel since the last one began, up to 65,536 (R259). -/
  short : List Bool
  shortAge : List Nat
  /-- The vault is in self-refresh for protective hold (R253). -/
  hold : Bool
  deriving DecidableEq, Repr

/-- A line of the system cache (R270). -/
structure Line where
  /-- Line number ℓ = o[43:8]. -/
  num : Nat
  data : BitVec 1024
  mask : BitVec 128
  dirty : BitVec 4
  /-- Poison mark of each of the 8 codewords (R287). -/
  poison : BitVec 8
  pinned : Bool
  dead : Bool
  deriving DecidableEq, Repr

/-- A pin entry (R280, R281). -/
structure PinEntry where
  base : Nat
  len : Nat
  fill : Bool
  part : Nat
  ways : Nat
  busy : Bool
  result : Status
  deriving DecidableEq, Repr

/-- A clean or drop in progress (R289). -/
structure CacheOp where
  drop : Bool
  base : Nat
  len : Nat
  /-- A CACHE_OP has started it in both halves (R378). -/
  both : Bool
  deriving DecidableEq, Repr

/-- A cache half beside its lines (R277 to R289; DESIGN CHOICE, log 49). -/
structure Half where
  pins : Tab PinEntry
  /-- Ordinary accesses and misses of the counting window under way (R284). -/
  winAcc : Nat
  winMiss : Nat
  op : Option CacheOp
  /-- Lines held in private caches, as (line, core) (R277). -/
  snoop : List (Nat × Nat)
  deriving DecidableEq, Repr

/-! ### Fabric (R290 to R312) -/

/-- A region-table entry (R312). BASE, LEN and ALT in units of 16 Mn. -/
structure Region where
  base : Nat
  len : Nat
  part : Nat
  valid : Bool
  read : Bool
  write : Bool
  atomic : Bool
  shared : Bool
  weight : Bool
  cached : Bool
  staged : Bool
  replica : Nat
  key : Nat
  job : Nat
  alt : Nat
  live : Bool
  torn : Bool
  origin : Bool
  deriving DecidableEq, Repr

/-- An outbound key-map entry (R300). -/
structure KeyEntry where
  base : Nat
  module : Nat
  anymod : Bool
  valid : Bool
  len : Nat
  key : Nat
  deriving DecidableEq, Repr

/-- A route-table entry (R293). -/
structure Route where
  group : Nat
  valid : Bool
  deriving DecidableEq, Repr

/-- A replica-table entry (R485). -/
structure Replica where
  kind : Nat
  module : Nat
  hostch : Nat
  key : Nat
  addr : Nat
  valid : Bool
  deriving DecidableEq, Repr

/-- Who issued an access and is waiting for it. -/
inductive Origin where
  /-- A lane of a group (tile, slot × 32 + lane), its destination register, width and sign extension, the program counter of its
  instruction, and the address it named. -/
  | lane (tile lane : Nat) (d : Option Nat) (w : Width) (sx : Bool) (pc addr : Nat)
  /-- The lanes of one combined ATOM.G on one word, in order, with their destination and the address named (R123). -/
  | lanes (tile : Nat) (lanes : List Nat) (d pc addr : Nat)
  /-- A POST to another tile (R127), with the program counter of its instruction. -/
  | post (tile slot pc : Nat)
  /-- A piece of n nibbles of a DMA channel's run, from nibble off of it: its read or its write (R350, R359). -/
  | dma (ch : Nat) (read : Bool) (run off n : Nat)
  /-- A request of another module, by link-independent (module, tag) (R318). -/
  | remote (module tag : Nat)
  /-- A read of the liveness counter of a module by the keeper or the standby (R308). -/
  | live (module : Nat)
  /-- A class b11 write of the keeper role (R306, R309), and an order of a task of the runtime (R202, R226). -/
  | order
  | task (id : Nat)
  /-- The resident runtime or the JTAG TAP. -/
  | runtime
  | tap
  deriving DecidableEq, Repr

/-- An access on its way to its home on this module (R301). -/
structure Access where
  origin : Origin
  part : Nat
  key : Nat
  runtime : Bool
  /-- Came by a class b01 address (R272). -/
  fabric : Bool
  off : Nat
  kind : AccKind
  retire : Bool
  /-- The data of a store are poisoned (R317, R359). -/
  poison : Bool
  /-- A fill is awaited before the access is served (R274). -/
  waitFill : Bool
  deriving DecidableEq, Repr

/-- What an access answers: a status, load data, or the return word of each lane. -/
structure Reply where
  st : Status
  data : List Nib
  words : List Word
  deriving DecidableEq, Repr

/-- An operation of this module outstanding at another module (R302). -/
structure Op where
  tag : Nat
  origin : Origin
  part : Nat
  module : Nat
  off : Nat
  deriving DecidableEq, Repr

/-- The watch that is kept on a module: its counter as last read, the consecutive rounds without a change, and whether a read since the
last round has shown one (R308). -/
structure Watch where
  counter : Option Nat
  misses : Nat
  moved : Bool
  deriving DecidableEq, Repr

/-- What follows the last order of a task: nothing; the claim of a job slot has been answered; the table stands in the directory (R202);
the record of a step stands at the standby (R226 order 4). -/
inductive After where
  | nothing
  | claim (p : Nat) (t : StepTable)
  | table (p : Nat) (t : StepTable)
  | commit (jobSlot step record : Nat)
  deriving DecidableEq, Repr

/-- A task of the resident runtime: the stores (module, offset, nibbles) still to be made, each once the one before it has completed at
its home (R226), and what follows. -/
structure Task where
  todo : List (Nat × Nat × List Nib)
  after : After
  deriving DecidableEq, Repr

/-- What the keeper role keeps (R226, R308 to R310; DESIGN CHOICE, log 70). -/
structure Keeper where
  rounds : Tab Watch
  /-- Modules declared lost (R308). -/
  lost : List Nat
  /-- Jobs that the keeper has ordered torn down and not yet decided (R229, R310). -/
  tearing : List Nat
  /-- Orders decided for (job slot, step): x01 COMMIT, x02 SKIP, x05 discarded, x06 roll-back (R226, R229). -/
  decided : List (Nat × Nat × Nat)
  /-- (job slot, step, module) of the APPLIED reports of a committed step taken so far (R226). -/
  applied : List (Nat × Nat × Nat)
  /-- (job slot, module) of the modules whose open step a takeover has still to settle (R309). -/
  reopened : List (Nat × Nat)
  /-- A class b11 write has been refused, and the module no longer acts as keeper (R309). -/
  deposed : Bool
  /-- Tasks of the resident runtime whose operation is away, and the number of the next task. -/
  tasks : Tab Task
  nextTask : Nat
  /-- Tag counter of operations (R318). -/
  nextTag : Nat
  deriving DecidableEq, Repr

/-! ### Links and reduction (R313 to R346) -/

/-- The body of a flit as sent (R318). -/
inductive Body where
  | req (b : ReqBody)
  | rsp (b : RspBody)
  | reduce (b : ReduceBody)
  | norm (b : NormBody)
  | normResult (b : NormResultBody)
  deriving DecidableEq, Repr

/-- A flit to be sent (R317). `via` is the logical link of its group that R294 or R332 chose for it (R297). -/
structure Flit where
  module : Nat
  part : Nat
  runtime : Bool
  poison : Bool
  via : Nat
  body : Body
  deriving DecidableEq, Repr

/-- What a flit on the module's own network carries: an access to its home or its cache slice (R46, R273), a flit to the interface
of its departing link (R294), or an answer to its requester: that of an access of this module, or that of another module to the
operation with a tag (R302); or a body of a reduction channel. -/
inductive Cargo where
  | request (a : Access)
  | depart (k : Nat) (f : Flit)
  | reply (a : Access) (r : Reply)
  | answer (tag module : Nat) (r : Reply)
  /-- A body of channel c of partition p that crosses to its departure link (R332). -/
  | ring (p c : Nat) (body : Body)
  deriving DecidableEq, Repr

/-- A flit on the mesh, at a cache slice or at the inter-half link: the rotas it has still to leave, each with the source in whose
slots it goes there (R39, R42, R45, R296), and what it carries. -/
structure Packet where
  hops : List (RotaRes × Nat)
  cargo : Cargo
  deriving DecidableEq, Repr

/-- A flit as it was sent: an IDLE flit where `flit` is none; SLOT, SEQ, ACK and NAK of its link header (R317, R318, R322). -/
structure Sent where
  flit : Option Flit
  slot : Nat
  seq : Nat
  ack : Nat
  nak : Bool
  deriving DecidableEq, Repr

/-- A Draiz link (R317 to R327; DESIGN CHOICE, log 119). -/
structure Link where
  /-- Flits waiting for their slots, oldest first (R297, R320). -/
  waiting : List Flit
  /-- Sent flits not covered by an ACK, oldest first (R322). -/
  replay : List Sent
  txSeq : Nat
  /-- Next expected SEQ; the last accepted SEQ is the one before it (R321). -/
  rxSeq : Nat
  /-- The receiver waits for a replay, and NAK has yet to travel in the next flit sent (R322). -/
  nakOut : Bool
  nakDue : Bool
  /-- The far end has asked for a replay (R322). -/
  nakIn : Bool
  /-- Flits put on the wire, newest last. -/
  wire : List Sent
  /-- Uncorrectable codewords and replays of the window under way (R325). -/
  winUncorr : Nat
  winReplay : Nat
  /-- Failed trainings in a row (R325). -/
  fails : Nat
  /-- Blocks that the link's adder has added (R346). -/
  added : Nat
  /-- Codewords of the window under way (R325). -/
  winCws : Nat
  /-- Flits received since the codeword frame was aligned, modulo 1,285, and what the code found in the codeword that the last of
  them left unfinished (R315, R316). -/
  rxPos : Nat
  rxCw : SymErrs
  /-- Flits of `wire` that were sent before the codeword frame was aligned last (R315, R326). -/
  aligned : Nat
  /-- First flits of pairs whose second has not come, with their source module (R319). -/
  firsts : List (Nat × ReqBody)
  deriving DecidableEq, Repr

/-- A reduction channel of a partition (R330 to R342). -/
structure Chan where
  desc : BitVec 256
  present : Bool
  /-- Buckets started and finished in this step (R331). -/
  started : Nat
  finished : Nat
  /-- Posts taken from the start cell (R331). -/
  posts : Nat
  /-- Blocks of the bucket under way whose result stands in OUT (R342). -/
  done : List Nat
  /-- Blocks rerun in the step (R338). -/
  rerun : List Nat
  /-- Largest MAXEXP over final blocks of the step (R336). -/
  maxExp : Nat
  poisoned : Bool
  complete : Bool
  /-- Bodies that wait for the module's own contribution (R342), or for a port that is held (R253, R262). -/
  held : List Body
  /-- A stall event has been raised for them (R56, R342). -/
  stalled : Bool
  /-- Seed and epoch of each tile under the residuals, as active when the channel's work of the step began (R84). -/
  rnd : List (Nat × Long × Nat)
  /-- The norm table as read: offset and total index of each entry (R339). -/
  norms : List (Nat × Nat)
  /-- Own norm totals: exact sum in 2^-149 and NONFIN, by total index (R339). -/
  totals : Tab (Int × Bool)
  /-- Totals and clip factors that have arrived, by total index (R341). -/
  final : Tab (BitVec 64 × Word)
  deriving DecidableEq, Repr

/-! ### DMA (R347 to R366) -/

/-- A transfer in progress (R351 to R360). -/
structure Xfer where
  /-- Registers x00 to x78 at start, 16 words. -/
  regs : List Word
  /-- Partition of the accesses, or none with the runtime credential (R353). -/
  part : Option Nat
  /-- The next piece: run number in issue order, and nibble of the run; and the number of runs. -/
  run : Nat
  off : Nat
  runs : Nat
  /-- Accesses that are away. -/
  away : Nat
  /-- Statuses met (R359); a status that stops the transfer sets `stop`. -/
  met : List Status
  stop : Bool
  /-- Pack: offset from DST of the next row (R363). -/
  pos : Nat
  /-- Nibbles written. -/
  nibs : Nat
  /-- The last beat's write has been issued and its read-back is awaited (R360). -/
  readBack : Bool
  /-- The ring command that waits: ring and its number. -/
  cmd : Option (Nat × Nat)
  deriving DecidableEq, Repr

/-! ### Rings and partitions (R367 to R391) -/

/-- What an accepted command still waits for. -/
inductive Live where
  | fence
  | sched
  | frame
  | launch (kid : Nat)
  | abort (kid : Nat)
  | dma (h : Nat)
  /-- A clean or drop: half 2 stands for one in both halves. -/
  | cacheOp (half : Nat)
  | unpin (half entry : Nat)
  | step
  | stepAbort
  | scrub
  | pinFill (half entry : Nat)
  | table (task : Nat)
  deriving DecidableEq, Repr

/-- An accepted command that has not completed (R376): order of acceptance, tag, opcode, what it waits for. -/
structure LiveCmd where
  seq : Nat
  tag : Word
  opcode : Nat
  op : Live
  deriving DecidableEq, Repr

/-- A ring beside its registers (R369 to R374). -/
structure Ring where
  /-- CMD_PROD and CPL_CONS as last read. -/
  cmdProd : Nat
  cplCons : Nat
  live : List LiveCmd
  nextSeq : Nat
  deriving DecidableEq, Repr

/-- A scrub under way (R383, R386, R462): PART_CREATE, PART_DESTROY, SHARED_DESTROY or a D2 grant. -/
inductive ScrubKind where
  | create (p : Nat)
  | destroy (p : Nat)
  | shared (e : Nat)
  | debug
  deriving DecidableEq, Repr

/-- A scrub with the command that waits for it. -/
structure Scrub where
  kind : ScrubKind
  quads : BitVec 16
  /-- Local byte ranges to clear for a shared region: base and length in units of 16 Mn. -/
  base : Nat
  len : Nat
  /-- The ring command that waits: ring and its number. -/
  cmd : Nat × Nat
  deriving DecidableEq, Repr

/-- The training step of a partition (R197 to R233). -/
structure Step where
  /-- STEP_BEGIN accepted and FWD not yet entered (R199). -/
  begun : Bool
  batches : List Chunk
  /-- A STAGED report may not be written any more (R201). -/
  noStaged : Bool
  /-- The staged outcome: skip when true (R223). -/
  skip : Bool
  tieDone : Bool
  /-- Forward kernels of the step have been launched, and backward ones (R197). -/
  fwdRun : Bool
  bwdRun : Bool
  deriving DecidableEq, Repr

/-- A partition beside its registers (R381 to R391). -/
structure Part where
  /-- Created and neither FREE nor in SCRUB. -/
  ready : Bool
  scrub : Bool
  quads : BitVec 16
  key : Nat
  /-- Program words hashed for attestation, newest last (R456). -/
  progs : List (Nat × List Long)
  limits : StepLimits
  sched : Option SchedImage
  table : Option StepTable
  clip : Clip
  ties : List Tie
  step : Step
  /-- Step under peer checkpoint whose copy is not complete (R440). -/
  copying : Option Nat
  deriving DecidableEq, Repr

/-- An access order list in force (R35, R36): entries, current entry, accesses made in it. -/
structure Aol where
  entries : List AolEntry
  pos : Nat
  made : Nat
  deriving DecidableEq, Repr

/-- A rota in force (R39, R40): slots, current slot, and position in each source set by slot. -/
structure Rota where
  slots : List RotaSlot
  pos : Nat
  sub : Tab Nat
  deriving DecidableEq, Repr

/-- A load with its command's ring tag, waiting for, or under, the checker (R52). -/
inductive ChkLoad where
  | part (p : Nat) (img : SchedImage) (tag : Word)
  | frame (img : FrameImage) (tag : Word)
  deriving DecidableEq, Repr

/-! ### Event recorder (R473 to R485) -/

/-- A snapshot entry of a report (R479): disabled, read at the source, or a central register to be read when the record is
written. -/
inductive Snap where
  | off
  | val (v : Word)
  | central (o : Nat)
  deriving DecidableEq, Repr

/-- A report (R474): class, status, source, and the source-block snapshot taken when it was raised (R479). -/
structure Report where
  cls : Cls
  status : Status
  src : Src
  snap : List Snap
  /-- Rings that receive the event (R480): partition rings besides the owner's. -/
  rings : List Nat
  /-- Counts by class that the source could not send before (R473). -/
  unsent : Tab Nat
  deriving DecidableEq, Repr

/-- A report in the input queue, with its step count and epoch (R474). -/
structure Queued where
  rep : Report
  steps : Nat
  epoch : Word
  deriving DecidableEq, Repr

/-- A record of the log (R474). -/
structure Record where
  seq : Nat
  cls : Nat
  status : Nat
  src : Nat
  steps : Nat
  epoch : Word
  rep : Nat
  snap : List Word
  deriving DecidableEq, Repr

/-- The event recorder (R473 to R485). -/
structure Recorder where
  /-- Reports held at sources, oldest first, at most two a source (R473). -/
  places : List Report
  /-- Counts by (source kind × 2^14 + index) × 32 + class of reports not sent (R473). -/
  unsent : Tab Nat
  /-- Buffers of the 64 field trees, 4 crescent trees and 4 link trees, 4 reports each (R473). -/
  buffers : Tab (List Report)
  /-- Slot each tree has reached, and the recorder rota's slot. -/
  treePos : Tab Nat
  rotaPos : Nat
  queue : List Queued
  log : List Record
  /-- Reports per class since reset (R473). -/
  counts : Tab Nat
  /-- RECORD and RING bits per class (R478, R481). -/
  cfg : Tab Nat
  /-- Snapshot entries by (class × 16 + kind) × 12 + n (R479). -/
  snaps : Tab Word
  deriving DecidableEq, Repr

/-! ### Power, start-up, flash, security, JTAG, cores, PCI Express -/

/-- The power controller beside its registers (R424 to R439). -/
structure Power where
  /-- The input PFW_N is asserted (R431, R491). -/
  pfw : Bool
  /-- A hold of R431 is under way. -/
  holding : Bool
  /-- Module state code to return to (R431, R437): 3 READY, 2 DORMANT. -/
  prior : Nat
  /-- Target voltage of the bulk store in mV (R425). -/
  target : Nat
  /-- The core supply is out of range (R439). -/
  supplyBad : Bool
  /-- Junction reading of each field as last reported (R439). -/
  junctions : Tab Nat
  /-- OFF: everything but flash is lost (R433). -/
  off : Bool
  /-- Wake requested and waiting (R437). -/
  wake : Bool
  /-- The inlet and the outlet stand above their report limits (R496). -/
  hotInlet : Bool
  hotOutlet : Bool
  deriving DecidableEq, Repr

/-- The start-up sequencer (R409 to R422). -/
structure Startup where
  /-- Failing units found by BIST this boot: (field, site, unit) (R412). -/
  fails : List (Nat × Nat × Nat)
  /-- Position of the lamp timer in its frame, in units of 50 ms (R422). -/
  lamp : Nat
  /-- The BEACON class and detail, when in BEACON (R418). -/
  beacon : Option (Nat × Nat)
  /-- Status of the failure record (R421). -/
  status : Status
  /-- Fields that failed (R421). -/
  fieldFail : List Nat
  hintDiff : List Nat
  deriving DecidableEq, Repr

/-- A hint record copy (R415): sequence number, device identity, whether its signature verifies, faulty sites and moved
channels. -/
structure Hint where
  seq : Nat
  ident : BitVec 256
  sigOk : Bool
  sites : List (Nat × Nat)
  channels : List (Nat × Nat × Nat)
  deriving DecidableEq, Repr

/-- The flash (R410, R415, R447 to R458). It keeps its contents over every reset. -/
structure Flash where
  slot0 : Option FwImage
  slot1 : Option FwImage
  revocation : Revocation
  hint0 : Option Hint
  hint1 : Option Hint
  /-- Lifecycle record: sequence number and state code 0 OPEN, 1 SEALED, 2 RETIRED (R458). -/
  life0 : Option (Nat × Nat)
  life1 : Option (Nat × Nat)
  /-- Reservation records: END and sequence number (R451). -/
  res0 : Option (Nat × Nat)
  res1 : Option (Nat × Nat)
  /-- Bottom trees whose node caches are valid (R453). -/
  nodes : List Nat
  boots : Nat
  /-- The last failure record, 512 bits (R421). -/
  failRec : BitVec 512
  /-- Start-up ends in DORMANT (R423). -/
  toDormant : Bool
  /-- Cluster description: module id and (link, module, peer link) (R409 order 9, R329). -/
  moduleId : Nat
  peers : List (Nat × Nat × Nat)
  /-- The vendor certificate as stored, its 3,220 bytes little-endian, and whether it verifies (R450). -/
  cert : Nat
  certOk : Bool
  stepping : Nat
  deriving DecidableEq, Repr

/-- The security block (R448 to R462). -/
structure Security where
  /-- Seed derived and device key in force (R448, R449). -/
  idOk : Bool
  fw : Option FwImage
  /-- NEXT and END: the next signing index, and the first index beyond the reservation (R451). -/
  signNext : Nat
  signEnd : Nat
  /-- Shared regions whose last restore failed (R472). -/
  unrestored : List Nat
  deriving DecidableEq, Repr

/-- The JTAG TAP (R460): instruction register (by name number of R460's list), last data out, boundary cells. -/
structure Tap where
  ir : Nat
  tdo : Nat
  cells : Nat
  driving : Bool
  deriving DecidableEq, Repr

/-- A control core: halted by debug, stopped by an error, and its architectural state as one word (R460, R467). -/
structure Core where
  halted : Bool
  stopped : Bool
  arch : Long
  saved : Long
  deriving DecidableEq, Repr

/-- What the PCI Express block has sent to the host (R360, R367, R372). -/
inductive Tlp where
  /-- A posted write of `len` bytes holding `val` little-endian, with the poisoned bit (R359). -/
  | wr (fn addr len val : Nat) (ep : Bool)
  | rd (fn addr len tag : Nat)
  | msix (fn vector : Nat)
  deriving DecidableEq, Repr

/-- The PCI Express block and the management interface (R367, R411, R419, R420). -/
structure HostPort where
  linkUp : Bool
  sriov : Bool
  out : List Tlp
  /-- Reads of host memory not yet answered: tag, channel, run, nibble of the run, nibbles (R359). -/
  reads : List (Nat × Nat × Nat × Nat × Nat)
  nextTag : Nat
  /-- Last MCTP reply: data and status code (R420). -/
  mctp : Option (Word × Nat)
  deriving DecidableEq, Repr

/-! ### The state -/

/-- The module. -/
structure State where
  /-- Commands waiting, first in, first out. -/
  pending : List Instr
  /-- Numbers the free values taken so far: the model's own. -/
  tick : Nat
  regs : Tab Word
  strobed : Tab Word
  pairs : List (Nat × Nat × Word)
  applying : List Nat
  mem : List Host.Cell
  poison : List Nat
  imem : Tab Long
  imemPoison : List Nat
  gpr : Tab Word
  preds : Tab Bool
  rotors : Tab Rotor
  groups : Tab Group
  kernels : Tab Kernel
  cells : Tab Word
  acc : Tab Acc
  mx : Tab Mx
  unused : Tab (List Nat)
  slots : Tab SlotEntry
  vaults : Tab Vault
  /-- Codewords scrubbed by each bank pair since reset, by tile × 16 + pair (R257). -/
  tsScrub : Tab Nat
  lines : Tab Line
  replPtr : Tab Nat
  halves : Tab Half
  cacheQ : List Access
  routes : Tab Route
  regions : Tab Region
  kmaps : Tab KeyEntry
  replicas : Tab Replica
  homeQ : List Access
  ops : List Op
  /-- Flits on the mesh, at the slices and at the inter-half link, oldest first (R39, R45, R273). -/
  transit : List Packet
  /-- The origins of this module's accesses that entry into STRIKE cut off, until it resumes (R55, R434). -/
  discarded : List Origin
  /-- Bytes of the west and east runtime memories that are not zero, by half × 2^25 + byte address (R15, R16). -/
  rtMem : Tab Byte
  keeper : Keeper
  links : Tab Link
  chans : Tab Chan
  dma : Tab Xfer
  rings : Tab Ring
  parts : Tab Part
  scrubs : List Scrub
  lists : Tab Aol
  rotas : Tab Rota
  frame : List (RotaRes × Nat × Nat)
  checker : List ChkLoad
  recorder : Recorder
  power : Power
  startup : Startup
  flash : Flash
  sec : Security
  tap : Tap
  cores : Tab Core
  steps : Nat
  host : HostPort
  deriving DecidableEq, Repr

/-- Why the module stops: only where the command names a unit that the module does not have. -/
inductive Fault where
  /-- Raised by every meaning whose command names a tile, group slot, link, ring, register number or other unit beyond
  the counts of R1, R10 and R92 to R132. Safe: no such unit exists, so no behaviour of the module is lost. -/
  | noSuchUnit
  deriving DecidableEq, Repr

/-- Why a command has no meaning. -/
inductive Refusal where
  /-- Raised by exec's arms for a row that has no meaning yet. Safe. -/
  | notModelled (mnemonic : String)
  /-- Raised by thread instructions in a form that the program-load command rejects (R92, R95, R103), so that no thread
  ever issues it. Safe. -/
  | rejectedAtLoad
  deriving DecidableEq, Repr

namespace State

/-- The recorder after reset (R484). -/
def recorder0 : Recorder :=
  { places := [], unsent := [], buffers := [], treePos := [], rotaPos := 0, queue := [], log := [], counts := [],
    cfg := [], snaps := [] }

/-- A flash with no image, no record and an empty cluster description: what a fresh part would hold (DESIGN CHOICE, log 6). -/
def flash0 : Flash :=
  { slot0 := none, slot1 := none,
    revocation := { version := 0, minFw := 0, signers := [], identities := [], sigOk := false },
    hint0 := none, hint1 := none, life0 := none, life1 := none, res0 := none, res1 := none, nodes := [], boots := 0,
    failRec := 0, toDormant := false, moduleId := 0, peers := [], cert := 0, certOk := false, stepping := 0 }

/-- The module after a reset, over the flash it keeps (R407, R409): start-up stands at order 1. -/
def resetWith (f : Flash) : State :=
  { pending := [], tick := 0, regs := [], strobed := [], pairs := [], applying := [], mem := [], poison := [],
    imem := [], imemPoison := [], gpr := [], preds := [], rotors := [], groups := [], kernels := [], cells := [],
    acc := [], mx := [], unused := [], slots := [], vaults := [], tsScrub := [], lines := [], replPtr := [], halves := [],
    cacheQ := [], routes := [], regions := [], kmaps := [], replicas := [], homeQ := [], ops := [], transit := [],
    discarded := [], rtMem := [],
    keeper := { rounds := [], lost := [], tearing := [], decided := [], applied := [], reopened := [], deposed := false,
                tasks := [], nextTask := 0, nextTag := 0 },
    links := [], chans := [], dma := [], rings := [], parts := [], scrubs := [], lists := [], rotas := [], frame := [],
    checker := [], recorder := recorder0,
    power := { pfw := false, holding := false, prior := 3, target := 0, supplyBad := false, junctions := [], off := false,
               wake := false, hotInlet := false, hotOutlet := false },
    startup := { fails := [], lamp := 0, beacon := none, status := .ok, fieldFail := [], hintDiff := [] },
    flash := f,
    sec := { idOk := false, fw := none, signNext := 0, signEnd := 0, unrestored := [] },
    tap := { ir := 0, tdo := 0, cells := 0, driving := false },
    cores := [], steps := 0,
    host := { linkUp := false, sriov := false, out := [], reads := [], nextTag := 0, mctp := none } }

/-- The module right after power-up reset (R407, R409 order 1). Registers read their Reset column, because no offset is
listed. -/
def reset : State := resetWith flash0

end State

end Sys2Proof.Machine
end

