-- ==== Sys2Proof/Machine/Bits.lean ====
section
/-! DEFINITION. Bit fields, nibble lists, sparse tables and finite sets: the helpers every other file of the machine uses. -/

namespace Sys2Proof.Machine

/-! ### Bit fields (R3) -/

/-- Bits [lo + w - 1 : lo] of a natural number. -/
def bits (v lo w : Nat) : Nat := (v >>> lo) % 2 ^ w

/-- Field [lo + w - 1 : lo] of a 32-bit register. -/
def fld (v : Word) (lo w : Nat) : Nat := bits v.toNat lo w

/-- Bit b of a 32-bit register. -/
def flag (v : Word) (b : Nat) : Bool := v.getLsbD b

/-- A 32-bit register with field [lo + w - 1 : lo] replaced by x; the other bits keep their values. -/
def setFld (v : Word) (lo w x : Nat) : Word :=
  let m : Word := BitVec.ofNat 32 ((2 ^ w - 1) <<< lo)
  (v &&& ~~~ m) ||| (BitVec.ofNat 32 (x <<< lo) &&& m)

/-- One where the condition holds, else zero. -/
def b2n (b : Bool) : Nat := if b then 1 else 0

/-- A counter that stops at its largest value. -/
def satAdd (v n max : Nat) : Nat := Nat.min (v + n) max

/-- Two's-complement value of the low w bits. -/
def signedOf (v w : Nat) : Int := if v % 2 ^ w < 2 ^ (w - 1) then (v % 2 ^ w : Nat) else (v % 2 ^ w : Nat) - (2 ^ w : Nat)

/-- Ceiling of a / b. -/
def cdiv (a b : Nat) : Nat := (a + b - 1) / b

/-! ### Nibbles: least significant first (R3) -/

/-- The n nibbles of a value, least significant first. -/
def nibsOf (v : Nat) : Nat → List Nib
  | 0 => []
  | n + 1 => BitVec.ofNat 4 v :: nibsOf (v / 16) n

/-- The value of a nibble list, least significant first. -/
def ofNibs : List Nib → Nat
  | [] => 0
  | x :: r => x.toNat + 16 * ofNibs r

/-! ### Sparse tables -/

/-- The value of key k, d where the table lists none. -/
def tget {α : Type} (d : α) : Tab α → Nat → α
  | [], _ => d
  | (k', v) :: r, k => if k' = k then v else tget d r k

/-- The entry of key k, if listed. -/
def tfind {α : Type} : Tab α → Nat → Option α
  | [], _ => none
  | (k', v) :: r, k => if k' = k then some v else tfind r k

/-- The table with key k listed as v, keys kept rising. -/
def tput {α : Type} : Tab α → Nat → α → Tab α
  | [], k, v => [(k, v)]
  | (k', v') :: r, k, v => if k < k' then (k, v) :: (k', v') :: r else if k = k' then (k, v) :: r else (k', v') :: tput r k v

/-- The table without key k. -/
def tdel {α : Type} (m : Tab α) (k : Nat) : Tab α := m.filter (fun e => e.1 != k)

/-- The table with key k reading v, where an unlisted key reads d: writing d removes the entry. -/
def tset {α : Type} [DecidableEq α] (d : α) (m : Tab α) (k : Nat) (v : α) : Tab α :=
  if v = d then tdel m k else tput m k v

/-- Keys strictly rising. -/
def rising {α : Type} : Tab α → Bool
  | [] => true
  | [_] => true
  | (k, _) :: (k', v') :: r => decide (k < k') && rising ((k', v') :: r)

/-- The canonical form of a table with default d. -/
def twf {α : Type} [DecidableEq α] (d : α) (m : Tab α) : Bool := rising m && m.all (fun e => !decide (e.2 = d))

/-! ### Finite sets of numbers, kept rising -/

/-- The set with k added. -/
def sadd : List Nat → Nat → List Nat
  | [], k => [k]
  | x :: r, k => if k < x then k :: x :: r else if k = x then x :: r else x :: sadd r k

/-- The set without k. -/
def sdel (m : List Nat) (k : Nat) : List Nat := m.filter (fun x => x != k)

/-- Add or remove k. -/
def sput (m : List Nat) (k : Nat) (b : Bool) : List Nat := if b then sadd m k else sdel m k

/-! ### Lists -/

/-- Element i, or d. -/
def nth {α : Type} (d : α) (l : List α) (i : Nat) : α := l.getD i d

/-- The list with element i replaced. -/
def setAt {α : Type} (l : List α) (i : Nat) (x : α) : List α := l.set i x

/-- The list without element i. -/
def dropAt {α : Type} : List α → Nat → List α
  | [], _ => []
  | _ :: r, 0 => r
  | x :: r, n + 1 => x :: dropAt r n

/-- The list with x inserted before element i. -/
def insertAt {α : Type} : List α → Nat → List α → List α
  | l, 0, xs => xs ++ l
  | [], _, xs => xs
  | y :: r, n + 1, xs => y :: insertAt r n xs

/-- The position of the first element that satisfies p. -/
def indexOf {α : Type} (p : α → Bool) : List α → Option Nat
  | [] => none
  | x :: r => if p x then some 0 else (indexOf p r).map (· + 1)

/-- All bits of a word, as the list of set positions in ascending order. -/
def setBits (v w : Nat) : List Nat := (List.range w).filter (fun i => v.testBit i)

/-- Insertion into a list sorted by a Nat measure, after equal elements. -/
def insertBy {α : Type} (f : α → Nat) (x : α) : List α → List α
  | [] => [x]
  | y :: r => if f x < f y then x :: y :: r else y :: insertBy f x r

/-- Stable sort by a Nat measure. -/
def sortBy {α : Type} (f : α → Nat) : List α → List α
  | [] => []
  | x :: r => insertBy f x (sortBy f r)

end Sys2Proof.Machine
end

