-- ==== Sys2Proof/Machine/Exact.lean ====
section
/-! DEFINITION. Exact numbers, rounding and the eight number formats (03_number_formats.md, R65 to R91). -/

namespace Sys2Proof.Machine

/-- The exact number m × 2^e. -/
structure Dy where
  m : Int
  e : Int
  deriving DecidableEq, Repr

/-- Zero. -/
def dy0 : Dy := ⟨0, 0⟩

/-- m × 2^e with the exponent lowered to e', for e' ≤ e. -/
def dyAt (x : Dy) (e' : Int) : Int := x.m * 2 ^ (x.e - e').toNat

/-- Exact sum. -/
def dyAdd (x y : Dy) : Dy :=
  if x.m = 0 then y else if y.m = 0 then x else
  let e := min x.e y.e
  ⟨dyAt x e + dyAt y e, e⟩

/-- Exact product. -/
def dyMul (x y : Dy) : Dy := ⟨x.m * y.m, x.e + y.e⟩

/-- Negation. -/
def dyNeg (x : Dy) : Dy := ⟨-x.m, x.e⟩

/-- Exact difference. -/
def dySub (x y : Dy) : Dy := dyAdd x (dyNeg y)

/-- x × 2^k. -/
def dyScale (x : Dy) (k : Int) : Dy := ⟨x.m, x.e + k⟩

/-- x < y. -/
def dyLt (x y : Dy) : Bool := decide ((dySub x y).m < 0)

/-- An operand or result: a finite number (its sign kept for zero), an infinity, or NaN (R68 to R77). -/
inductive Val where
  | fin (neg : Bool) (x : Dy)
  | inf (neg : Bool)
  | nan
  deriving DecidableEq, Repr

/-- A finite value from an exact number, with the sign of zero given. -/
def valOf (zneg : Bool) (x : Dy) : Val := .fin (if x.m = 0 then zneg else decide (x.m < 0)) x

/-- The value is zero. -/
def Val.isZero : Val → Bool
  | .fin _ x => decide (x.m = 0)
  | _ => false

/-- The value is ±∞ or NaN. -/
def Val.special : Val → Bool
  | .fin _ _ => false
  | _ => true

/-- The sign of a value. -/
def Val.neg : Val → Bool
  | .fin n _ => n
  | .inf n => n
  | .nan => false

/-- The exact number of a finite value. -/
def Val.dy : Val → Dy
  | .fin _ x => x
  | _ => dy0

/-- The value negated. -/
def Val.negate : Val → Val
  | .fin n x => .fin (!n) (dyNeg x)
  | .inf n => .inf (!n)
  | .nan => .nan

/-- IEEE 754 sum under round-to-nearest-even, before rounding (R68, R104). -/
def vAdd (a b : Val) : Val :=
  match a, b with
  | .nan, _ => .nan
  | _, .nan => .nan
  | .inf x, .inf y => if x = y then .inf x else .nan
  | .inf x, _ => .inf x
  | _, .inf y => .inf y
  | .fin na x, .fin nb y =>
    let s := dyAdd x y
    if s.m = 0 then .fin (x.m == 0 && y.m == 0 && na && nb) s else valOf false s

/-- IEEE 754 product, before rounding (R104, R179). -/
def vMul (a b : Val) : Val :=
  match a, b with
  | .nan, _ => .nan
  | _, .nan => .nan
  | .inf x, .inf y => .inf (x != y)
  | .inf x, .fin n y => if y.m = 0 then .nan else .inf (x != n)
  | .fin n x, .inf y => if x.m = 0 then .nan else .inf (n != y)
  | .fin na x, .fin nb y => .fin (na != nb) (dyMul x y)

/-! ### Formats (R65) -/

/-- The formats, block-scaled ones apart (R65). -/
inductive Fmt where
  | f32 | p32 | b16 | h16 | e4m3 | e5m2 | e4m3s | e5m2s | e2m1 | i8
  deriving DecidableEq, Repr

/-- The format of a 4-bit code, none for a reserved combination (R65). -/
def fmtOf : Nat → Option Fmt
  | 0 => some .f32 | 1 => some .p32 | 2 => some .b16 | 3 => some .h16 | 4 => some .e4m3 | 5 => some .e5m2
  | 12 => some .e4m3s | 13 => some .e5m2s | 14 => some .e2m1 | 15 => some .i8
  | _ => none

/-- Element width in nibbles (R65). -/
def Fmt.nibs : Fmt → Nat
  | .f32 => 8 | .p32 => 16 | .b16 => 4 | .h16 => 4 | .e4m3 => 2 | .e5m2 => 2 | .e4m3s => 2 | .e5m2s => 2
  | .e2m1 => 1 | .i8 => 2

/-- The format shares an E8 block scale (R65). -/
def Fmt.scaled : Fmt → Bool
  | .e4m3s => true | .e5m2s => true | .e2m1 => true | .i8 => true
  | _ => false

/-- Exponent bits, fraction bits and bias of a floating-point element (R68, R72 to R75). -/
def Fmt.params : Fmt → Nat × Nat × Int
  | .f32 => (8, 23, 127) | .p32 => (8, 23, 127) | .b16 => (8, 7, 127) | .h16 => (5, 10, 15)
  | .e4m3 => (4, 3, 7) | .e4m3s => (4, 3, 7) | .e5m2 => (5, 2, 15) | .e5m2s => (5, 2, 15)
  | .e2m1 => (2, 1, 1) | .i8 => (0, 7, 0)

/-- The value of the bits of a floating-point element with IEEE 754 infinities and NaNs (R68, R72, R74). -/
def ieee (eb fb : Nat) (bias : Int) (c : Nat) : Val :=
  let s := c.testBit (eb + fb)
  let ex := bits c fb eb
  let fr := bits c 0 fb
  let sg : Int := if s then -1 else 1
  if ex = 2 ^ eb - 1 then (if fr = 0 then .inf s else .nan)
  else if ex = 0 then .fin s ⟨sg * fr, 1 - bias - fb⟩
  else .fin s ⟨sg * (2 ^ fb + fr : Nat), ex - bias - fb⟩

/-- The value of a floating-point element without infinities (R73, R75): every exponent field encodes numbers. -/
def plainFloat (eb fb : Nat) (bias : Int) (c : Nat) : Val :=
  let s := c.testBit (eb + fb)
  let ex := bits c fb eb
  let fr := bits c 0 fb
  let sg : Int := if s then -1 else 1
  if ex = 0 then .fin s ⟨sg * fr, 1 - bias - fb⟩ else .fin s ⟨sg * (2 ^ fb + fr : Nat), ex - bias - fb⟩

/-- The value of an F32 code (R68). -/
def f32Val (c : Word) : Val := ieee 8 23 127 c.toNat

/-- The value of a P32 pair (R71). -/
def p32Val (hi lo : Word) : Val :=
  match f32Val hi, f32Val lo with
  | .fin n x, .fin _ y => if x.m = 0 && y.m = 0 then .fin n dy0 else valOf (if x.m = 0 then n else false) (dyAdd x y)
  | a, b => vAdd a b

/-- The value of an element code, its block scale apart (R68 to R76). -/
def elemVal (f : Fmt) (c : Nat) : Val :=
  match f with
  | .f32 => ieee 8 23 127 c
  | .p32 => p32Val (BitVec.ofNat 32 (c >>> 32)) (BitVec.ofNat 32 c)
  | .b16 => ieee 8 7 127 c
  | .h16 => ieee 5 10 15 c
  | .e4m3 | .e4m3s => if bits c 0 7 = 127 then .nan else plainFloat 4 3 7 c
  | .e5m2 | .e5m2s => ieee 5 2 15 c
  | .e2m1 => plainFloat 2 1 1 c
  | .i8 => valOf false ⟨signedOf c 8, 0⟩

/-- The value of an element under its block's E8 scale: code xFF marks a NaN block (R77). -/
def scaledVal (f : Fmt) (c scale : Nat) : Val :=
  if f.scaled then
    if scale = 255 then .nan else
    match elemVal f c with
    | .fin n x => .fin n (dyScale x ((scale : Int) - 127))
    | v => v
  else elemVal f c

/-! ### Rounding (R81 to R84) -/

/-- The 16 random bits of an index under a seed (R83). -/
def randBits (seed : Long) (i : Long) : Nat :=
  let z := seed + (i + 1) * 0x9E3779B97F4A7C15#64
  let z := (z ^^^ (z >>> 30)) * 0xBF58476D1CE4E5B9#64
  let z := (z ^^^ (z >>> 27)) * 0x94D049BB133111EB#64
  (z ^^^ (z >>> 31)).toNat % 65536

/-- The index of R84 from the epoch and p. -/
def randIndex (epoch p : Nat) : Long := BitVec.ofNat 64 (epoch * 2 ^ 44 + p % 2 ^ 44)

/-- The rounding mode: RNE, or SR with its 16 random bits (R67). -/
inductive Rnd where
  | rne
  | sr (r : Nat)
  deriving DecidableEq, Repr

/-- A magnitude m × 2^-s rounded to an integer (R81, R82). -/
def roundShift (m s : Nat) (rm : Rnd) : Nat :=
  let n := m >>> s
  let rem := m % 2 ^ s
  if rem = 0 then n else
  match rm with
  | .rne => if 2 * rem < 2 ^ s then n else if 2 ^ s < 2 * rem then n + 1 else if n % 2 = 0 then n else n + 1
  | .sr r => if r < (2 ^ 16 * rem) >>> s then n + 1 else n

/-- A magnitude m × 2^e rounded onto the grid of spacing 2^q, in units of 2^q. -/
def roundGrid (m : Nat) (e q : Int) (rm : Rnd) : Nat :=
  if q ≤ e then m <<< (e - q).toNat else roundShift m (q - e).toNat rm

/-- A magnitude rounded to fb fraction bits with least exponent emin, exponent range unbounded above (R81, R82): the
units n and the exponent q of the unit. -/
def roundMag (fb : Nat) (emin : Int) (m : Nat) (e : Int) (rm : Rnd) : Nat × Int :=
  if m = 0 then (0, emin - fb) else
  let ex : Int := (Nat.log2 m : Int) + e
  let q : Int := (if ex < emin then emin else ex) - fb
  let n := roundGrid m e q rm
  if n = 2 ^ (fb + 1) then (2 ^ fb, q + 1) else (n, q)

/-- The code of n × 2^q with sign, for a floating-point element; the exponent must fit. -/
def packFloat (eb fb : Nat) (bias : Int) (neg : Bool) (n : Nat) (q : Int) : Nat :=
  let body := if n < 2 ^ fb then n else ((q + fb + bias).toNat <<< fb) + (n - 2 ^ fb)
  (b2n neg <<< (eb + fb)) + body

/-- The largest finite code, sign clear (R68, R72 to R76). -/
def Fmt.maxCode : Fmt → Nat
  | .f32 => 0x7F7FFFFF | .p32 => 0x7F7FFFFF | .b16 => 0x7F7F | .h16 => 0x7BFF | .e4m3 => 0x7E | .e4m3s => 0x7E
  | .e5m2 => 0x7B | .e5m2s => 0x7B | .e2m1 => 7 | .i8 => 127

/-- The infinity code, sign clear, for formats that have one. -/
def Fmt.infCode : Fmt → Nat
  | .f32 => 0x7F800000 | .p32 => 0x7F800000 | .b16 => 0x7F80 | .h16 => 0x7C00 | .e5m2 => 0x7C | .e5m2s => 0x7C
  | _ => 0

/-- The canonical NaN code (R88). -/
def Fmt.nanCode : Fmt → Nat
  | .f32 => 0x7FC00000 | .p32 => 0x7FC00000 | .b16 => 0x7FC0 | .h16 => 0x7E00 | .e4m3 => 0x7F | .e4m3s => 0x7F
  | .e5m2 => 0x7E | .e5m2s => 0x7E | _ => 0

/-- The sign bit of an element code. -/
def Fmt.signCode (f : Fmt) (neg : Bool) : Nat := let p := f.params; b2n neg <<< (p.1 + p.2.1)

/-- A finite exact value encoded in an unscaled floating-point format: rounding, then overflow by R86. -/
def encFinite (f : Fmt) (sat : Bool) (rm : Rnd) (neg : Bool) (x : Dy) : Nat :=
  let (eb, fb, bias) := f.params
  let (n, q) := roundMag fb (1 - bias) x.m.natAbs x.e rm
  let tooBig := match f with
    | .e4m3 | .e4m3s => decide (14 * 2 ^ (5 + 200) < n * 2 ^ (q + 200).toNat) && decide (0 ≤ q + 200)
    | .e2m1 => decide (6 * 2 ^ 200 < n * 2 ^ (q + 200).toNat) && decide (0 ≤ q + 200)
    | _ => decide ((2 ^ eb - 1 : Nat) ≤ (q + fb + bias)) && decide (2 ^ fb ≤ n)
  if tooBig then
    if f.scaled || sat then f.signCode neg + f.maxCode
    else match f with
      | .e4m3 => f.nanCode
      | _ => f.signCode neg + f.infCode
  else packFloat eb fb bias neg n q

/-- An exact value encoded as I8: rounded to an integer and saturated to ±127; no negative zero (R76, R86, R88). -/
def encI8 (rm : Rnd) (x : Dy) : Nat :=
  let n := Nat.min (roundGrid x.m.natAbs x.e 0 rm) 127
  if x.m < 0 && n != 0 then 256 - n else n

/-- RNE32: an exact value rounded to F32, kept as a code; a zero has the sign given (R81, R88). -/
def rne32 (neg : Bool) (x : Dy) : Word := BitVec.ofNat 32 (encFinite .f32 false .rne neg x)

/-- A value rounded to F32 by RNE (R104). -/
def toF32 : Val → Word
  | .fin n x => rne32 n x
  | .inf n => if n then 0xFF800000#32 else 0x7F800000#32
  | .nan => 0x7FC00000#32

/-- The exact number of a finite F32 code, zero for the others. -/
def f32Dy (c : Word) : Dy := (f32Val c).dy

/-- Rounding an exact number to F32 overflows (R86). -/
def f32Over (x : Dy) : Bool := (f32Val (rne32 false x)).special

/-- The pair (hi, lo) of an exact value exported to P32 (R70, R89): SAT acts on overflow (R86). Where the rest lies just under half an ulp
of an odd hi and rounds up to half an ulp, the pair of R89 is not normalized by R70: R89 is followed (DESIGN CHOICE, log 133). -/
def toP32 (sat : Bool) : Val → Word × Word
  | .fin n x =>
    let hi := BitVec.ofNat 32 (encFinite .f32 sat .rne n x)
    let d := dySub x (f32Dy hi)
    if f32Over x || decide ((f32Dy hi).m = 0) then (hi, 0) else (hi, rne32 (decide (d.m < 0)) d)
  | .inf n => (if n then 0xFF800000#32 else 0x7F800000#32, 0)
  | .nan => (0x7FC00000#32, 0)

/-- A value converted to one unscaled element (R86, R88, R89). P32 is formed by `toP32`. -/
def encElem (f : Fmt) (sat : Bool) (rm : Rnd) (v : Val) : Nat :=
  match f with
  | .p32 => let p := toP32 sat v; (p.1.toNat <<< 32) + p.2.toNat
  | _ =>
    match v with
    | .fin n x => encFinite f sat rm n x
    | .inf n =>
      match f with
      | .e4m3 => if sat then f.signCode n + f.maxCode else f.nanCode
      | _ => f.signCode n + f.infCode
    | .nan => f.nanCode

/-- One element of a block-scaled format under a given scale code: ±∞, NaN and scale xFF give element code zero (R87,
R500). -/
def encScaled (f : Fmt) (rm : Rnd) (scale : Nat) (v : Val) : Nat :=
  if scale = 255 then 0 else
  match v with
  | .fin n x =>
    let y := dyScale x (127 - (scale : Int))
    match f with
    | .i8 => encI8 rm y
    | _ => encFinite f true rm n y
  | _ => 0

/-- The largest finite element value of a block-scaled format as m × 2^e (R90). -/
def Fmt.maxElem : Fmt → Dy
  | .e2m1 => ⟨3, 1⟩ | .i8 => ⟨127, 0⟩ | .e4m3s => ⟨7, 6⟩ | .e4m3 => ⟨7, 6⟩ | .e5m2s => ⟨7, 13⟩ | .e5m2 => ⟨7, 13⟩
  | _ => ⟨1, 0⟩

/-- The smallest integer E with |x| ≤ M × 2^E, for x ≠ 0 (R90, R334). -/
def ceilLog (x m : Dy) : Int :=
  let a := x.m.natAbs
  let b := m.m.natAbs
  let base : Int := (Nat.log2 a : Int) + x.e - ((Nat.log2 b : Int) + m.e)
  -- a × 2^x.e against b × 2^(m.e + base)
  let le (k : Int) : Bool := !dyLt ⟨(b : Int), m.e + k⟩ ⟨(a : Int), x.e⟩
  if le (base - 1) then base - 1 else if le base then base else base + 1

/-- The scale code of a block of exact values (R90): x7F when all are zero, clamped to x00 and xFE. -/
def blockScale (f : Fmt) (vs : List Val) : Nat :=
  let a := vs.foldl (fun (m : Dy) v => let d : Dy := ⟨v.dy.m.natAbs, v.dy.e⟩; if dyLt m d then d else m) dy0
  if a.m = 0 then 127 else
  let e := ceilLog a f.maxElem
  if e < -127 then 0 else if 127 < e then 254 else (e + 127).toNat

/-- A block converted to a block-scaled format: the codes and the scale. A block with a source that is ±∞ or NaN is a
whole block NaN: zero codes and scale xFF (R87, R90). `rms` gives the rounding of each element. -/
def convBlock (f : Fmt) (rms : List Rnd) (vs : List Val) : List Nat × Nat :=
  if vs.any Val.special then (vs.map (fun _ => 0), 255)
  else
    let sc := blockScale f vs
    (List.zipWith (fun rm v => encScaled f rm sc v) rms vs, sc)

/-! ### F32 arithmetic of class x1 (R104) and of the clip factor (R222) -/

/-- F32 sum. -/
def fAdd (a b : Val) : Word := toF32 (vAdd a b)

/-- F32 product. -/
def fMul (a b : Val) : Word := toF32 (vMul a b)

/-- F32 fused multiply-add, rounded once. -/
def fFma (a b c : Val) : Word := toF32 (vAdd (vMul a b) c)

/-- a < b among F32 values, with -0 less than +0 (R104). -/
def vLess (a b : Val) : Bool :=
  match a, b with
  | .nan, _ => false
  | _, .nan => false
  | .inf x, .inf y => x && !y
  | .inf x, _ => x
  | _, .inf y => !y
  | .fin na x, .fin nb y => if x.m = 0 && y.m = 0 then na && !nb else dyLt x y

/-- F32 minimum or maximum on codes: the other operand when exactly one is NaN, canonical NaN when both are (R104). -/
def fMinMax (max : Bool) (a b : Word) : Word :=
  match f32Val a, f32Val b with
  | .nan, .nan => 0x7FC00000#32
  | .nan, _ => b
  | _, .nan => a
  | x, y => if max then (if vLess x y then b else a) else (if vLess y x then b else a)

/-- Integer square root by bisection on bits, from bit k down. -/
def isqrtGo (n : Nat) : Nat → Nat → Nat
  | 0, r => if (r + 1) * (r + 1) ≤ n then r + 1 else r
  | k + 1, r => let t := r + 2 ^ (k + 1); if t * t ≤ n then isqrtGo n k t else isqrtGo n k r

/-- ⌊√n⌋. -/
def isqrt (n : Nat) : Nat := isqrtGo n (Nat.log2 n / 2 + 1) 0

/-- The correctly rounded F32 square root of a non-negative exact value (R222): the root to 64 bits beyond need, with a
sticky last bit. -/
def sqrt32 (x : Dy) : Word :=
  if x.m ≤ 0 then 0 else
  let m := x.m.natAbs
  let sh : Nat := if (x.e % 2) = 0 then 128 else 129
  let n := m * 2 ^ sh
  let r := isqrt n
  let sticky : Nat := if r * r = n then 0 else 1
  rne32 false ⟨(2 * r + sticky : Nat), (x.e - sh) / 2 - 1⟩

/-- The correctly rounded F32 quotient of positive exact values (R222). -/
def div32 (a b : Dy) : Word :=
  let n := a.m.natAbs * 2 ^ 400
  let d := b.m.natAbs
  let q := n / d
  let sticky : Nat := if q * d = n then 0 else 1
  rne32 false ⟨(2 * q + sticky : Nat), a.e - b.e - 400 - 1⟩

end Sys2Proof.Machine
end

