-- ==== Sys2Proof/Config.lean ====
section
/-! DEFINITION. What the spec leaves open: free values, as constants with no body. Each is named in the assumption log. -/

namespace Sys2Proof.Config

/-- The value a 32-bit result holds where the spec states none: by the state's counter of free values, and by an index where
one command takes several (DESIGN CHOICE, log 10). -/
opaque freeWord : Nat → Nat → Word

/-- The requester id that `MC_WHOAMI` shows in a snapshot, whose reader R395 gives no id (DESIGN CHOICE, log 11). -/
opaque recorderId : BitVec 11

/-- The SHA-256 function of R456 on a string of numbers (DESIGN CHOICE, log 12). -/
opaque sha256 : List Nat → BitVec 256

/-- The device HSS public key of the lifecycle state with the code given, derived from the PUF seed (R448, R449, DESIGN CHOICE, log 12). -/
opaque deviceKey : Nat → BitVec 480

/-- The HSS signature, under the device key of a lifecycle state, with the leaf index given, of a message (R445, R446, DESIGN CHOICE, log 12). -/
opaque signature : Nat → Nat → Nat → Nat

/-- The SHA-256 hash of a schedule image, whose layout the spec does not give (R456, DESIGN CHOICE, log 9). -/
opaque schedHash : SchedImage → BitVec 256

/-- How a control core's architectural state changes when the core executes one instruction (R460, DESIGN CHOICE, log 13). -/
opaque coreStep : Long → Long

/-- The general registers that an instruction word reads or writes: R103 gives no OP codes and no modifier codes (DESIGN CHOICE, log 120). -/
opaque insnRegs : Long → List Nat

/-- The predicates that an instruction word reads or writes beside its guard (DESIGN CHOICE, log 120). -/
opaque insnPreds : Long → List Nat

/-- The codes of the operations of a FABRIC_REQ body, numbered 0 load, 1 store, 2 POST and 3 on the atomics, and of its widths in nibbles:
R318 gives the fields and no codes (DESIGN CHOICE, log 142). -/
opaque flitOp : Nat → BitVec 6
opaque flitWidth : Nat → BitVec 3

/-- The device code that IDCODE returns (R460, DESIGN CHOICE, log 28). -/
opaque idcode : Word

/-- Which rail numbers of BEACON class x1 are those of north-crescent rails: R418 numbers no rail (DESIGN CHOICE, log 20). -/
opaque northRail : Nat → Bool

end Sys2Proof.Config
end

