-- ==== Sys2Proof/Machine/Ecc.lean ====
section
/-! DEFINITION. The symbol code of R242 to R244 over GF(16): columns, encoder, syndrome and decoder. -/

namespace Sys2Proof.Machine

/-- Product in GF(16) on z⁴ + z + 1, with nibble bit k the coefficient of zᵏ (R242). -/
def gfMul (a b : Nib) : Nib :=
  let dbl (x : Nib) : Nib := (x <<< 1) ^^^ (if x.getLsbD 3 then 3#4 else 0#4)
  let t (k : Nat) (x : Nib) : Nib := if b.getLsbD k then x else 0#4
  t 0 a ^^^ t 1 (dbl a) ^^^ t 2 (dbl (dbl a)) ^^^ t 3 (dbl (dbl (dbl a)))

/-- Inverse in GF(16): a^14, zero for zero. -/
def gfInv (a : Nib) : Nib :=
  let a2 := gfMul a a
  let a4 := gfMul a2 a2
  gfMul (gfMul a2 a4) (gfMul a4 a4)

/-- λ (R242). -/
def lam : Nib := 8#4

/-- Q(x, y) = x² + xy + λy² (R242). -/
def quadQ (x y : Nib) : Nib := gfMul x x ^^^ gfMul x y ^^^ gfMul lam (gfMul y y)

/-- The column of symbol position p (R242). -/
def column (p : Nat) : Nib × Nib × Nib × Nib :=
  if p < 32 then
    let x : Nib := BitVec.ofNat 4 p
    let y : Nib := if p < 16 then 2#4 else 3#4
    (1, x, y, quadQ x y)
  else if p = 32 then (1, 0, 0, 0)
  else if p = 33 then (0, 0, 0, 1)
  else if p = 34 then (1, 1, 0, 1)
  else (1, 0, 1, lam)

/-- Sum of symbol times column over a list of symbols from position p. -/
def colSum : Nat → List Nib → Nib × Nib × Nib × Nib
  | _, [] => (0, 0, 0, 0)
  | p, d :: r =>
    let (a0, a1, a2, a3) := column p
    let (b0, b1, b2, b3) := colSum (p + 1) r
    (gfMul d a0 ^^^ b0, gfMul d a1 ^^^ b1, gfMul d a2 ^^^ b2, gfMul d a3 ^^^ b3)

/-- The check symbols c0 to c3 of 32 data symbols (R243). -/
def eccChecks (d : List Nib) : List Nib :=
  let (t0, t1, t2, t3) := colSum 0 d
  [t0 ^^^ t1 ^^^ t2, t3 ^^^ t1 ^^^ gfMul lam t2, t1, t2]

/-- What the decoder does with a stored codeword (R243): rules 1, 2 and 3 with the symbol and the amount added, 4, 5. -/
inductive EccAct where
  | clean
  | corrected (p : Nat) (e : Nib)
  | poisoned
  | uncorrectable
  deriving DecidableEq, Repr

/-- The position of the column (1, x, y, Q(x, y)), if the table holds it (R242, R243 rule 2). -/
def positionOf (x y : Nib) : Option Nat :=
  if y = 2#4 then some x.toNat
  else if y = 3#4 then some (16 + x.toNat)
  else if x = 0#4 && y = 0#4 then some 32
  else if x = 1#4 && y = 0#4 then some 34
  else if x = 0#4 && y = 1#4 then some 35
  else none

/-- The decoder's rule for a syndrome (R243). -/
def eccRule (s : Nib × Nib × Nib × Nib) : EccAct :=
  let (s0, s1, s2, s3) := s
  if s0 = 0#4 && s1 = 0#4 && s2 = 0#4 && s3 = 0#4 then .clean
  else if s0 != 0#4 then
    let i := gfInv s0
    let x := gfMul s1 i
    let y := gfMul s2 i
    if gfMul s3 i = quadQ x y then
      match positionOf x y with
      | some p => .corrected p s0
      | none => .uncorrectable
    else .uncorrectable
  else if s1 = 0#4 && s2 = 0#4 then .corrected 33 s3
  else if s1 = 1#4 && s2 = 0#4 && s3 = 0#4 then .poisoned
  else .uncorrectable

/-- The syndrome of a codeword that was stored valid, or poisoned with S = (0, 1, 0, 0) (R244), and has since taken the
error pattern u. The code is linear, so the data drop out. -/
def syndromeOf (poisoned : Bool) (u : Upset) : Nib × Nib × Nib × Nib :=
  let (s0, s1, s2, s3) := colSum 0 (nibsOf u.toNat 36)
  (s0, if poisoned then s1 ^^^ 1#4 else s1, s2, s3)

/-- What the decoder finds in such a codeword (R243). -/
def eccDecode (poisoned : Bool) (u : Upset) : EccAct := eccRule (syndromeOf poisoned u)

/-- The change that a reader sees in the 32 data symbols, as a mask to be added: the error pattern, with the corrected
symbol restored. -/
def eccMask (u : Upset) (a : EccAct) : BitVec 128 :=
  let base : BitVec 128 := u.truncate 128
  match a with
  | .corrected p e => if p < 32 then base ^^^ (BitVec.ofNat 128 (e.toNat <<< (4 * p))) else base
  | _ => base

end Sys2Proof.Machine
end

