-- ==== Sys2Proof/Machine/RegMap.lean ====
section
/-! DEFINITION. The register space as data: blocks and their offsets (R392), each register with its fields, access codes, reset values and writer (the register tables of every chapter), and the lookup of an offset. -/

namespace Sys2Proof.Machine

/-- Access codes of register fields (R7). -/
inductive Acc7 where
  | ro | rw | s | w1c | wo | g
  deriving DecidableEq, Repr

/-- A field: lowest bit, width, access, reset value. An L reset value, loaded at start-up, is 0 here (DESIGN CHOICE, log 5). -/
structure Fd where
  lo : Nat
  w : Nat
  acc : Acc7
  reset : Nat
  deriving DecidableEq, Repr

/-- Who writes a register: the owner and the runtime (R499), the runtime alone, the owner alone, nobody with the write
ignored and not logged (R233, R345, R391, R466), the owner or keeper and standby through class b11, or keeper and
standby alone (R312), or nobody, every write being logged (R444). -/
inductive By where
  | both | runtime | owner | nobody | ownerKeeper | keeper | refused
  deriving DecidableEq, Repr

/-- Registers of one table: name, offset in the block, count and step of n, writer, fields. -/
structure Row where
  name : String
  base : Nat
  count : Nat
  step : Nat
  writer : By
  fields : List Fd
  deriving DecidableEq, Repr

/-- Registers of the module control block (R233, R345, R408, R421, R423). -/
def mcRows : List Row := [
  ⟨"UPDATE", 0x0, 1, 0x8, .both, [⟨0, 16, .wo, 0x0⟩]⟩,
  ⟨"UPD_PENDING", 0x8, 1, 0x8, .both, [⟨0, 16, .ro, 0x0⟩, ⟨16, 16, .ro, 0x0⟩]⟩,
  ⟨"UPD_CENTRAL", 0x40, 1, 0x8, .both, [⟨0, 32, .rw, 0x0⟩]⟩,
  ⟨"UPD_LINK_n", 0x80, 8, 0x8, .both, [⟨0, 32, .rw, 0x11111111⟩]⟩,
  ⟨"UPD_FIELD_n", 0xC0, 8, 0x8, .both, [⟨0, 32, .rw, 0x22222222⟩]⟩,
  ⟨"MC_ID", 0x100, 1, 0x8, .both, [⟨0, 16, .ro, 0x5F01⟩, ⟨16, 8, .ro, 0x0⟩]⟩,
  ⟨"MC_STATE", 0x108, 1, 0x8, .both, [⟨0, 4, .ro, 0x0⟩, ⟨4, 3, .ro, 0x0⟩]⟩,
  ⟨"MC_GUARD", 0x110, 1, 0x8, .both, [⟨0, 16, .ro, 0x0⟩, ⟨16, 11, .ro, 0x0⟩, ⟨31, 1, .w1c, 0x0⟩]⟩,
  ⟨"MC_GUARD_ADDR", 0x118, 1, 0x8, .both, [⟨0, 32, .ro, 0x0⟩]⟩,
  ⟨"MC_WHOAMI", 0x120, 1, 0x8, .both, [⟨0, 11, .ro, 0x0⟩]⟩,
  ⟨"MC_SCRATCH", 0x128, 1, 0x8, .both, [⟨0, 32, .rw, 0x0⟩]⟩,
  ⟨"SU_STATUS", 0x200, 1, 0x8, .both, [⟨0, 4, .ro, 0x1⟩, ⟨4, 1, .ro, 0x0⟩, ⟨5, 1, .ro, 0x0⟩, ⟨6, 1, .ro, 0x0⟩, ⟨7, 1, .ro, 0x0⟩, ⟨8, 8, .ro, 0x0⟩, ⟨16, 8, .ro, 0x0⟩, ⟨24, 1, .ro, 0x0⟩]⟩,
  ⟨"SU_RECORD_n", 0x208, 16, 0x8, .both, [⟨0, 32, .ro, 0x0⟩]⟩,
  ⟨"STEP_PHASE", 0x2000, 16, 0x100, .nobody, [⟨0, 4, .ro, 0x0⟩, ⟨4, 1, .ro, 0x0⟩, ⟨5, 1, .ro, 0x0⟩, ⟨6, 2, .ro, 0x0⟩, ⟨8, 1, .ro, 0x0⟩]⟩,
  ⟨"STEP_INDEX", 0x2008, 16, 0x100, .nobody, [⟨0, 32, .ro, 0x0⟩]⟩,
  ⟨"STEP_COMMITTED", 0x2010, 16, 0x100, .nobody, [⟨0, 32, .ro, 0xFFFFFFFF⟩]⟩,
  ⟨"STEP_FENCE_HITS", 0x2018, 16, 0x100, .nobody, [⟨0, 16, .ro, 0x0⟩]⟩,
  ⟨"STEP_CLIP", 0x2020, 16, 0x100, .nobody, [⟨0, 32, .ro, 0x3F800000⟩]⟩,
  ⟨"RCH_STATUS", 0x3000, 512, 0x10, .nobody, [⟨0, 3, .ro, 0x0⟩, ⟨3, 8, .ro, 0x0⟩, ⟨11, 8, .ro, 0x0⟩, ⟨19, 8, .ro, 0x0⟩, ⟨27, 1, .ro, 0x0⟩]⟩,
  ⟨"RCH_COUNT", 0x3008, 512, 0x10, .nobody, [⟨0, 16, .ro, 0x0⟩, ⟨16, 16, .ro, 0x0⟩]⟩]

/-- Registers of the power block (R444). -/
def pwrRows : List Row := [
  ⟨"PWR_STATE", 0x0, 1, 0x8, .refused, [⟨0, 3, .ro, 0x0⟩, ⟨3, 5, .ro, 0x10⟩, ⟨8, 1, .ro, 0x0⟩, ⟨9, 1, .ro, 0x0⟩, ⟨10, 2, .ro, 0x0⟩, ⟨12, 1, .ro, 0x0⟩]⟩,
  ⟨"PWR_INPUT", 0x8, 1, 0x8, .refused, [⟨0, 13, .ro, 0x0⟩, ⟨13, 13, .ro, 0x0⟩]⟩,
  ⟨"PWR_POWER", 0x10, 1, 0x8, .refused, [⟨0, 16, .ro, 0x0⟩, ⟨16, 16, .ro, 0x0⟩]⟩,
  ⟨"PWR_CAP", 0x18, 1, 0x8, .owner, [⟨0, 16, .g, 0x5DC0⟩, ⟨16, 3, .g, 0x0⟩, ⟨19, 3, .g, 0x2⟩]⟩,
  ⟨"PWR_PFW_CFG", 0x20, 1, 0x8, .owner, [⟨0, 10, .g, 0x1F4⟩, ⟨10, 7, .g, 0xA⟩, ⟨17, 4, .g, 0x5⟩]⟩,
  ⟨"PWR_CTRL", 0x28, 1, 0x8, .owner, [⟨0, 1, .wo, 0x0⟩]⟩,
  ⟨"PWR_HOLD_LO", 0x30, 1, 0x8, .refused, [⟨0, 32, .ro, 0x0⟩]⟩,
  ⟨"PWR_HOLD_HI", 0x38, 1, 0x8, .refused, [⟨0, 32, .ro, 0x0⟩]⟩,
  ⟨"PWR_EVENTS", 0x40, 1, 0x8, .refused, [⟨0, 16, .ro, 0x0⟩, ⟨16, 16, .ro, 0x0⟩]⟩,
  ⟨"PWR_TEMP", 0x48, 1, 0x8, .refused, [⟨0, 8, .ro, 0x0⟩, ⟨8, 8, .ro, 0x0⟩, ⟨16, 8, .ro, 0x0⟩]⟩,
  ⟨"PWR_PEER_BASE", 0x50, 1, 0x8, .runtime, [⟨0, 20, .rw, 0x0⟩]⟩,
  ⟨"PWR_PEER_LEN", 0x58, 1, 0x8, .runtime, [⟨0, 20, .rw, 0x0⟩]⟩,
  ⟨"PWR_CKPT", 0x60, 1, 0x8, .refused, [⟨0, 32, .ro, 0xFFFFFFFF⟩]⟩]

/-- Registers of the security block (R466). -/
def secRows : List Row := [
  ⟨"SEC_STATUS", 0x0, 1, 0x8, .nobody, [⟨0, 2, .ro, 0x0⟩, ⟨2, 2, .ro, 0x0⟩, ⟨4, 1, .ro, 0x0⟩, ⟨5, 1, .ro, 0x0⟩, ⟨6, 1, .ro, 0x0⟩, ⟨7, 1, .ro, 0x0⟩, ⟨8, 8, .ro, 0x0⟩]⟩,
  ⟨"SEC_FW", 0x8, 1, 0x8, .nobody, [⟨0, 32, .ro, 0x0⟩]⟩,
  ⟨"SEC_REVOCATION", 0x10, 1, 0x8, .nobody, [⟨0, 32, .ro, 0x0⟩]⟩,
  ⟨"SEC_SIGN_NEXT", 0x18, 1, 0x8, .nobody, [⟨0, 26, .ro, 0x0⟩]⟩,
  ⟨"SEC_SIGN_END", 0x20, 1, 0x8, .nobody, [⟨0, 26, .ro, 0x0⟩]⟩,
  ⟨"SEC_BOOTS", 0x28, 1, 0x8, .nobody, [⟨0, 32, .ro, 0x0⟩]⟩,
  ⟨"SEC_ID_HASH_n", 0x40, 8, 0x8, .nobody, [⟨0, 32, .ro, 0x0⟩]⟩,
  ⟨"SEC_FW_HASH_n", 0x80, 8, 0x8, .nobody, [⟨0, 32, .ro, 0x0⟩]⟩]

/-- Registers of the event recorder block (R485). -/
def evrRows : List Row := [
  ⟨"EVR_STATUS", 0x0, 1, 0x8, .both, [⟨0, 13, .ro, 0x0⟩, ⟨13, 1, .ro, 0x0⟩, ⟨14, 7, .ro, 0x0⟩]⟩,
  ⟨"EVR_FIRST", 0x8, 1, 0x8, .both, [⟨0, 32, .ro, 0x0⟩]⟩,
  ⟨"EVR_NEXT", 0x10, 1, 0x8, .both, [⟨0, 32, .ro, 0x0⟩]⟩,
  ⟨"EVR_LOST", 0x18, 1, 0x8, .both, [⟨0, 16, .ro, 0x0⟩, ⟨16, 15, .ro, 0x0⟩, ⟨31, 1, .w1c, 0x0⟩]⟩,
  ⟨"EVR_SKIPPED", 0x20, 1, 0x8, .both, [⟨0, 32, .ro, 0x0⟩]⟩,
  ⟨"EVR_EPOCH", 0x28, 1, 0x8, .both, [⟨0, 32, .ro, 0x0⟩]⟩,
  ⟨"EVR_RELEASE", 0x30, 1, 0x8, .both, [⟨0, 13, .g, 0x0⟩]⟩,
  ⟨"EVR_SEL", 0x38, 1, 0x8, .both, [⟨0, 12, .rw, 0x0⟩]⟩,
  ⟨"EVR_DATA_n", 0x40, 16, 0x8, .both, [⟨0, 32, .ro, 0x0⟩]⟩,
  ⟨"EVR_CLASS_SEL", 0x100, 1, 0x8, .both, [⟨0, 5, .rw, 0x0⟩, ⟨5, 4, .rw, 0x0⟩]⟩,
  ⟨"EVR_CLASS_COUNT", 0x108, 1, 0x8, .both, [⟨0, 32, .ro, 0x0⟩]⟩,
  ⟨"EVR_CLASS_CFG", 0x110, 1, 0x8, .both, [⟨0, 1, .rw, 0x1⟩, ⟨1, 1, .rw, 0x1⟩]⟩,
  ⟨"EVR_SNAP_n", 0x140, 12, 0x8, .both, [⟨0, 20, .rw, 0x0⟩, ⟨20, 1, .rw, 0x0⟩, ⟨31, 1, .rw, 0x0⟩]⟩,
  ⟨"RGN_POISON_n", 0x400, 128, 0x8, .runtime, [⟨0, 32, .w1c, 0x0⟩]⟩,
  ⟨"REP_SEL", 0x800, 1, 0x8, .both, [⟨0, 12, .rw, 0x0⟩]⟩,
  ⟨"REP_DATA0", 0x808, 1, 0x8, .both, [⟨0, 2, .rw, 0x0⟩, ⟨2, 10, .rw, 0x0⟩, ⟨12, 4, .rw, 0x0⟩, ⟨16, 16, .rw, 0x0⟩]⟩,
  ⟨"REP_DATA1", 0x810, 1, 0x8, .both, [⟨0, 32, .rw, 0x0⟩]⟩,
  ⟨"REP_DATA2", 0x818, 1, 0x8, .both, [⟨0, 32, .rw, 0x0⟩]⟩,
  ⟨"REP_COMMIT", 0x820, 1, 0x8, .both, [⟨0, 1, .g, 0x0⟩]⟩]

/-- Registers of the host interface block, its DMA channels apart (R366, R390, R391). -/
def hstRows : List Row := [
  ⟨"RING_CMD_LO", 0x0, 17, 0x100, .owner, [⟨12, 20, .rw, 0x0⟩]⟩,
  ⟨"RING_CMD_HI", 0x8, 17, 0x100, .owner, [⟨0, 32, .rw, 0x0⟩]⟩,
  ⟨"RING_CPL_LO", 0x10, 17, 0x100, .owner, [⟨12, 20, .rw, 0x0⟩]⟩,
  ⟨"RING_CPL_HI", 0x18, 17, 0x100, .owner, [⟨0, 32, .rw, 0x0⟩]⟩,
  ⟨"RING_DB_LO", 0x20, 17, 0x100, .owner, [⟨4, 28, .rw, 0x0⟩]⟩,
  ⟨"RING_DB_HI", 0x28, 17, 0x100, .owner, [⟨0, 32, .rw, 0x0⟩]⟩,
  ⟨"RING_SIZE", 0x30, 17, 0x100, .owner, [⟨0, 5, .rw, 0x4⟩, ⟨8, 5, .rw, 0x4⟩, ⟨16, 5, .rw, 0x0⟩, ⟨21, 1, .rw, 0x0⟩]⟩,
  ⟨"RING_CTRL", 0x38, 17, 0x100, .owner, [⟨0, 1, .rw, 0x0⟩]⟩,
  ⟨"RING_STATUS", 0x40, 17, 0x100, .owner, [⟨0, 2, .ro, 0x0⟩, ⟨2, 8, .ro, 0x0⟩, ⟨16, 16, .ro, 0x0⟩]⟩,
  ⟨"RING_CMD_CONS", 0x48, 17, 0x100, .owner, [⟨0, 32, .ro, 0x0⟩]⟩,
  ⟨"RING_CPL_PROD", 0x50, 17, 0x100, .owner, [⟨0, 32, .ro, 0x0⟩]⟩,
  ⟨"PART_STATUS", 0x2000, 16, 0x10, .nobody, [⟨0, 2, .ro, 0x0⟩, ⟨2, 1, .ro, 0x0⟩, ⟨3, 1, .ro, 0x0⟩, ⟨4, 16, .ro, 0x0⟩]⟩,
  ⟨"PART_JOB", 0x2008, 16, 0x10, .nobody, [⟨0, 16, .ro, 0x0⟩]⟩,
  ⟨"HOST_DMA_RING_n", 0x9000, 4, 0x8, .owner, [⟨0, 32, .g, 0xFFFFFFFF⟩]⟩,
  ⟨"HOST_DMA_LIST_LO", 0x9020, 1, 0x8, .owner, [⟨0, 32, .g, 0x76543210⟩]⟩,
  ⟨"HOST_DMA_LIST_HI", 0x9028, 1, 0x8, .owner, [⟨0, 32, .g, 0xFEDCBA98⟩]⟩]

/-- Registers of the fabric block (R312). -/
def fabRows : List Row := [
  ⟨"FAB_STATUS", 0x0, 1, 0x8, .runtime, [⟨0, 10, .ro, 0x0⟩, ⟨10, 8, .ro, 0x0⟩]⟩,
  ⟨"FAB_KEEPER", 0x8, 1, 0x8, .ownerKeeper, [⟨0, 10, .g, 0x0⟩, ⟨10, 10, .g, 0x0⟩, ⟨20, 1, .g, 0x1⟩]⟩,
  ⟨"FAB_LIVE_CFG", 0x10, 1, 0x8, .runtime, [⟨0, 16, .rw, 0x100⟩, ⟨16, 4, .rw, 0x3⟩]⟩,
  ⟨"FAB_TEARDOWN", 0x18, 1, 0x8, .keeper, [⟨0, 16, .g, 0x0⟩]⟩,
  ⟨"ROUTE_SEL", 0x40, 1, 0x8, .runtime, [⟨0, 10, .rw, 0x0⟩]⟩,
  ⟨"ROUTE_DATA", 0x48, 1, 0x8, .runtime, [⟨0, 3, .g, 0x0⟩, ⟨3, 1, .g, 0x0⟩]⟩,
  ⟨"LINK_REMAP_g", 0x80, 8, 0x8, .runtime, [⟨0, 24, .g, 0xFAC688⟩, ⟨24, 8, .ro, 0x0⟩]⟩,
  ⟨"RGN_SEL", 0x100, 1, 0x8, .runtime, [⟨0, 12, .rw, 0x0⟩, ⟨12, 8, .ro, 0x0⟩]⟩,
  ⟨"RGN_DATA0", 0x108, 1, 0x8, .runtime, [⟨0, 20, .rw, 0x0⟩, ⟨20, 4, .rw, 0x0⟩, ⟨24, 1, .rw, 0x0⟩, ⟨25, 1, .rw, 0x0⟩, ⟨26, 1, .rw, 0x0⟩, ⟨27, 1, .rw, 0x0⟩, ⟨28, 1, .rw, 0x0⟩, ⟨29, 1, .rw, 0x0⟩, ⟨30, 1, .rw, 0x0⟩, ⟨31, 1, .rw, 0x0⟩]⟩,
  ⟨"RGN_DATA1", 0x110, 1, 0x8, .runtime, [⟨0, 20, .rw, 0x0⟩, ⟨20, 12, .rw, 0x0⟩]⟩,
  ⟨"RGN_DATA2", 0x118, 1, 0x8, .runtime, [⟨0, 16, .rw, 0x0⟩, ⟨16, 16, .rw, 0x0⟩]⟩,
  ⟨"RGN_DATA3", 0x120, 1, 0x8, .runtime, [⟨0, 20, .g, 0x0⟩, ⟨20, 1, .g, 0x0⟩, ⟨21, 1, .ro, 0x0⟩, ⟨22, 1, .ro, 0x0⟩]⟩,
  ⟨"RGN_FLIP", 0x128, 1, 0x8, .runtime, [⟨0, 12, .g, 0x0⟩, ⟨12, 1, .g, 0x0⟩]⟩,
  ⟨"KMAP_SEL", 0x200, 1, 0x8, .runtime, [⟨0, 4, .rw, 0x0⟩, ⟨4, 4, .rw, 0x0⟩]⟩,
  ⟨"KMAP_DATA0", 0x208, 1, 0x8, .runtime, [⟨0, 20, .rw, 0x0⟩, ⟨20, 10, .rw, 0x0⟩, ⟨30, 1, .rw, 0x0⟩, ⟨31, 1, .rw, 0x0⟩]⟩,
  ⟨"KMAP_DATA1", 0x210, 1, 0x8, .runtime, [⟨0, 20, .rw, 0x0⟩]⟩,
  ⟨"KMAP_DATA2", 0x218, 1, 0x8, .runtime, [⟨0, 16, .g, 0x0⟩]⟩,
  ⟨"FAB_ERR", 0x300, 1, 0x8, .runtime, [⟨0, 16, .ro, 0x0⟩, ⟨16, 8, .ro, 0x0⟩, ⟨24, 7, .ro, 0x0⟩, ⟨31, 1, .w1c, 0x0⟩]⟩]

/-- Registers of the two cache halves (R289). -/
def scRows : List Row := [
  ⟨"SC_STATUS", 0x0, 2, 0x4000, .both, [⟨0, 4, .ro, 0x0⟩, ⟨4, 1, .w1c, 0x0⟩, ⟨5, 1, .ro, 0x0⟩, ⟨8, 8, .ro, 0x0⟩]⟩,
  ⟨"SC_THRASH_CFG", 0x8, 2, 0x4000, .both, [⟨0, 16, .rw, 0xFFFF⟩, ⟨16, 16, .rw, 0x8000⟩]⟩,
  ⟨"SC_ACCESSES", 0x10, 2, 0x4000, .both, [⟨0, 32, .ro, 0x0⟩]⟩,
  ⟨"SC_MISSES", 0x18, 2, 0x4000, .both, [⟨0, 32, .ro, 0x0⟩]⟩,
  ⟨"SC_RETIRE", 0x20, 2, 0x4000, .both, [⟨0, 16, .ro, 0x0⟩, ⟨16, 16, .ro, 0x0⟩]⟩,
  ⟨"SC_ERR", 0x28, 2, 0x4000, .both, [⟨0, 16, .ro, 0x0⟩, ⟨16, 8, .ro, 0x0⟩, ⟨24, 7, .ro, 0x0⟩, ⟨31, 1, .w1c, 0x0⟩]⟩,
  ⟨"SC_PIN_QUOTA_LO", 0x30, 2, 0x4000, .both, [⟨0, 32, .g, 0x0⟩]⟩,
  ⟨"SC_PIN_QUOTA_HI", 0x38, 2, 0x4000, .both, [⟨0, 32, .g, 0x0⟩]⟩,
  ⟨"SC_PIN_SEL", 0x40, 2, 0x4000, .both, [⟨0, 3, .rw, 0x0⟩]⟩,
  ⟨"SC_PIN_BASE", 0x48, 2, 0x4000, .both, [⟨0, 32, .rw, 0x0⟩]⟩,
  ⟨"SC_PIN_CTRL", 0x50, 2, 0x4000, .both, [⟨0, 17, .g, 0x0⟩, ⟨17, 1, .g, 0x0⟩, ⟨18, 4, .g, 0x0⟩]⟩,
  ⟨"SC_PIN_STATE", 0x58, 2, 0x4000, .both, [⟨0, 4, .ro, 0x0⟩, ⟨4, 8, .ro, 0x0⟩, ⟨12, 1, .ro, 0x0⟩]⟩,
  ⟨"SC_OP_BASE", 0x60, 2, 0x4000, .both, [⟨0, 32, .rw, 0x0⟩]⟩,
  ⟨"SC_OP_CTRL", 0x68, 2, 0x4000, .both, [⟨0, 17, .wo, 0x0⟩, ⟨17, 2, .wo, 0x0⟩]⟩]

/-- Registers of the schedule checker (R52). -/
def chkRows : List Row := [
  ⟨"CHK_STATUS", 0x0, 1, 0x8, .both, [⟨0, 1, .ro, 0x0⟩, ⟨1, 1, .ro, 0x0⟩, ⟨2, 1, .ro, 0x0⟩, ⟨8, 8, .ro, 0x0⟩, ⟨16, 4, .ro, 0x0⟩, ⟨20, 1, .ro, 0x0⟩]⟩,
  ⟨"CHK_WHERE", 0x8, 1, 0x8, .both, [⟨0, 32, .ro, 0x0⟩]⟩,
  ⟨"CHK_OTHER", 0x10, 1, 0x8, .both, [⟨0, 32, .ro, 0xFFFFFFFF⟩]⟩,
  ⟨"CHK_COUNTS", 0x18, 1, 0x8, .both, [⟨0, 16, .ro, 0x0⟩, ⟨16, 16, .ro, 0x0⟩]⟩,
  ⟨"CHK_STALL", 0x20, 1, 0x8, .both, [⟨0, 32, .s, 0x1000000⟩]⟩]

/-- Registers of a link block (R346). -/
def linkRows : List Row := [
  ⟨"LINK_STATUS", 0x0, 1, 0x8, .runtime, [⟨0, 3, .ro, 0x0⟩, ⟨3, 1, .ro, 0x0⟩, ⟨4, 8, .ro, 0x0⟩, ⟨12, 1, .ro, 0x0⟩, ⟨13, 8, .ro, 0x0⟩]⟩,
  ⟨"LINK_PEER", 0x8, 1, 0x8, .runtime, [⟨0, 10, .ro, 0x0⟩, ⟨10, 6, .ro, 0x0⟩, ⟨16, 1, .ro, 0x0⟩]⟩,
  ⟨"LINK_EXPECT", 0x10, 1, 0x8, .runtime, [⟨0, 10, .rw, 0x0⟩, ⟨10, 6, .rw, 0x0⟩, ⟨16, 1, .rw, 0x0⟩]⟩,
  ⟨"LINK_CTRL", 0x18, 1, 0x8, .runtime, [⟨0, 1, .rw, 0x1⟩, ⟨1, 1, .wo, 0x0⟩]⟩,
  ⟨"LINK_FEC_SYM", 0x20, 1, 0x8, .runtime, [⟨0, 32, .ro, 0x0⟩]⟩,
  ⟨"LINK_FEC_CW", 0x28, 1, 0x8, .runtime, [⟨0, 16, .ro, 0x0⟩, ⟨16, 8, .ro, 0x0⟩, ⟨24, 8, .ro, 0x0⟩]⟩,
  ⟨"LINK_REPLAY", 0x30, 1, 0x8, .runtime, [⟨0, 16, .ro, 0x0⟩, ⟨16, 8, .ro, 0x0⟩, ⟨31, 1, .w1c, 0x0⟩]⟩,
  ⟨"LINK_LIMITS", 0x38, 1, 0x8, .runtime, [⟨0, 8, .rw, 0x10⟩, ⟨8, 8, .rw, 0x40⟩, ⟨16, 5, .rw, 0x14⟩]⟩,
  ⟨"LINK_ROTA", 0x40, 1, 0x8, .runtime, [⟨0, 11, .ro, 0x1⟩]⟩,
  ⟨"LINK_ADD", 0x48, 1, 0x8, .runtime, [⟨0, 16, .ro, 0x0⟩, ⟨16, 16, .ro, 0x0⟩]⟩]

/-- Registers of a tile block (R85, R137, R175, R266, R267). -/
def tileRows : List Row := [
  ⟨"SITE_STATUS", 0x0, 1, 0x8, .both, [⟨0, 1, .ro, 0x0⟩, ⟨1, 1, .ro, 0x0⟩, ⟨2, 4, .ro, 0x0⟩, ⟨6, 4, .ro, 0x0⟩, ⟨10, 3, .ro, 0x0⟩, ⟨13, 1, .ro, 0x0⟩]⟩,
  ⟨"VLT_TEMP", 0x8, 1, 0x8, .both, [⟨0, 8, .ro, 0x0⟩, ⟨8, 8, .ro, 0x0⟩, ⟨16, 8, .ro, 0x0⟩, ⟨24, 8, .ro, 0x0⟩]⟩,
  ⟨"VLT_THROTTLE", 0x10, 1, 0x8, .both, [⟨0, 3, .ro, 0x0⟩, ⟨8, 8, .ro, 0x0⟩, ⟨16, 8, .ro, 0x0⟩, ⟨31, 1, .w1c, 0x0⟩]⟩,
  ⟨"VLT_ERR_CHn", 0x18, 4, 0x8, .both, [⟨0, 16, .ro, 0x0⟩, ⟨16, 8, .ro, 0x0⟩, ⟨31, 1, .w1c, 0x0⟩]⟩,
  ⟨"VLT_REPAIR_CHn", 0x38, 4, 0x8, .both, [⟨0, 9, .ro, 0x0⟩, ⟨9, 2, .ro, 0x0⟩, ⟨11, 1, .ro, 0x0⟩, ⟨12, 1, .ro, 0x0⟩]⟩,
  ⟨"SPARE_USE_LO", 0x58, 1, 0x8, .both, [⟨0, 11, .ro, 0x0⟩, ⟨11, 11, .ro, 0x0⟩]⟩,
  ⟨"SPARE_USE_HI", 0x60, 1, 0x8, .both, [⟨0, 11, .ro, 0x0⟩, ⟨11, 11, .ro, 0x0⟩]⟩,
  ⟨"VLT_ERR_ADDR", 0x68, 1, 0x8, .both, [⟨0, 24, .ro, 0x0⟩, ⟨24, 2, .ro, 0x0⟩, ⟨26, 1, .ro, 0x0⟩, ⟨31, 1, .w1c, 0x0⟩]⟩,
  ⟨"TS_ERR", 0x70, 1, 0x8, .both, [⟨0, 16, .ro, 0x0⟩, ⟨16, 8, .ro, 0x0⟩, ⟨31, 1, .w1c, 0x0⟩]⟩,
  ⟨"TS_ERR_ADDR", 0x78, 1, 0x8, .both, [⟨0, 18, .ro, 0x0⟩, ⟨31, 1, .w1c, 0x0⟩]⟩,
  ⟨"MEM_SCRUB", 0x80, 1, 0x8, .both, [⟨0, 16, .ro, 0x0⟩, ⟨16, 16, .ro, 0x0⟩]⟩,
  ⟨"VLT_SLOT_SEL", 0x100, 1, 0x8, .both, [⟨0, 12, .rw, 0x0⟩]⟩,
  ⟨"VLT_SLOT_DATA", 0x108, 1, 0x8, .runtime, [⟨0, 10, .g, 0x0⟩, ⟨10, 2, .g, 0x0⟩, ⟨12, 3, .g, 0x0⟩, ⟨15, 1, .g, 0x0⟩, ⟨16, 1, .ro, 0x0⟩]⟩,
  ⟨"TG_STATUS", 0xC00, 1, 0x8, .both, [⟨0, 16, .ro, 0x0⟩, ⟨16, 16, .ro, 0x0⟩]⟩,
  ⟨"TG_FAULT", 0xC08, 1, 0x8, .both, [⟨0, 8, .ro, 0x0⟩, ⟨8, 4, .ro, 0x0⟩, ⟨12, 16, .ro, 0x0⟩, ⟨31, 1, .w1c, 0x0⟩]⟩,
  ⟨"TG_FAULT_PC", 0xC10, 1, 0x8, .both, [⟨0, 13, .ro, 0x0⟩]⟩,
  ⟨"TG_FAULT_LANES", 0xC18, 1, 0x8, .both, [⟨0, 32, .ro, 0x0⟩]⟩,
  ⟨"TG_FAULT_ADDR_LO", 0xC20, 1, 0x8, .both, [⟨0, 32, .ro, 0x0⟩]⟩,
  ⟨"TG_FAULT_ADDR_HI", 0xC28, 1, 0x8, .both, [⟨0, 32, .ro, 0x0⟩]⟩,
  ⟨"MX_STATE", 0xD00, 1, 0x8, .both, [⟨0, 3, .ro, 0x0⟩, ⟨3, 3, .ro, 0x0⟩, ⟨6, 3, .ro, 0x0⟩, ⟨9, 3, .ro, 0x0⟩, ⟨12, 4, .ro, 0x0⟩, ⟨16, 4, .ro, 0x0⟩]⟩,
  ⟨"MX_GATE", 0xD08, 1, 0x8, .both, [⟨0, 6, .ro, 0x0⟩, ⟨6, 6, .ro, 0x0⟩, ⟨12, 6, .ro, 0x0⟩, ⟨18, 6, .ro, 0x0⟩]⟩,
  ⟨"MX_DONE", 0xD10, 1, 0x8, .both, [⟨0, 32, .ro, 0x0⟩]⟩,
  ⟨"RND_SEED_LO", 0xE00, 1, 0x8, .both, [⟨0, 32, .s, 0x0⟩]⟩,
  ⟨"RND_SEED_HI", 0xE08, 1, 0x8, .both, [⟨0, 32, .s, 0x0⟩]⟩,
  ⟨"RND_EPOCH", 0xE10, 1, 0x8, .both, [⟨0, 20, .s, 0x0⟩]⟩]

/-- Registers of a DMA channel (R365). -/
def dmaRows : List Row := [
  ⟨"DMA_SRC_LO", 0x0, 1, 0x8, .runtime, [⟨0, 32, .rw, 0x0⟩]⟩,
  ⟨"DMA_SRC_HI", 0x8, 1, 0x8, .runtime, [⟨0, 32, .rw, 0x0⟩]⟩,
  ⟨"DMA_DST_LO", 0x10, 1, 0x8, .runtime, [⟨0, 32, .rw, 0x0⟩]⟩,
  ⟨"DMA_DST_HI", 0x18, 1, 0x8, .runtime, [⟨0, 32, .rw, 0x0⟩]⟩,
  ⟨"DMA_COUNT", 0x20, 1, 0x8, .runtime, [⟨0, 24, .rw, 0x0⟩]⟩,
  ⟨"DMA_LCOUNT", 0x28, 1, 0x8, .runtime, [⟨0, 16, .rw, 0x1⟩, ⟨16, 16, .rw, 0x1⟩]⟩,
  ⟨"DMA_L3", 0x30, 1, 0x8, .runtime, [⟨0, 16, .rw, 0x1⟩]⟩,
  ⟨"DMA_SSTEPn", 0x38, 3, 0x10, .runtime, [⟨0, 32, .rw, 0x0⟩]⟩,
  ⟨"DMA_DSTEPn", 0x40, 3, 0x10, .runtime, [⟨0, 32, .rw, 0x0⟩]⟩,
  ⟨"DMA_DIR_LO", 0x68, 1, 0x8, .runtime, [⟨0, 32, .rw, 0x0⟩]⟩,
  ⟨"DMA_DIR_HI", 0x70, 1, 0x8, .runtime, [⟨0, 12, .rw, 0x0⟩]⟩,
  ⟨"DMA_CTRL", 0x78, 1, 0x8, .runtime, [⟨0, 1, .rw, 0x0⟩, ⟨1, 1, .rw, 0x0⟩, ⟨2, 3, .rw, 0x0⟩, ⟨5, 3, .rw, 0x0⟩, ⟨8, 2, .rw, 0x0⟩, ⟨10, 2, .rw, 0x0⟩, ⟨12, 1, .rw, 0x0⟩, ⟨13, 8, .rw, 0x0⟩, ⟨31, 1, .wo, 0x0⟩]⟩,
  ⟨"DMA_STATUS", 0x80, 1, 0x8, .runtime, [⟨0, 1, .ro, 0x0⟩, ⟨1, 8, .ro, 0x0⟩]⟩,
  ⟨"DMA_DONE", 0x88, 1, 0x8, .runtime, [⟨0, 32, .ro, 0x0⟩]⟩]

/-- The blocks of R392, with the DMA channels of R365 as blocks of their own. -/
inductive Blk where
  | mc | pwr | sec | evr | hst | fab | sc | chk
  | link (k : Nat)
  | field (f : Nat)
  | fdma (f c : Nat)
  | hdma (h : Nat)
  | tile (f site : Nat)
  deriving DecidableEq, Repr

/-- The registers of a block. -/
def Blk.rows : Blk → List Row
  | .mc => mcRows | .pwr => pwrRows | .sec => secRows | .evr => evrRows | .hst => hstRows | .fab => fabRows
  | .sc => scRows | .chk => chkRows | .link _ => linkRows | .field _ => [] | .fdma _ _ => dmaRows
  | .hdma _ => dmaRows | .tile _ _ => tileRows

/-- The offset of a block (R13, R392, R365). -/
def Blk.base : Blk → Nat
  | .mc => 0x00000 | .pwr => 0x10000 | .sec => 0x20000 | .evr => 0x30000 | .hst => 0x40000 | .fab => 0x50000
  | .sc => 0x60000 | .chk => 0x70000
  | .link k => 0x80000 + k * 0x1000
  | .field f => 0x1000000 + f * 0x100000
  | .fdma f c => 0x1000000 + f * 0x100000 + 0x100 + c * 0x100
  | .hdma h => 0x48000 + h * 0x100
  | .tile f site => 0x1000000 + f * 0x100000 + 0x1000 + site * 0x1000

/-- The block that holds an offset of the block regions, with the offset in it (R392). -/
def blkOf (o : Nat) : Option (Blk × Nat) :=
  if o < 0x80000 then
    let l := o % 0x10000
    match o / 0x10000 with
    | 0 => some (.mc, l) | 1 => some (.pwr, l) | 2 => some (.sec, l) | 3 => some (.evr, l)
    | 4 => if 0x8000 ≤ l && l < 0x9000 then some (.hdma ((l - 0x8000) / 0x100), l % 0x100) else some (.hst, l)
    | 5 => some (.fab, l) | 6 => some (.sc, l) | _ => some (.chk, l)
  else if o < 0xC0000 then some (.link ((o - 0x80000) / 0x1000), o % 0x1000)
  else if 0x1000000 ≤ o && o < 0x5000000 then
    let f := (o - 0x1000000) / 0x100000
    let l := o % 0x100000
    if 0x100 ≤ l && l < 0x900 then some (.fdma f (l / 0x100 - 1), l % 0x100)
    else if 0x1000 ≤ l && l < 0xC5000 then some (.tile f (l / 0x1000 - 1), l % 0x1000)
    else some (.field f, l)
  else none

/-- The row and the index n of the register at an offset of a block. -/
def rowOf : List Row → Nat → Option (Row × Nat)
  | [], _ => none
  | r :: rs, l =>
    if r.base ≤ l && (l - r.base) % r.step == 0 && decide ((l - r.base) / r.step < r.count) then
      some (r, (l - r.base) / r.step)
    else rowOf rs l

/-- The row of the register at an absolute offset. -/
def regRow (o : Nat) : Option Row :=
  match blkOf o with
  | some (b, l) => (rowOf b.rows l).map (·.1)
  | none => none

/-- The mask of the bits of one access code. -/
def Row.mask (r : Row) (a : Acc7) : Word :=
  r.fields.foldl (fun m f => if f.acc = a then m ||| BitVec.ofNat 32 ((2 ^ f.w - 1) <<< f.lo) else m) 0

/-- The Reset column of a register as one word. -/
def Row.reset (r : Row) : Word :=
  r.fields.foldl (fun m f => m ||| BitVec.ofNat 32 (f.reset <<< f.lo)) 0

/-- The value an offset reads after reset: the Reset column, zero where no register is (R393). -/
def resetOf (o : Nat) : Word :=
  match regRow o with
  | some r => r.reset
  | none => 0

/-- The register holds a field of access G (R404). -/
def Row.guarded (r : Row) : Bool := r.fields.any (fun f => f.acc = .g)

/-! ### Offsets by register name -/

/-- `CHK_STATUS` (R52). -/
def oChkStatus : Nat := 0x70000

/-- `CHK_WHERE` (R52). -/
def oChkWhere : Nat := 0x70008

/-- `CHK_OTHER` (R52). -/
def oChkOther : Nat := 0x70010

/-- `CHK_COUNTS` (R52). -/
def oChkCounts : Nat := 0x70018

/-- `CHK_STALL` (R52). -/
def oChkStall : Nat := 0x70020

/-- `SITE_STATUS` (R266). -/
def oSiteStatus (f : Nat) (site : Nat) : Nat := 0x1001000 + f * 0x100000 + site * 0x1000 + 0x0

/-- `VLT_TEMP` (R266). -/
def oVltTemp (f : Nat) (site : Nat) : Nat := 0x1001000 + f * 0x100000 + site * 0x1000 + 0x8

/-- `VLT_THROTTLE` (R266). -/
def oVltThrottle (f : Nat) (site : Nat) : Nat := 0x1001000 + f * 0x100000 + site * 0x1000 + 0x10

/-- `VLT_ERR_CHn` (R266). -/
def oVltErrCh (f : Nat) (site : Nat) (n : Nat) : Nat := 0x1001000 + f * 0x100000 + site * 0x1000 + 0x18 + n * 0x8

/-- `VLT_REPAIR_CHn` (R266). -/
def oVltRepairCh (f : Nat) (site : Nat) (n : Nat) : Nat := 0x1001000 + f * 0x100000 + site * 0x1000 + 0x38 + n * 0x8

/-- `SPARE_USE_LO` (R266). -/
def oSpareUseLo (f : Nat) (site : Nat) : Nat := 0x1001000 + f * 0x100000 + site * 0x1000 + 0x58

/-- `SPARE_USE_HI` (R266). -/
def oSpareUseHi (f : Nat) (site : Nat) : Nat := 0x1001000 + f * 0x100000 + site * 0x1000 + 0x60

/-- `VLT_ERR_ADDR` (R266). -/
def oVltErrAddr (f : Nat) (site : Nat) : Nat := 0x1001000 + f * 0x100000 + site * 0x1000 + 0x68

/-- `TS_ERR` (R266). -/
def oTsErr (f : Nat) (site : Nat) : Nat := 0x1001000 + f * 0x100000 + site * 0x1000 + 0x70

/-- `TS_ERR_ADDR` (R266). -/
def oTsErrAddr (f : Nat) (site : Nat) : Nat := 0x1001000 + f * 0x100000 + site * 0x1000 + 0x78

/-- `MEM_SCRUB` (R266). -/
def oMemScrub (f : Nat) (site : Nat) : Nat := 0x1001000 + f * 0x100000 + site * 0x1000 + 0x80

/-- `VLT_SLOT_SEL` (R267). -/
def oVltSlotSel (f : Nat) (site : Nat) : Nat := 0x1001000 + f * 0x100000 + site * 0x1000 + 0x100

/-- `VLT_SLOT_DATA` (R267). -/
def oVltSlotData (f : Nat) (site : Nat) : Nat := 0x1001000 + f * 0x100000 + site * 0x1000 + 0x108

/-- `TG_STATUS` (R137). -/
def oTgStatus (f : Nat) (site : Nat) : Nat := 0x1001000 + f * 0x100000 + site * 0x1000 + 0xC00

/-- `TG_FAULT` (R137). -/
def oTgFault (f : Nat) (site : Nat) : Nat := 0x1001000 + f * 0x100000 + site * 0x1000 + 0xC08

/-- `TG_FAULT_PC` (R137). -/
def oTgFaultPc (f : Nat) (site : Nat) : Nat := 0x1001000 + f * 0x100000 + site * 0x1000 + 0xC10

/-- `TG_FAULT_LANES` (R137). -/
def oTgFaultLanes (f : Nat) (site : Nat) : Nat := 0x1001000 + f * 0x100000 + site * 0x1000 + 0xC18

/-- `TG_FAULT_ADDR_LO` (R137). -/
def oTgFaultAddrLo (f : Nat) (site : Nat) : Nat := 0x1001000 + f * 0x100000 + site * 0x1000 + 0xC20

/-- `TG_FAULT_ADDR_HI` (R137). -/
def oTgFaultAddrHi (f : Nat) (site : Nat) : Nat := 0x1001000 + f * 0x100000 + site * 0x1000 + 0xC28

/-- `MX_STATE` (R175). -/
def oMxState (f : Nat) (site : Nat) : Nat := 0x1001000 + f * 0x100000 + site * 0x1000 + 0xD00

/-- `MX_GATE` (R175). -/
def oMxGate (f : Nat) (site : Nat) : Nat := 0x1001000 + f * 0x100000 + site * 0x1000 + 0xD08

/-- `MX_DONE` (R175). -/
def oMxDone (f : Nat) (site : Nat) : Nat := 0x1001000 + f * 0x100000 + site * 0x1000 + 0xD10

/-- `RND_SEED_LO` (R85). -/
def oRndSeedLo (f : Nat) (site : Nat) : Nat := 0x1001000 + f * 0x100000 + site * 0x1000 + 0xE00

/-- `RND_SEED_HI` (R85). -/
def oRndSeedHi (f : Nat) (site : Nat) : Nat := 0x1001000 + f * 0x100000 + site * 0x1000 + 0xE08

/-- `RND_EPOCH` (R85). -/
def oRndEpoch (f : Nat) (site : Nat) : Nat := 0x1001000 + f * 0x100000 + site * 0x1000 + 0xE10

/-- `UPDATE` (R408). -/
def oUpdate : Nat := 0x0

/-- `UPD_PENDING` (R408). -/
def oUpdPending : Nat := 0x8

/-- `UPD_CENTRAL` (R408). -/
def oUpdCentral : Nat := 0x40

/-- `UPD_LINK_n` (R408). -/
def oUpdLink (n : Nat) : Nat := 0x80 + n * 0x8

/-- `UPD_FIELD_n` (R408). -/
def oUpdField (n : Nat) : Nat := 0xC0 + n * 0x8

/-- `MC_ID` (R408). -/
def oMcId : Nat := 0x100

/-- `MC_STATE` (R408). -/
def oMcState : Nat := 0x108

/-- `MC_GUARD` (R408). -/
def oMcGuard : Nat := 0x110

/-- `MC_GUARD_ADDR` (R408). -/
def oMcGuardAddr : Nat := 0x118

/-- `MC_WHOAMI` (R408). -/
def oMcWhoami : Nat := 0x120

/-- `MC_SCRATCH` (R408). -/
def oMcScratch : Nat := 0x128

/-- `SU_STATUS` (R423). -/
def oSuStatus : Nat := 0x200

/-- `SU_RECORD_n` (R423). -/
def oSuRecord (n : Nat) : Nat := 0x208 + n * 0x8

/-- `STEP_PHASE` (R233). -/
def oStepPhase (n : Nat) : Nat := 0x2000 + n * 0x100

/-- `STEP_INDEX` (R233). -/
def oStepIndex (n : Nat) : Nat := 0x2008 + n * 0x100

/-- `STEP_COMMITTED` (R233). -/
def oStepCommitted (n : Nat) : Nat := 0x2010 + n * 0x100

/-- `STEP_FENCE_HITS` (R233). -/
def oStepFenceHits (n : Nat) : Nat := 0x2018 + n * 0x100

/-- `STEP_CLIP` (R233). -/
def oStepClip (n : Nat) : Nat := 0x2020 + n * 0x100

/-- `RCH_STATUS` (R345). -/
def oRchStatus (n : Nat) : Nat := 0x3000 + n * 0x10

/-- `RCH_COUNT` (R345). -/
def oRchCount (n : Nat) : Nat := 0x3008 + n * 0x10

/-- `SC_STATUS` (R289). -/
def oScStatus (n : Nat) : Nat := 0x60000 + n * 0x4000

/-- `SC_THRASH_CFG` (R289). -/
def oScThrashCfg (n : Nat) : Nat := 0x60008 + n * 0x4000

/-- `SC_ACCESSES` (R289). -/
def oScAccesses (n : Nat) : Nat := 0x60010 + n * 0x4000

/-- `SC_MISSES` (R289). -/
def oScMisses (n : Nat) : Nat := 0x60018 + n * 0x4000

/-- `SC_RETIRE` (R289). -/
def oScRetire (n : Nat) : Nat := 0x60020 + n * 0x4000

/-- `SC_ERR` (R289). -/
def oScErr (n : Nat) : Nat := 0x60028 + n * 0x4000

/-- `SC_PIN_QUOTA_LO` (R289). -/
def oScPinQuotaLo (n : Nat) : Nat := 0x60030 + n * 0x4000

/-- `SC_PIN_QUOTA_HI` (R289). -/
def oScPinQuotaHi (n : Nat) : Nat := 0x60038 + n * 0x4000

/-- `SC_PIN_SEL` (R289). -/
def oScPinSel (n : Nat) : Nat := 0x60040 + n * 0x4000

/-- `SC_PIN_BASE` (R289). -/
def oScPinBase (n : Nat) : Nat := 0x60048 + n * 0x4000

/-- `SC_PIN_CTRL` (R289). -/
def oScPinCtrl (n : Nat) : Nat := 0x60050 + n * 0x4000

/-- `SC_PIN_STATE` (R289). -/
def oScPinState (n : Nat) : Nat := 0x60058 + n * 0x4000

/-- `SC_OP_BASE` (R289). -/
def oScOpBase (n : Nat) : Nat := 0x60060 + n * 0x4000

/-- `SC_OP_CTRL` (R289). -/
def oScOpCtrl (n : Nat) : Nat := 0x60068 + n * 0x4000

/-- `FAB_STATUS` (R312). -/
def oFabStatus : Nat := 0x50000

/-- `FAB_KEEPER` (R312). -/
def oFabKeeper : Nat := 0x50008

/-- `FAB_LIVE_CFG` (R312). -/
def oFabLiveCfg : Nat := 0x50010

/-- `FAB_TEARDOWN` (R312). -/
def oFabTeardown : Nat := 0x50018

/-- `ROUTE_SEL` (R312). -/
def oRouteSel : Nat := 0x50040

/-- `ROUTE_DATA` (R312). -/
def oRouteData : Nat := 0x50048

/-- `LINK_REMAP_g` (R312). -/
def oLinkRemap (n : Nat) : Nat := 0x50080 + n * 0x8

/-- `RGN_SEL` (R312). -/
def oRgnSel : Nat := 0x50100

/-- `RGN_DATA0` (R312). -/
def oRgnData0 : Nat := 0x50108

/-- `RGN_DATA1` (R312). -/
def oRgnData1 : Nat := 0x50110

/-- `RGN_DATA2` (R312). -/
def oRgnData2 : Nat := 0x50118

/-- `RGN_DATA3` (R312). -/
def oRgnData3 : Nat := 0x50120

/-- `RGN_FLIP` (R312). -/
def oRgnFlip : Nat := 0x50128

/-- `KMAP_SEL` (R312). -/
def oKmapSel : Nat := 0x50200

/-- `KMAP_DATA0` (R312). -/
def oKmapData0 : Nat := 0x50208

/-- `KMAP_DATA1` (R312). -/
def oKmapData1 : Nat := 0x50210

/-- `KMAP_DATA2` (R312). -/
def oKmapData2 : Nat := 0x50218

/-- `FAB_ERR` (R312). -/
def oFabErr : Nat := 0x50300

/-- `LINK_STATUS` (R346). -/
def oLinkStatus (k : Nat) : Nat := 0x80000 + k * 0x1000 + 0x0

/-- `LINK_PEER` (R346). -/
def oLinkPeer (k : Nat) : Nat := 0x80000 + k * 0x1000 + 0x8

/-- `LINK_EXPECT` (R346). -/
def oLinkExpect (k : Nat) : Nat := 0x80000 + k * 0x1000 + 0x10

/-- `LINK_CTRL` (R346). -/
def oLinkCtrl (k : Nat) : Nat := 0x80000 + k * 0x1000 + 0x18

/-- `LINK_FEC_SYM` (R346). -/
def oLinkFecSym (k : Nat) : Nat := 0x80000 + k * 0x1000 + 0x20

/-- `LINK_FEC_CW` (R346). -/
def oLinkFecCw (k : Nat) : Nat := 0x80000 + k * 0x1000 + 0x28

/-- `LINK_REPLAY` (R346). -/
def oLinkReplay (k : Nat) : Nat := 0x80000 + k * 0x1000 + 0x30

/-- `LINK_LIMITS` (R346). -/
def oLinkLimits (k : Nat) : Nat := 0x80000 + k * 0x1000 + 0x38

/-- `LINK_ROTA` (R346). -/
def oLinkRota (k : Nat) : Nat := 0x80000 + k * 0x1000 + 0x40

/-- `LINK_ADD` (R346). -/
def oLinkAdd (k : Nat) : Nat := 0x80000 + k * 0x1000 + 0x48

/-- `RING_CMD_LO` (R390). -/
def oRingCmdLo (n : Nat) : Nat := 0x40000 + n * 0x100

/-- `RING_CMD_HI` (R390). -/
def oRingCmdHi (n : Nat) : Nat := 0x40008 + n * 0x100

/-- `RING_CPL_LO` (R390). -/
def oRingCplLo (n : Nat) : Nat := 0x40010 + n * 0x100

/-- `RING_CPL_HI` (R390). -/
def oRingCplHi (n : Nat) : Nat := 0x40018 + n * 0x100

/-- `RING_DB_LO` (R390). -/
def oRingDbLo (n : Nat) : Nat := 0x40020 + n * 0x100

/-- `RING_DB_HI` (R390). -/
def oRingDbHi (n : Nat) : Nat := 0x40028 + n * 0x100

/-- `RING_SIZE` (R390). -/
def oRingSize (n : Nat) : Nat := 0x40030 + n * 0x100

/-- `RING_CTRL` (R390). -/
def oRingCtrl (n : Nat) : Nat := 0x40038 + n * 0x100

/-- `RING_STATUS` (R390). -/
def oRingStatus (n : Nat) : Nat := 0x40040 + n * 0x100

/-- `RING_CMD_CONS` (R390). -/
def oRingCmdCons (n : Nat) : Nat := 0x40048 + n * 0x100

/-- `RING_CPL_PROD` (R390). -/
def oRingCplProd (n : Nat) : Nat := 0x40050 + n * 0x100

/-- `PART_STATUS` (R391). -/
def oPartStatus (n : Nat) : Nat := 0x42000 + n * 0x10

/-- `PART_JOB` (R391). -/
def oPartJob (n : Nat) : Nat := 0x42008 + n * 0x10

/-- `HOST_DMA_RING_n` (R366). -/
def oHostDmaRing (n : Nat) : Nat := 0x49000 + n * 0x8

/-- `HOST_DMA_LIST_LO` (R366). -/
def oHostDmaListLo : Nat := 0x49020

/-- `HOST_DMA_LIST_HI` (R366). -/
def oHostDmaListHi : Nat := 0x49028

/-- `PWR_STATE` (R444). -/
def oPwrState : Nat := 0x10000

/-- `PWR_INPUT` (R444). -/
def oPwrInput : Nat := 0x10008

/-- `PWR_POWER` (R444). -/
def oPwrPower : Nat := 0x10010

/-- `PWR_CAP` (R444). -/
def oPwrCap : Nat := 0x10018

/-- `PWR_PFW_CFG` (R444). -/
def oPwrPfwCfg : Nat := 0x10020

/-- `PWR_CTRL` (R444). -/
def oPwrCtrl : Nat := 0x10028

/-- `PWR_HOLD_LO` (R444). -/
def oPwrHoldLo : Nat := 0x10030

/-- `PWR_HOLD_HI` (R444). -/
def oPwrHoldHi : Nat := 0x10038

/-- `PWR_EVENTS` (R444). -/
def oPwrEvents : Nat := 0x10040

/-- `PWR_TEMP` (R444). -/
def oPwrTemp : Nat := 0x10048

/-- `PWR_PEER_BASE` (R444). -/
def oPwrPeerBase : Nat := 0x10050

/-- `PWR_PEER_LEN` (R444). -/
def oPwrPeerLen : Nat := 0x10058

/-- `PWR_CKPT` (R444). -/
def oPwrCkpt : Nat := 0x10060

/-- `SEC_STATUS` (R466). -/
def oSecStatus : Nat := 0x20000

/-- `SEC_FW` (R466). -/
def oSecFw : Nat := 0x20008

/-- `SEC_REVOCATION` (R466). -/
def oSecRevocation : Nat := 0x20010

/-- `SEC_SIGN_NEXT` (R466). -/
def oSecSignNext : Nat := 0x20018

/-- `SEC_SIGN_END` (R466). -/
def oSecSignEnd : Nat := 0x20020

/-- `SEC_BOOTS` (R466). -/
def oSecBoots : Nat := 0x20028

/-- `SEC_ID_HASH_n` (R466). -/
def oSecIdHash (n : Nat) : Nat := 0x20040 + n * 0x8

/-- `SEC_FW_HASH_n` (R466). -/
def oSecFwHash (n : Nat) : Nat := 0x20080 + n * 0x8

/-- `EVR_STATUS` (R485). -/
def oEvrStatus : Nat := 0x30000

/-- `EVR_FIRST` (R485). -/
def oEvrFirst : Nat := 0x30008

/-- `EVR_NEXT` (R485). -/
def oEvrNext : Nat := 0x30010

/-- `EVR_LOST` (R485). -/
def oEvrLost : Nat := 0x30018

/-- `EVR_SKIPPED` (R485). -/
def oEvrSkipped : Nat := 0x30020

/-- `EVR_EPOCH` (R485). -/
def oEvrEpoch : Nat := 0x30028

/-- `EVR_RELEASE` (R485). -/
def oEvrRelease : Nat := 0x30030

/-- `EVR_SEL` (R485). -/
def oEvrSel : Nat := 0x30038

/-- `EVR_DATA_n` (R485). -/
def oEvrData (n : Nat) : Nat := 0x30040 + n * 0x8

/-- `EVR_CLASS_SEL` (R485). -/
def oEvrClassSel : Nat := 0x30100

/-- `EVR_CLASS_COUNT` (R485). -/
def oEvrClassCount : Nat := 0x30108

/-- `EVR_CLASS_CFG` (R485). -/
def oEvrClassCfg : Nat := 0x30110

/-- `EVR_SNAP_n` (R485). -/
def oEvrSnap (n : Nat) : Nat := 0x30140 + n * 0x8

/-- `RGN_POISON_n` (R485). -/
def oRgnPoison (n : Nat) : Nat := 0x30400 + n * 0x8

/-- `REP_SEL` (R485). -/
def oRepSel : Nat := 0x30800

/-- `REP_DATA0` (R485). -/
def oRepData0 : Nat := 0x30808

/-- `REP_DATA1` (R485). -/
def oRepData1 : Nat := 0x30810

/-- `REP_DATA2` (R485). -/
def oRepData2 : Nat := 0x30818

/-- `REP_COMMIT` (R485). -/
def oRepCommit : Nat := 0x30820

end Sys2Proof.Machine
end

