-- ==== Sys2Proof/Machine/Ops.lean ====
section
/-! DEFINITION. Named operations on the state: free values, module memory and its codewords, sites, registers, partitions, the register values that blocks compute, and raising a report. -/

namespace Sys2Proof.Machine

/-- What a meaning answers. -/
abbrev Out := Host.Outcome State Fault Refusal

/-! ### Free values (DESIGN CHOICE, log 10) -/

/-- Free 32-bit value k of the command under way. -/
def State.free (s : State) (k : Nat) : Word := Config.freeWord s.tick k

/-- The state after a command that takes free values. -/
def State.tock (s : State) : State := { s with tick := s.tick + 1 }

/-! ### Module memory (R25 to R28) -/

/-- Nibbles of vault DRAM: offsets below this (R27). -/
def vaultEnd : Nat := 0xC0000000000

/-- First nibble of the tile stores, nibbles of one, and the first nibble behind them (R27). -/
def tsBase : Nat := 0xE0000000000
def tsSize : Nat := 0x600000
def tsEnd : Nat := 0xE1200000000

/-- The keeper area (R307). -/
def keeperBase : Nat := 0xBFFFF000000
def keeperEnd : Nat := 0xC0000000000

/-- Size of the units of regions: 16 Mn (R298). -/
def unit16 : Nat := 0x1000000

/-- n nibbles at offset a lie in a populated range (R27, R28). -/
def populated (a n : Nat) : Bool := decide (a + n ≤ vaultEnd) || (decide (tsBase ≤ a) && decide (a + n ≤ tsEnd))

/-- One nibble of module memory: bits [3:0] of a byte at the even offset (R3, R4). Unlisted bytes read zero (DESIGN CHOICE, log 3). -/
def getNib (m : List Host.Cell) (a : Nat) : Nib :=
  let b := tget (0 : Byte) m (a / 2)
  if a % 2 = 0 then b.truncate 4 else (b >>> 4).truncate 4

/-- One nibble written. -/
def setNib (m : List Host.Cell) (a : Nat) (v : Nib) : List Host.Cell :=
  let b := tget (0 : Byte) m (a / 2)
  let b' : Byte := if a % 2 = 0 then (b &&& 0xF0#8) ||| v.zeroExtend 8 else (b &&& 0x0F#8) ||| (v.zeroExtend 8 <<< 4)
  tset (0 : Byte) m (a / 2) b'

/-- n nibbles from offset a upward. -/
def getNibs (m : List Host.Cell) (a : Nat) : Nat → List Nib
  | 0 => []
  | n + 1 => getNib m a :: getNibs m (a + 1) n

/-- A list of nibbles written from offset a upward. -/
def setNibs (m : List Host.Cell) (a : Nat) : List Nib → List Host.Cell
  | [] => m
  | x :: r => setNibs (setNib m a x) (a + 1) r

/-- The memory is in canonical form: offsets rising, no entry equal to what an unlisted byte reads as. -/
def Memory.wf (m : List Host.Cell) : Bool := twf (0 : Byte) m

/-- The value of n nibbles at offset a. -/
def State.load (s : State) (a n : Nat) : Nat := ofNibs (getNibs s.mem a n)

/-- The state with nibbles written at offset a. Poison marks stay. -/
def State.store (s : State) (a : Nat) (l : List Nib) : State := { s with mem := setNibs s.mem a l }

/-- The codewords that n nibbles at offset a touch (R242). -/
def cwsOf (a n : Nat) : List Nat := if n = 0 then [] else (List.range ((a + n - 1) / 32 - a / 32 + 1)).map (· + a / 32)

/-- Codeword c is covered whole by n nibbles at offset a. -/
def coversCw (a n c : Nat) : Bool := decide (a ≤ 32 * c) && decide (32 * c + 32 ≤ a + n)

/-- Codeword c is poisoned. -/
def State.poisoned (s : State) (c : Nat) : Bool := s.poison.contains c

/-- Any of the codewords of n nibbles at offset a is poisoned. -/
def State.anyPoison (s : State) (a n : Nat) : Bool := (cwsOf a n).any s.poisoned

/-- Poison marks set or cleared. -/
def State.putPoison (s : State) (c : Nat) (b : Bool) : State := { s with poison := sput s.poison c b }

/-- A store of correct data: the nibbles are written, and the poison of codewords written whole clears (R244, R256). -/
def State.storeClean (s : State) (a : Nat) (l : List Nib) : State :=
  let s1 := s.store a l
  { s1 with poison := s1.poison.filter (fun c => !coversCw a l.length c) }

/-- A store that poisons every codeword it touches (R359, R469). -/
def State.storePoison (s : State) (a : Nat) (l : List Nib) : State :=
  (cwsOf a l.length).foldl (fun t c => t.putPoison c true) (s.store a l)

/-! ### Fields, sites and tiles (R10 to R14) -/

/-- The number of field sites (R12). -/
def sites : Nat := 196

/-- The unused sites of a field in ascending order: the corners until start-up builds the map (DESIGN CHOICE, log 5). -/
def State.unusedOf (s : State) (f : Nat) : List Nat := tget [0, 13, 182, 195] s.unused f

/-- The site holds no logical tile (R12). -/
def State.isUnused (s : State) (f site : Nat) : Bool := (s.unusedOf f).contains site

/-- The used sites of a field in ascending order (R13). -/
def State.usedSites (s : State) (f : Nat) : List Nat := (List.range sites).filter (fun x => !s.isUnused f x)

/-- The site of logical tile l of field f (R13). -/
def State.siteOf (s : State) (f l : Nat) : Nat := nth 0 (s.usedSites f) l

/-- The site of a global tile index. -/
def State.tileSite (s : State) (t : Nat) : Nat := s.siteOf (t / 192) (t % 192)

/-- The global tile index of a site, if it holds a logical tile. -/
def State.tileAt (s : State) (f site : Nat) : Option Nat :=
  (indexOf (fun x => x == site) (s.usedSites f)).map (fun l => 192 * f + l)

/-- The field quad of a field (R11). -/
def quadOf (f : Nat) : Nat := 4 * ((f / 8) / 2) + (f % 8) / 2

/-- The first nibble of a tile store (R27). -/
def storeBase (t : Nat) : Nat := tsBase + t * tsSize

/-- The global tile whose window or tile store holds an offset (R27, R236). -/
def tileOfOff (o : Nat) : Nat := if o < vaultEnd then o / 0x40000000 else (o - tsBase) / tsSize

/-! ### Where the channel hash puts an offset (R236 to R239) -/

/-- The default slot-table entry (R238). -/
def slotDefault (n : Nat) : SlotEntry := { target := 0, tier := n % 4, frame := n / 4 }

/-- The slot of a vault-relative offset: g[11:0] XOR (g[18:12] × 32) (R237). -/
def slotOf (v : Nat) : Nat := let g := v / 2048; (g % 4096) ^^^ ((g / 4096) * 32)

/-- The entry of slot n of the vault of (field, site). -/
def State.slotEntry (s : State) (f site n : Nat) : SlotEntry :=
  (tfind s.slots ((f * sites + site) * 4096 + n)).getD (slotDefault n)

/-- The state with a slot entry written. -/
def State.putSlot (s : State) (f site n : Nat) (e : SlotEntry) : State :=
  let k := (f * sites + site) * 4096 + n
  { s with slots := if e = slotDefault n then tdel s.slots k else tput s.slots k e }

/-- Where a vault offset lies: field, home site, target site, channel, bank, row, sector, and slot (R237 to R240). -/
structure VaultLoc where
  field : Nat
  home : Nat
  site : Nat
  ch : Nat
  bank : Nat
  row : Nat
  sector : Nat
  slot : Nat
  deriving DecidableEq, Repr

/-- The place of a vault offset. -/
def State.vaultLoc (s : State) (o : Nat) : VaultLoc :=
  let t := o / 0x40000000
  let v := o % 0x40000000
  let f := t / 192
  let home := s.tileSite t
  let n := slotOf v
  let e := s.slotEntry f home n
  let j := v / 2048 / 4096
  let site := if e.target = 0 then home else nth home (s.unusedOf f) (e.target - 1)
  { field := f, home := home, site := site, ch := e.tier, bank := (j % 32) ^^^ (e.frame % 32),
    row := e.frame / 32 * 128 + j, sector := bits v 6 5, slot := n }

/-! ### Stored registers -/

/-- The stored value of the register at an offset: its reset value where nothing is listed. -/
def State.rd (s : State) (o : Nat) : Word := (tfind s.regs o).getD (resetOf o)

/-- The register table with one offset written. -/
def putReg (m : Tab Word) (o : Nat) (v : Word) : Tab Word := if v = resetOf o then tdel m o else tput m o v

/-- The state with the register at an offset written. -/
def State.wr (s : State) (o : Nat) (v : Word) : State := { s with regs := putReg s.regs o v }

/-- Field [lo + w - 1 : lo] of a stored register. -/
def State.rdF (s : State) (o lo w : Nat) : Nat := fld (s.rd o) lo w

/-- A field of a stored register written. -/
def State.wrF (s : State) (o lo w x : Nat) : State := s.wr o (setFld (s.rd o) lo w x)

/-- A counter field raised by n, stopping at its largest value. -/
def State.bump (s : State) (o lo w n : Nat) : State := s.wrF o lo w (satAdd (s.rdF o lo w) n (2 ^ w - 1))

/-- A counter field raised by n, wrapping to zero. -/
def State.bumpWrap (s : State) (o lo w n : Nat) : State := s.wrF o lo w ((s.rdF o lo w + n) % 2 ^ w)

/-! ### Partitions (R381) -/

/-- A partition that is FREE. -/
def partFree : Part :=
  { ready := false, scrub := false, quads := 0, key := 0, progs := [], limits := { lmax := [], bmax := 0 },
    sched := none, table := none, clip := { mode := 0, tau := [] }, ties := [],
    step := { begun := false, batches := [], noStaged := false, skip := false,
              tieDone := false, fwdRun := false, bwdRun := false },
    copying := none }

/-- Partition p. -/
def State.part (s : State) (p : Nat) : Part := tget partFree s.parts p

/-- Partition p written. -/
def State.putPart (s : State) (p : Nat) (x : Part) : State := { s with parts := tset partFree s.parts p x }

/-- Phase codes (R197). -/
def phIdle : Nat := 0
def phFwd : Nat := 1
def phBwd : Nat := 2
def phReduce : Nat := 3
def phClip : Nat := 4
def phUpdate : Nat := 5
def phCommit : Nat := 6
def phDiscard : Nat := 7
def phHeld : Nat := 8

/-- The phase of partition p (R197). -/
def State.phase (s : State) (p : Nat) : Nat := s.rdF (oStepPhase p) 0 4

/-- The phase written. -/
def State.setPhase (s : State) (p ph : Nat) : State := s.wrF (oStepPhase p) 0 4 ph

/-- A kernel of partition p is live (R94). -/
def State.kernelLive (s : State) (p : Nat) : Bool := s.kernels.any (fun e => e.2.part == p)

/-- `PART_STATUS.STATE`: 0 FREE, 1 SCRUB, 2 READY, 3 RUN (R381). -/
def State.partState (s : State) (p : Nat) : Nat :=
  let x := s.part p
  if x.scrub then 1
  else if !x.ready then 0
  else if s.kernelLive p || !(s.phase p == phIdle || s.phase p == phHeld) then 3 else 2

/-- The partition that holds a field quad, if any. -/
def State.partOfQuad (s : State) (q : Nat) : Option Nat :=
  (s.parts.find? (fun e => (e.2.ready || e.2.scrub) && e.2.quads.getLsbD q)).map (·.1)

/-- The partition that holds a field. -/
def State.partOfField (s : State) (f : Nat) : Option Nat := s.partOfQuad (quadOf f)

/-- The fields of a partition, ascending. -/
def State.partFields (s : State) (p : Nat) : List Nat :=
  (List.range 64).filter (fun f => (s.part p).quads.getLsbD (quadOf f))

/-- The global tiles of a partition, ascending. -/
def State.partTiles (s : State) (p : Nat) : List Nat :=
  (s.partFields p).flatMap (fun f => (List.range 192).map (fun l => 192 * f + l))

/-! ### The module state (R381, R408) -/

/-- Module state codes of `MC_STATE.STATE`. -/
def stStartup : Nat := 0
def stBeacon : Nat := 1
def stDormant : Nat := 2
def stReady : Nat := 3
def stRun : Nat := 4
def stReef : Nat := 5
def stStrike : Nat := 6

/-- The module state: RUN while any partition is in RUN (R381), else as stored. -/
def State.modState (s : State) : Nat :=
  let c := s.rdF oMcState 0 4
  if c = stReady && (List.range 16).any (fun p => s.partState p == 3) then stRun else c

/-- The module is in a state of full service, READY, RUN or REEF: its core logic runs (R380, R429). -/
def State.inService (s : State) : Bool := let c := s.rdF oMcState 0 4; c == stReady || c == stReef

/-- The core logic is powered and runs: in READY, RUN and REEF, and in start-up from order 6 on, where the core supply is raised,
unless a power-fail warning has gated it (R409, R416, R418, R429). -/
def State.corePowered (s : State) : Bool :=
  s.inService ||
  (s.rdF oMcState 0 4 == stStartup && decide (7 ≤ s.rdF oSuStatus 0 4) && !s.power.pfw)

/-- The module state written. -/
def State.setModState (s : State) (c : Nat) : State := s.wrF oMcState 0 4 c

/-! ### Groups and the matrix unit, as their status registers show them -/

/-- A free group slot. -/
def groupFree : Group :=
  { live := false, halted := false, kernel := 0, part := 0, args := 0, index := 0, repack := false, exited := 0,
    tokens := [] }

/-- Group slot n of tile t. -/
def State.group (s : State) (t n : Nat) : Group := tget groupFree s.groups (t * 16 + n)

/-- A group slot written. -/
def State.putGroup (s : State) (t n : Nat) (g : Group) : State :=
  { s with groups := tset groupFree s.groups (t * 16 + n) g }

/-- An empty matrix unit. -/
def mxEmpty : Mx :=
  { issue := [], jobs := [], nextId := 0, gate0 := [], gate1 := [], gate2 := [], gate3 := [], gateArr := [],
    preload := [] }

/-- The matrix unit of tile t. -/
def State.mxu (s : State) (t : Nat) : Mx := tget mxEmpty s.mx t

/-- The matrix unit written. -/
def State.putMx (s : State) (t : Nat) (x : Mx) : State := { s with mx := tset mxEmpty s.mx t x }

/-- The gate of spar i. -/
def Mx.gate (x : Mx) (i : Nat) : List MxReq :=
  if i = 0 then x.gate0 else if i = 1 then x.gate1 else if i = 2 then x.gate2 else x.gate3

/-- The gate of spar i written. -/
def Mx.putGate (x : Mx) (i : Nat) (l : List MxReq) : Mx :=
  if i = 0 then { x with gate0 := l } else if i = 1 then { x with gate1 := l }
  else if i = 2 then { x with gate2 := l } else { x with gate3 := l }

/-- The spars of an array code (R138): a spar, a row pair, a column pair, or the mast. -/
def arraySpars (a : Nat) : List Nat :=
  if a < 4 then [a] else if a = 4 then [0, 1] else if a = 5 then [2, 3] else if a = 6 then [0, 2]
  else if a = 7 then [1, 3] else [0, 1, 2, 3]

/-- Bits [lo + w - 1 : lo] of a descriptor (R149). -/
def mxdBits (d : Mxd) (lo w : Nat) : Nat := bits d.toNat lo w

/-- The rows that a request holds in a gate: masked rows take their slots (R163, R169; DEDUCED, log 42). -/
def MxReq.rows (r : MxReq) : Nat := r.mask.length

/-- The partner of an array in DUAL_BWD (R164). -/
def partnerArray (a : Nat) : Nat := if a < 4 then a ^^^ 1 else if a = 4 then 5 else if a = 5 then 4 else if a = 6 then 7 else 6

/-- The spars that a job uses: those of its array, and of the partner for DUAL_BWD (R155, R164). -/
def MxJob.spars (j : MxJob) : List Nat :=
  arraySpars j.array ++ (if j.reqs.any (fun r => mxdBits r.d 0 4 == 3) then arraySpars (partnerArray j.array) else [])

/-! ### Vaults, cache halves, links and channels -/

/-- An idle vault. -/
def vault0 : Vault :=
  { badCh := [], copy := none, scrub := [0, 0, 0, 0], passes := [0, 0, 0, 0], calTemp := [0, 0, 0, 0], rowsNow := [],
    rowsLast := [], spareRows := [], symRun := [(0, []), (0, []), (0, []), (0, [])],
    short := [false, false, false, false], shortAge := [65536, 65536, 65536, 65536], hold := false }

/-- The vault of (field, site). -/
def State.vault (s : State) (f site : Nat) : Vault := tget vault0 s.vaults (f * sites + site)

/-- A vault written. -/
def State.putVault (s : State) (f site : Nat) (v : Vault) : State :=
  { s with vaults := tset vault0 s.vaults (f * sites + site) v }

/-- A cache half with no pin. -/
def half0 : Half := { pins := [], winAcc := 0, winMiss := 0, op := none, snoop := [] }

/-- Cache half h: 0 west, 1 east. -/
def State.half (s : State) (h : Nat) : Half := tget half0 s.halves h

/-- A cache half written. -/
def State.putHalf (s : State) (h : Nat) (x : Half) : State := { s with halves := tset half0 s.halves h x }

/-- A pin entry that reserves nothing. -/
def pin0 : PinEntry := { base := 0, len := 0, fill := false, part := 0, ways := 0, busy := false, result := .ok }

/-- A region entry that is not in force. -/
def region0 : Region :=
  { base := 0, len := 0, part := 0, valid := false, read := false, write := false, atomic := false, shared := false,
    weight := false, cached := false, staged := false, replica := 0, key := 0, job := 0, alt := 0, live := false,
    torn := false, origin := false }

/-- Region entry e. -/
def State.region (s : State) (e : Nat) : Region := tget region0 s.regions e

/-- A region entry written. -/
def State.putRegion (s : State) (e : Nat) (r : Region) : State := { s with regions := tset region0 s.regions e r }

/-- A key-map entry not in force. -/
def kmap0 : KeyEntry := { base := 0, module := 0, anymod := false, valid := false, len := 0, key := 0 }

/-- Key-map entry i of partition p. -/
def State.kmap (s : State) (p i : Nat) : KeyEntry := tget kmap0 s.kmaps (p * 16 + i)

/-- A key-map entry written. -/
def State.putKmap (s : State) (p i : Nat) (k : KeyEntry) : State :=
  { s with kmaps := tset kmap0 s.kmaps (p * 16 + i) k }

/-- A route entry not usable. -/
def route0 : Route := { group := 0, valid := false }

/-- An idle link. -/
def link0 : Link :=
  { waiting := [], replay := [], txSeq := 0, rxSeq := 0, nakOut := false, nakDue := false, nakIn := false, wire := [], winUncorr := 0,
    winReplay := 0, fails := 0, added := 0, winCws := 0, rxPos := 0, rxCw := [], aligned := 0, firsts := [] }

/-- Link k. -/
def State.link (s : State) (k : Nat) : Link := tget link0 s.links k

/-- A link written. -/
def State.putLink (s : State) (k : Nat) (l : Link) : State := { s with links := tset link0 s.links k l }

/-- A ring not in use. -/
def ring0 : Ring := { cmdProd := 0, cplCons := 0, live := [], nextSeq := 0 }

/-- Ring r. -/
def State.ring (s : State) (r : Nat) : Ring := tget ring0 s.rings r

/-- A ring written. -/
def State.putRing (s : State) (r : Nat) (x : Ring) : State := { s with rings := tset ring0 s.rings r x }

/-- Link state codes of `LINK_STATUS.STATE` are read with this (R324). -/
def State.linkState (s : State) (k : Nat) : Nat := s.rdF (oLinkStatus k) 0 3

/-! ### Register values that blocks compute -/

/-- The update group of a block (R398). -/
def State.groupOf (s : State) : Blk → Nat
  | .mc => s.rdF oUpdCentral 0 4
  | .pwr => s.rdF oUpdCentral 4 4
  | .sec => s.rdF oUpdCentral 8 4
  | .evr => s.rdF oUpdCentral 12 4
  | .hst => s.rdF oUpdCentral 16 4
  | .hdma _ => s.rdF oUpdCentral 16 4
  | .fab => s.rdF oUpdCentral 20 4
  | .sc => s.rdF oUpdCentral 24 4
  | .chk => s.rdF oUpdCentral 28 4
  | .link k => s.rdF (oUpdLink (k / 8)) (4 * (k % 8)) 4
  | .field f => s.rdF (oUpdField (f / 8)) (4 * (f % 8)) 4
  | .fdma f _ => s.rdF (oUpdField (f / 8)) (4 * (f % 8)) 4
  | .tile f _ => s.rdF (oUpdField (f / 8)) (4 * (f % 8)) 4

/-- The update group of the register at an offset. -/
def State.groupOfOff (s : State) (o : Nat) : Nat :=
  match blkOf o with
  | some (b, _) => s.groupOf b
  | none => 16

/-- `UPD_PENDING.GROUPS`: groups with a pending value or told to apply (R401, R408). -/
def State.pendingGroups (s : State) : Nat :=
  let all := s.strobed.map (·.1) ++ s.applying
  (List.range 16).foldl (fun m g => if all.any (fun o => s.groupOfOff o == g) then m + 2 ^ g else m) 0

/-- The 512 bits of a record (R474). -/
def recordBits (r : Record) : Nat :=
  1 + r.cls * 2 + r.status * 2 ^ 6 + r.src * 2 ^ 14 + r.steps % 2 ^ 48 * 2 ^ 32 + r.epoch.toNat * 2 ^ 80
    + r.rep * 2 ^ 112
    + (List.range 12).foldl (fun m i => m + (nth 0#32 r.snap i).toNat * 2 ^ (128 + 32 * i)) 0

/-- Physical links of group g that are DOWN, state code 4 (R324, R312). -/
def State.downMask (s : State) (g : Nat) : Nat :=
  (List.range 8).foldl (fun m i => if s.linkState (8 * g + i) == 4 then m + 2 ^ i else m) 0

/-- Groups whose eight links are all DOWN (R297, R312). -/
def State.downGroups (s : State) : Nat :=
  (List.range 8).foldl (fun m g => if s.downMask g == 255 then m + 2 ^ g else m) 0

/-- A word of a mask of group slots. -/
def State.groupMask (s : State) (t : Nat) (p : Group → Bool) : Nat :=
  (List.range 16).foldl (fun m n => if p (s.group t n) then m + 2 ^ n else m) 0

/-- `MX_STATE` (R175): queued jobs by spar, preloaded and feeding marks. -/
def mxState (x : Mx) : Nat :=
  let q (i : Nat) : Nat := Nat.min ((x.jobs.filter (fun j => j.spars.contains i)).length) 7
  let pre (i : Nat) : Bool := x.preload.any (fun e => (arraySpars (mxdBits e.2.d 4 4)).contains i)
  let feed (i : Nat) : Bool := x.jobs.any (fun j => j.started && j.spars.contains i)
  (List.range 4).foldl (fun m i => m + q i * 2 ^ (3 * i) + b2n (pre i) * 2 ^ (12 + i) + b2n (feed i) * 2 ^ (16 + i)) 0

/-- `MX_GATE` (R175): rows held by each gate. -/
def mxGate (x : Mx) : Nat :=
  (List.range 4).foldl
    (fun m i => m + Nat.min (((x.gate i).map MxReq.rows).foldl (· + ·) 0) 63 * 2 ^ (6 * i)) 0

end Sys2Proof.Machine
end

