-- ==== Sys2Proof/Machine/Report.lean ====
section
/-! DEFINITION. What a register reads, computed fields included, and raising a report: the report's snapshot (R479, R480) and its place at the source (R473). -/

namespace Sys2Proof.Machine

/-- Value of the recorder register `EVR_CLASS_CFG` of a class: RECORD and RING are 1 after reset (R485). -/
def Recorder.classCfg (r : Recorder) (c : Nat) : Nat := tget 3 r.cfg c

/-- Snapshot entry n of the list of a class and source kind (R479). -/
def Recorder.snapEntry (r : Recorder) (c kind n : Nat) : Word := tget 0#32 r.snaps ((c * 16 + kind) * 12 + n)

/-- The L and computed fields of `SITE_STATUS`: UNUSED and SPARE_INDEX from the repair map of order 7, CH_OK from order 8,
LOGIC_ON (R14, R266, R409). -/
def State.siteStatus (s : State) (f site : Nat) (v : Word) : Word :=
  let order := s.rdF oSuStatus 0 4
  let k := match indexOf (fun x => x == site) (s.unusedOf f) with
    | some i => i + 1
    | none => 0
  let ok := (List.range 4).foldl (fun m n => if (s.vault f site).badCh.contains n then m else m + 2 ^ n) 0
  let v1 := setFld v 1 1 (b2n (s.corePowered && k == 0))
  let v2 := if 8 ≤ order then setFld (setFld v1 0 1 (b2n (k != 0))) 10 3 k else v1
  if 9 ≤ order then setFld v2 2 4 ok else v2

/-- The value that a read of the register at a block offset returns (R393 and the chapter of each block): the stored
value, with the fields that a block computes put in. -/
def State.readReg (s : State) (req : Nat) (o : Nat) : Word :=
  let v := s.rd o
  match blkOf o with
  | some (.mc, l) =>
    if l = 0x120 then BitVec.ofNat 32 (req % 2048)
    else if l = 0x8 then setFld v 0 16 s.pendingGroups
    else if l = 0x108 then setFld v 0 4 s.modState
    else v
  | some (.sec, l) =>
    if l = 0x18 then BitVec.ofNat 32 (s.sec.signNext % 2 ^ 26)
    else if l = 0x20 then BitVec.ofNat 32 (s.sec.signEnd % 2 ^ 26)
    else v
  | some (.evr, l) =>
    let r := s.recorder
    let c := s.rdF oEvrClassSel 0 5
    if l = 0x0 then
      BitVec.ofNat 32 (r.log.length + b2n (4096 ≤ r.log.length) * 2 ^ 13 + r.queue.length * 2 ^ 14)
    else if 0x40 ≤ l && l < 0xC0 then
      match r.log[s.rdF oEvrSel 0 12]? with
      | some x => BitVec.ofNat 32 (recordBits x >>> (32 * ((l - 0x40) / 8)))
      | none => 0
    else if l = 0x108 then BitVec.ofNat 32 (tget 0 r.counts c)
    else if l = 0x110 then BitVec.ofNat 32 (r.classCfg c)
    else if 0x140 ≤ l && l < 0x1A0 then r.snapEntry c (s.rdF oEvrClassSel 5 4) ((l - 0x140) / 8)
    else v
  | some (.hst, l) =>
    if 0x2000 ≤ l && l < 0x2100 && l % 16 == 0 then
      let p := (l - 0x2000) / 16
      let x := s.part p
      BitVec.ofNat 32 (s.partState p + b2n (!x.progs.isEmpty) * 4 + b2n x.sched.isSome * 8 + x.quads.toNat * 16)
    else v
  | some (.fab, l) =>
    if l = 0x0 then setFld v 10 8 s.downGroups
    else if l = 0x48 then
      let r := tget route0 s.routes (s.rdF oRouteSel 0 10)
      BitVec.ofNat 32 (r.group + b2n r.valid * 8)
    else if 0x80 ≤ l && l < 0xC0 && l % 8 == 0 then setFld v 24 8 (s.downMask ((l - 0x80) / 8))
    else if l = 0x120 then
      let r := s.region (s.rdF oRgnSel 0 12)
      BitVec.ofNat 32 (r.alt + b2n r.live * 2 ^ 20 + b2n r.torn * 2 ^ 21 + b2n r.origin * 2 ^ 22)
    else v
  | some (.sc, l) =>
    let h := l / 0x4000
    let x := l % 0x4000
    let e := tget pin0 (s.half h).pins (s.rdF (oScPinSel h) 0 3)
    if l < 0x8000 then
      if x = 0x0 then
        setFld (setFld v 0 4 ((s.half h).pins.foldl (fun m p => m + p.2.ways) 0)) 5 1 (b2n (s.half h).op.isSome)
      else if x = 0x50 then BitVec.ofNat 32 (e.len + b2n e.fill * 2 ^ 17 + e.part * 2 ^ 18)
      else if x = 0x58 then BitVec.ofNat 32 (e.ways + e.result.code * 16 + b2n e.busy * 2 ^ 12)
      else v
    else v
  | some (.tile f site, l) =>
    if l = 0x0 then s.siteStatus f site v
    else if l = 0x108 then
      let n := s.rdF (oVltSlotSel f site) 0 12
      let e := s.slotEntry f site n
      let busy := match (s.vault f site).copy with
        | some c => c.slot == n
        | none => false
      BitVec.ofNat 32 (e.frame + e.tier * 2 ^ 10 + e.target * 2 ^ 12 + fld v 15 1 * 2 ^ 15 + b2n busy * 2 ^ 16)
    else match s.tileAt f site with
      | some t =>
        if l = 0xC00 then BitVec.ofNat 32 (s.groupMask t (·.live) + s.groupMask t (·.halted) * 2 ^ 16)
        else if l = 0xD00 then BitVec.ofNat 32 (mxState (s.mxu t))
        else if l = 0xD08 then BitVec.ofNat 32 (mxGate (s.mxu t))
        else v
      | none => v
  | _ => v

/-! ### Sources (R474) -/

/-- SOURCE of a record (R474). -/
def srcCode (x : Src) : Nat := x.kind * 2 ^ 14 + x.index

/-- A tile site as a report source. -/
def srcSite (f site : Nat) : Src := { kind := 0, index := f * 256 + site }

/-- The tile site of a global tile. -/
def State.srcTile (s : State) (t : Nat) : Src := srcSite (t / 192) (s.tileSite t)

/-- Central block n of R392 as a report source. -/
def srcCentral (n : Nat) : Src := { kind := 5, index := n }

/-- The offset of the block of a source, if it has one (R479). -/
def srcBase (x : Src) : Option Nat :=
  match x.kind with
  | 0 => some (Blk.tile (x.index / 256) (x.index % 256)).base
  | 1 => some (Blk.fdma (x.index / 256) (x.index % 256)).base
  | 2 => some (Blk.link x.index).base
  | 3 => some (0x60000 + x.index * 0x4000)
  | 5 => some (x.index * 0x10000)
  | 6 => some (Blk.hdma x.index).base
  | 7 => some (0x40000 + x.index * 0x100)
  | _ => none

/-- The snapshot of a report when its source raises it: zero for an entry of the source's block where it has none (R479). -/
def State.snapAtSource (s : State) (c : Nat) (x : Src) : List Snap :=
  (List.range 12).map (fun n =>
    let e := s.recorder.snapEntry c x.kind n
    if !flag e 31 then .off
    else if flag e 20 then .central (fld e 0 20)
    else .val (match srcBase x with
      | some b => s.readReg Config.recorderId.toNat (b + fld e 0 20)
      | none => 0))

/-- The key of a source's count of reports of a class that it has not sent (R473). -/
def unsentKey (x : Src) (c : Nat) : Nat := (x.kind * 2 ^ 14 + x.index) * 32 + c

/-- A source raises a report (R473, R479): it takes one of the source's 2 places; with both places full it is only counted. -/
def State.raise (s : State) (cls : Cls) (st : Status) (x : Src) (rings : List Nat) : State :=
  let r := s.recorder
  let c := cls.code
  if 2 ≤ (r.places.filter (fun p => p.src == x)).length then
    let k := unsentKey x c
    { s with recorder := { r with unsent := tset 0 r.unsent k (tget 0 r.unsent k + 1) } }
  else
    let rep : Report := { cls := cls, status := st, src := x, snap := s.snapAtSource c x, rings := rings, unsent := [] }
    { s with recorder := { r with places := r.places ++ [rep] } }

/-- A report for the owner alone. -/
def State.raiseOwner (s : State) (cls : Cls) (st : Status) (x : Src) : State := s.raise cls st x [16]

/-- A report for a partition alone (R480). -/
def State.raisePart (s : State) (cls : Cls) (st : Status) (x : Src) (p : Nat) : State := s.raise cls st x [p]

/-- The snapshot word of an entry: offset, CENTRAL, EN (R485). -/
def snapWord (central : Bool) (off : Nat) : Word := BitVec.ofNat 32 (off + b2n central * 2 ^ 20 + 2 ^ 31)

/-- The default lists of R480: class, source kind, offsets in the source's block, absolute offsets of central registers. -/
def defaultSnaps : List (Nat × Nat × List Nat × List Nat) :=
  [ (1, 0, [0x18, 0x20, 0x28, 0x30, 0x70, 0x80], []), (1, 2, [0x20, 0x28], []), (1, 3, [0x28], []),
    (2, 0, [0x68, 0x78, 0x18, 0x20, 0x28, 0x30, 0x70], []), (2, 3, [0x28], []),
    (3, 0, [0xC00, 0xC08, 0xC10, 0xC18, 0xC20, 0xC28, 0xD00, 0xD08], []),
    (4, 0, [0xC00, 0xD00, 0xD08], [0x70020]), (4, 5, [], [0x70020]),
    (5, 0, [0xC08, 0xC20, 0xC28], []) ]
  ++ [0, 1, 2, 3, 5, 6, 7].map (fun k => (6, k, [], [0x50300, 0x120]))
  ++ [ (7, 5, [0x110, 0x118], []), (8, 3, [0x0, 0x10, 0x18, 0x8], []),
       (9, 0, [0x0, 0x38, 0x40, 0x48, 0x50, 0x100, 0x108], []),
       (10, 0, [0x8, 0x10, 0x0], [0x10000, 0x10048, 0x10030, 0x10038]),
       (10, 5, [], [0x10000, 0x10048, 0x10030, 0x10038]),
       (11, 5, [0x0, 0x8, 0x10, 0x40], []), (12, 2, [0x0, 0x8, 0x20, 0x28, 0x30], []),
       (13, 5, [0x0, 0x18, 0x8], []), (14, 7, [0x40, 0x48, 0x50], []), (15, 5, [0x100], []),
       (17, 5, [0x0, 0x18, 0x20], []), (18, 4, [], [0x108]) ]

/-- The snapshot table that the start-up firmware loads (R479, R480). -/
def snapsDefault : Tab Word :=
  defaultSnaps.foldl
    (fun m e =>
      let ws := e.2.2.1.map (snapWord false) ++ e.2.2.2.map (snapWord true)
      (List.zip (List.range 12) ws).foldl (fun m' x => tset 0#32 m' ((e.1 * 16 + e.2.1) * 12 + x.1) x.2) m) []

/-! ### Counted errors (R266, R468) -/

/-- A correctable-error counter raised by one, with a CORRECTED report when it passes from 0 to 1 or reaches a multiple of
1,024 (R468). A NONZERO bit at [31] is set where the register has one. -/
def State.countCorrected (s : State) (o lo w : Nat) (nz : Bool) (x : Src) : State :=
  let old := s.rdF o lo w
  let s1 := s.bump o lo w 1
  let s2 := if nz then s1.wrF o 31 1 1 else s1
  let new := s2.rdF o lo w
  if new != old && (old == 0 || new % 1024 == 0) then s2.raiseOwner .corrected .ok x else s2

end Sys2Proof.Machine
end

