-- ==== Sys2Proof/Machine/Fabric.lean ====
section
/-! DEFINITION. The fabric at this module: global addresses, keys, routes, regions, the checks of R301, errors met in codewords, and what an access does at its home. -/

namespace Sys2Proof.Machine

/-! ### Global addresses (R290, R291) -/

/-- The class of a global address. -/
def addrClass (a : Long) : Nat := bits a.toNat 62 2

/-- The module field of a global address. -/
def addrModule (a : Long) : Nat := bits a.toNat 52 10

/-- The offset field of a global address. -/
def addrOff (a : Long) : Nat := bits a.toNat 0 44

/-- Bits [51:44] are zero (R290). -/
def addrPlain (a : Long) : Bool := bits a.toNat 44 8 == 0

/-- This module's id (R312). -/
def State.moduleId (s : State) : Nat := s.rdF oFabStatus 0 10

/-- The module that an address of class b00 or b01 names. -/
def State.addrHome (s : State) (a : Long) : Nat := if addrClass a = 1 then addrModule a else s.moduleId

/-! ### Keys and routes (R293, R294, R300) -/

/-- A number no 16-bit key equals: what an access carries when no entry of the key map supplies a key. -/
def noKey : Nat := 65536

/-- Key-map entry i matches module m and offset o (R300). -/
def KeyEntry.hits (k : KeyEntry) (m o : Nat) : Bool :=
  k.valid && (k.anymod || k.module == m) && decide (k.base * unit16 ≤ o) && decide (o < (k.base + k.len) * unit16)

/-- The key that partition p's map supplies for an access (R300). -/
def State.keyFor (s : State) (p m o : Nat) : Nat :=
  match (List.range 15).find? (fun i => (s.kmap p i).hits m o) with
  | some i => (s.kmap p i).key
  | none => if (s.kmap p 15).valid then (s.kmap p 15).key else noKey

/-- The route entry of a destination (R293). -/
def State.route (s : State) (d : Nat) : Route := tget route0 s.routes d

/-- The logical link of a flit at offset o to module d (R294). -/
def logicalLink (d o : Nat) : Nat :=
  let l := o / 256
  (l % 8) ^^^ (l / 8 % 8) ^^^ (d % 8)

/-- The physical link of an access at offset o to module d: the remapped link of its group (R294). -/
def State.linkFor (s : State) (d o : Nat) : Nat :=
  let g := (s.route d).group
  8 * g + s.rdF (oLinkRemap g) (3 * logicalLink d o) 3

/-- A flit of this module at offset o to module d. -/
def State.flitTo (s : State) (d o part : Nat) (runtime poison : Bool) (body : Body) : Flit :=
  { module := s.moduleId, part := part, runtime := runtime, poison := poison, via := logicalLink d o, body := body }

/-- A combined CAS of more than 28 lanes travels as a flit pair (R319): the first carries the compared values, the second the new
ones (DEDUCED, log 23). Every other flit travels alone. -/
def Flit.split (f : Flit) : List Flit :=
  match f.body with
  | .req b =>
    match b.pair, b.kind with
    | true, .atomic fn ops =>
      [{ f with body := .req { b with kind := .atomic fn (ops.map (fun x => (x.1, 0#32))) } },
       { f with body := .req { b with kind := .atomic fn (ops.map (fun x => (x.2, 0#32))), pair := false, second := true } }]
    | _, _ => [f]
  | _ => [f]

/-- A flit put behind those waiting for a link (R297, R320). -/
def State.enqueue (s : State) (k : Nat) (f : Flit) : State :=
  let l := s.link k
  s.putLink k { l with waiting := l.waiting ++ [f] }

/-- A flit of the resident runtime, a DMA channel or the keeper role, put behind those waiting for its link, the two of a pair one behind the
other (R297, R319, R320). -/
def State.sendFlit (s : State) (d o part : Nat) (runtime poison : Bool) (body : Body) : State :=
  (s.flitTo d o part runtime poison body).split.foldl (fun v f => v.enqueue (s.linkFor d o) f) s

/-! ### Regions (R298, R299) -/

/-- Offset o lies in the LEN units from unit b. -/
def inUnits (b len o : Nat) : Bool := decide (b * unit16 ≤ o) && decide (o < (b + len) * unit16)

/-- Offset o lies in one of the ranges of an entry. -/
def Region.holds (r : Region) (o : Nat) : Bool := inUnits r.base r.len o || (r.staged && inUnits r.alt r.len o)

/-- Where an access to offset o of an entry goes: the live copy through the name range, the other one through the shadow
range (R299). -/
def Region.phys (r : Region) (o : Nat) : Nat :=
  if !r.staged then o
  else if inUnits r.base r.len o then (if r.live then r.alt * unit16 + (o - r.base * unit16) else o)
  else (if r.live then r.base * unit16 + (o - r.alt * unit16) else o)

/-- The valid or TORN entry that contains an offset (R301). -/
def State.regionAt (s : State) (o : Nat) : Option (Nat × Region) :=
  s.regions.find? (fun e => (e.2.valid || e.2.torn) && e.2.holds o)

/-- Where an access to an offset goes: the live copy of a staged region, or the offset itself (R299). -/
def State.physAt (s : State) (o : Nat) : Nat :=
  match s.regionAt o with
  | some (_, r) => r.phys o
  | none => o

/-- An offset of this module lies in a cached region (R271). -/
def State.cachedOff (s : State) (o : Nat) : Bool :=
  match s.regionAt o with
  | some (_, r) => r.cached
  | none => false

/-- A weight region is fenced while its partition is in FWD or BWD (R207). -/
def State.fenced (s : State) (r : Region) : Bool :=
  r.weight && (s.phase r.part == phFwd || s.phase r.part == phBwd)

/-- A write to an offset is dropped: UPDATE of a skipped step writes nothing to the staged regions of its partition (R223; DEDUCED,
log 146). -/
def State.writesDropped (s : State) (o : Nat) : Bool :=
  match s.regionAt o with
  | some (_, r) => r.valid && r.staged && s.phase r.part == phUpdate && (s.part r.part).step.skip
  | none => false

/-- The `RGN_POISON` bit of an entry (R470, R485). -/
def State.rgnPoison (s : State) (e : Nat) : Bool := flag (s.rd (oRgnPoison (e / 32))) (e % 32)

/-- The partitions that hold a grant of a shared region on this module (R386, R471). -/
def State.grantees (s : State) (r : Region) : List Nat :=
  (List.range 16).filter (fun p => (List.range 15).any (fun i =>
    let k := s.kmap p i
    k.valid && k.key == r.key && (k.anymod || k.module == s.moduleId) && decide (k.base < r.base + r.len) &&
      decide (r.base < k.base + k.len)))

/-! ### Homes -/

/-- The cache half of an offset: west for field columns 0 to 3 (R18). -/
def halfOf (o : Nat) : Nat := if (tileOfOff o / 192) % 8 < 4 then 0 else 1

/-- The tile site that is home to an offset. -/
def State.homeSrc (s : State) (o : Nat) : Src := s.srcTile (tileOfOff o)

/-- The rings told of an uncorrectable error at offset o: the owner, the partition owning the region, grantees (R480). -/
def State.errRings (s : State) (o : Nat) : List Nat :=
  match s.regionAt o with
  | some (_, r) => 16 :: (if r.origin || !r.valid then [] else [r.part]) ++ (if r.shared then s.grantees r else [])
  | none => [16]

/-- The region's poison bit is set where an uncorrectable error falls in a SHARED region (R470). -/
def State.poisonRegion (s : State) (o : Nat) : State :=
  match s.regionAt o with
  | some (e, r) =>
    if r.shared then s.wr (oRgnPoison (e / 32)) (s.rd (oRgnPoison (e / 32)) ||| BitVec.ofNat 32 (2 ^ (e % 32))) else s
  | none => s

/-- The run of successive corrections of a channel on one symbol position (R258). -/
def Vault.noteSymbol (v : Vault) (ch pos bankRow : Nat) : Vault :=
  let (p, rows) := nth (0, []) v.symRun ch
  { v with symRun := setAt v.symRun ch (if p = pos then (pos, sadd rows bankRow) else (pos, [bankRow])) }

/-- A row is failing: a codeword of it was found uncorrectable (R258). -/
def Vault.noteBadRow (v : Vault) (ch bank row : Nat) : Vault :=
  let x := (ch, bank, row)
  { v with rowsNow := if v.rowsNow.contains x then v.rowsNow else v.rowsNow ++ [x],
           rowsLast := if v.rowsLast.contains x then v.rowsLast else v.rowsLast ++ [x] }

/-- The field is in protective hold: its tiles accept no new handshake (R439). -/
def State.fieldHeld (s : State) (f : Nat) : Bool :=
  if f < 32 then flag (s.rd oPwrHoldLo) f else flag (s.rd oPwrHoldHi) (f - 32)

/-- Accesses to an offset wait: at a channel port whose slot is being copied, whose channel runs a short repair or whose vault is
in self-refresh (R253, R258, R262), or at a tile store of a held field (R439; DEDUCED, log 122). -/
def State.portHeld (s : State) (o : Nat) : Bool :=
  if o < vaultEnd then
    let l := s.vaultLoc o
    let v := s.vault l.field l.site
    v.hold || nth false v.short l.ch ||
      (match (s.vault l.field l.home).copy with
       | some c => c.slot == l.slot
       | none => false)
  else decide (tsBase ≤ o) && s.fieldHeld ((o - tsBase) / tsSize / 192)

/-- A corrected error in codeword c of vault DRAM or a tile store is counted (R266, R468). -/
def State.metCorrected (s : State) (c pos : Nat) : State :=
  let o := 32 * c
  if o < vaultEnd then
    let l := s.vaultLoc o
    let s1 := s.countCorrected (oVltErrCh l.field l.site l.ch) 0 16 true (srcSite l.field l.site)
    s1.putVault l.field l.site ((s1.vault l.field l.site).noteSymbol l.ch pos (l.bank * 4096 + l.row))
  else
    let t := tileOfOff o
    s.countCorrected (oTsErr (t / 192) (s.tileSite t)) 0 16 true (s.srcTile t)

/-- An uncorrectable error in codeword c of vault DRAM or a tile store: it is written back poisoned (R244), counted,
captured, reported, and poisons a SHARED region (R266, R467, R470). -/
def State.metUncorrectable (s : State) (c : Nat) : State :=
  let o := 32 * c
  let s0 := (s.putPoison c true).poisonRegion o
  if o < vaultEnd then
    let l := s0.vaultLoc o
    let v := o % 0x40000000
    let r := oVltErrCh l.field l.site l.ch
    let s1 := (s0.bump r 16 8 1).wrF r 31 1 1
    let ca := oVltErrAddr l.field l.site
    let s2 := if flag (s1.rd ca) 31 then s1
      else s1.wr ca (BitVec.ofNat 32 (v / 64 + l.ch * 2 ^ 24 + bits v 5 1 * 2 ^ 26 + 2 ^ 31))
    let s2 := s2.putVault l.field l.site ((s2.vault l.field l.site).noteBadRow l.ch l.bank l.row)
    s2.raise .uncorrectable .poisoned (srcSite l.field l.site) (s2.errRings o)
  else
    let t := tileOfOff o
    let f := t / 192
    let site := s0.tileSite t
    let s1 := (s0.bump (oTsErr f site) 16 8 1).wrF (oTsErr f site) 31 1 1
    let ca := oTsErrAddr f site
    let s2 := if flag (s1.rd ca) 31 then s1
      else s1.wr ca (BitVec.ofNat 32 ((o - storeBase t) / 32 + 2 ^ 31))
    s2.raise .uncorrectable .poisoned (srcSite f site) (s2.errRings o)

/-- The error pattern of a codeword, none where the command names none. -/
def upsetOf (u : Upsets) (c : Nat) : Upset := tget (0 : Upset) u c

/-- The 32 stored data nibbles of a codeword changed by a mask. -/
def State.maskCw (s : State) (c : Nat) (m : BitVec 128) : State :=
  if m = 0 then s
  else s.store (32 * c) (List.zipWith (· ^^^ ·) (getNibs s.mem (32 * c) 32) (nibsOf m.toNat 32))

/-- A unit reads codeword c through the decoder: corrections are counted, an uncorrectable codeword is written back
poisoned with its data symbols as they stand, and a codeword that decodes as poisoned is one from now on (R243, R244). -/
def State.senseCw (s : State) (u : Upsets) (c : Nat) : State :=
  let p := upsetOf u c
  match eccDecode (s.poisoned c) p with
  | .clean => s
  | .corrected pos _ => s.metCorrected c pos
  | .poisoned => (s.maskCw c (eccMask p .poisoned)).putPoison c true
  | .uncorrectable => (s.maskCw c (eccMask p .uncorrectable)).metUncorrectable c

/-- Every codeword of n nibbles at offset a is read through the decoder. -/
def State.sense (s : State) (u : Upsets) (a n : Nat) : State := (cwsOf a n).foldl (fun t c => t.senseCw u c) s

/-- A reader of n nibbles at offset a receives POISONED: the decoder finds a codeword poisoned or uncorrectable. -/
def State.readsPoison (s : State) (u : Upsets) (a n : Nat) : Bool :=
  (cwsOf a n).any (fun c =>
    let d := eccDecode (s.poisoned c) (upsetOf u c)
    decide (d = .poisoned) || decide (d = .uncorrectable))

/-- What a read through the decoder returns at offset a, as the codeword stood before. -/
def State.seenNib (s : State) (u : Upsets) (a : Nat) : Nib :=
  let c := a / 32
  let m := eccMask (upsetOf u c) (eccDecode (s.poisoned c) (upsetOf u c))
  getNib s.mem a ^^^ (m >>> (4 * (a % 32))).truncate 4

/-- n nibbles as a read through the decoder returns them. -/
def State.seen (s : State) (u : Upsets) (a n : Nat) : List Nib := (List.range n).map (fun i => s.seenNib u (a + i))

/-- A codeword's errors are corrected in place before new nibbles are merged, or scrubbed (R247, R256). -/
def State.mendCw (s : State) (u : Upsets) (c : Nat) : State :=
  let p := upsetOf u c
  let a := eccDecode (s.poisoned c) p
  let t := s.senseCw u c
  match a with
  | .uncorrectable => t
  | .poisoned => t
  | _ => (if t.poisoned c then t.putPoison c false else t).maskCw c (eccMask p a)

/-- A store of a list of nibbles: codewords covered whole take new check symbols and lose their poison, the others are
corrected first and keep it (R244, R256). -/
def State.merge (s : State) (u : Upsets) (a : Nat) (l : List Nib) : State :=
  let part := (cwsOf a l.length).filter (fun c => !coversCw a l.length c)
  (part.foldl (fun t c => t.mendCw u c) s).storeClean a l

/-! ### The checks of R301 -/

/-- The counts and the log of KEY_MISMATCH and NOT_AUTHORIZED outcomes at a home (R301, R312). -/
def State.denied (s : State) (st : Status) (x : Src) : State :=
  let s1 := if st = .keyMismatch then s.bump oFabErr 0 16 1 else s.bump oFabErr 16 8 1
  (s1.wrF oFabErr 31 1 1).raiseOwner .accessDenied st x

/-- A fenced write is counted and logged for the region's partition (R208). -/
def State.fenceHit (s : State) (p : Nat) (x : Src) : State :=
  (s.bump (oStepFenceHits p) 0 16 1).raisePart .fence .weightFenced x p

/-- Tests 4 to 8 of R301 at the home (DEDUCED, log 29). -/
def State.homeTests (s : State) (a : Access) : Status :=
  match s.regionAt a.off with
  | none => .keyMismatch
  | some (e, r) =>
    let w := !a.kind.isLoad
    let passes := a.runtime || a.key == r.key
    if r.torn && passes then .jobTorn
    else if !r.valid || !passes then .keyMismatch
    else if r.cached && a.fabric then .notAuthorized
    else if !(a.kind.isStore && a.runtime && r.shared && s.rgnPoison e) &&
        ((a.kind.isLoad && !r.read) || (a.kind.isAtomic && !r.atomic) || (a.kind.isStore && !r.write) ||
          (w && r.shared)) then .notAuthorized
    else if w && s.fenced r then .weightFenced
    else .ok

/-- Test 9 for a SHARED entry whose poison bit is set (R470). -/
def State.sharedPoison (s : State) (a : Access) : Bool :=
  match s.regionAt a.off with
  | some (e, r) => r.shared && s.rgnPoison e && !a.runtime
  | none => false

/-! ### Atomics (R122, R123) -/

/-- The new word of one lane's update. -/
def atomNew (fn : AtomFn) (w b c : Word) : Word :=
  match fn with
  | .add => w + b
  | .sub => w - b
  | .and => w &&& b
  | .or => w ||| b
  | .xor => w ^^^ b
  | .min => if w.slt b then w else b
  | .max => if w.slt b then b else w
  | .minu => if w.ult b then w else b
  | .maxu => if w.ult b then b else w
  | .fadd => fAdd (f32Val w) (f32Val b)
  | .fmin => fMinMax false w b
  | .fmax => fMinMax true w b
  | .swap => b
  | .cas => if w = b then c else w

/-- The updates of all lanes on one word in order: the word written, and the word each lane finds. -/
def atomFold (fn : AtomFn) (w : Word) : List (Word × Word) → Word × List Word
  | [] => (w, [])
  | (b, c) :: r => let (z, l) := atomFold fn (atomNew fn w b c) r; (z, w :: l)

/-! ### Rendezvous cells (R126, R127) -/

/-- The job of partition p (R391). -/
def State.jobOf (s : State) (p : Nat) : Nat := s.rdF (oPartJob p) 0 16

/-- A tile is inside the job of the POST that reaches it (R127): that of a partition of this module, or one whose step table lists the
source module (DEDUCED, log 131). -/
def State.postTaken (s : State) (a : Access) (t : Nat) : Bool :=
  match s.partOfField (t / 192) with
  | none => false
  | some q =>
    match a.origin with
    | .remote m _ => (match (s.part q).table with
        | some tb => tb.list.any (fun x => x.1 == m)
        | none => false)
    | _ => s.jobOf q == s.jobOf a.part

/-- The count of cell c of tile t. -/
def State.cell (s : State) (t c : Nat) : Word := tget 0#32 s.cells (t * 64 + c)

/-- The count written. -/
def State.putCell (s : State) (t c : Nat) (v : Word) : State := { s with cells := tset 0#32 s.cells (t * 64 + c) v }

/-- A count raised by n: it stays at 2^32 - 1 and raises an event (R127). -/
def State.addCell (s : State) (t c n : Nat) : State :=
  let v := (s.cell t c).toNat + n
  if 2 ^ 32 ≤ v then
    (s.putCell t c 0xFFFFFFFF#32).raise .sync .ok (s.srcTile t)
      (match s.partOfField (t / 192) with
       | some p => [p]
       | none => [])
  else s.putCell t c (BitVec.ofNat 32 v)

/-! ### What an access does at its home -/

/-- An answer of a status alone. -/
def Reply.only (st : Status) : Reply := { st := st, data := [], words := [] }

/-- The data access itself at physical offset o, checks passed (R301 tests 9 and 10, R302). -/
def State.applyAt (s : State) (u : Upsets) (kind : AccKind) (o : Nat) (poison : Bool) : State × Reply :=
  match kind with
  | .load n =>
    let t := s.sense u o n
    if s.readsPoison u o n then (t, Reply.only .poisoned) else (t, { st := .ok, data := s.seen u o n, words := [] })
  | .store l => (if s.writesDropped o then s else if poison then s.storePoison o l else s.merge u o l, Reply.only .ok)
  | .atomic fn ops =>
    let t := s.sense u o 8
    if s.readsPoison u o 8 then (t, Reply.only .poisoned)
    else
      let (w, rets) := atomFold fn (BitVec.ofNat 32 (ofNibs (s.seen u o 8))) ops
      (if s.writesDropped o then t else s.merge u o (nibsOf w.toNat 8), { st := .ok, data := [], words := rets })
  | .post t c n => (s.addCell t c n, Reply.only .ok)

/-- An access at its home: checked in the order of R301, then applied to an uncached region. The region's counts and logs
are kept. -/
def State.applyHome (s : State) (u : Upsets) (a : Access) : State × Reply :=
  match a.kind with
  | .post t c n => if s.postTaken a t then (s.addCell t c n, Reply.only .ok) else (s, Reply.only .notAuthorized)
  | _ =>
    match s.homeTests a with
    | .ok =>
      if !a.kind.isLoad && !a.kind.isAtomic then
        match s.regionAt a.off with
        | some (_, r) => s.applyAt u a.kind (r.phys a.off) a.poison
        | none => s.applyAt u a.kind a.off a.poison
      else if s.sharedPoison a then (s, Reply.only .poisoned)
      else match s.regionAt a.off with
        | some (_, r) => s.applyAt u a.kind (r.phys a.off) a.poison
        | none => s.applyAt u a.kind a.off a.poison
    | .weightFenced =>
      match s.regionAt a.off with
      | some (_, r) => (s.fenceHit r.part (s.homeSrc a.off), Reply.only .weightFenced)
      | none => (s, Reply.only .weightFenced)
    | .jobTorn => (s, Reply.only .jobTorn)
    | st => (s.denied st (s.homeSrc a.off), Reply.only st)

end Sys2Proof.Machine
end

