-- ==== Sys2Proof/Machine/Host.lean ====
section
/-! DEFINITION. The host side of a ring: posted writes, completion and event entries, doorbells (R367 to R376), and what lets a FENCE complete. -/

namespace Sys2Proof.Machine

/-- The PCI Express function of a ring: 0 physical, p + 1 virtual (R367). -/
def ringFn (r : Nat) : Nat := if r < 16 then r + 1 else 0

/-- A transaction sent to the host. -/
def State.emit (s : State) (t : Tlp) : State := { s with host := { s.host with out := s.host.out ++ [t] } }

/-- Host address of the completion ring, the doorbell block, and the entries of a completion ring (R369, R390). -/
def State.cplBase (s : State) (r : Nat) : Nat := (s.rd (oRingCplHi r)).toNat * 2 ^ 32 + (s.rd (oRingCplLo r)).toNat
def State.dbBase (s : State) (r : Nat) : Nat := (s.rd (oRingDbHi r)).toNat * 2 ^ 32 + (s.rd (oRingDbLo r)).toNat
def State.cplSize (s : State) (r : Nat) : Nat := 2 ^ s.rdF (oRingSize r) 8 5
def State.cmdSize (s : State) (r : Nat) : Nat := 2 ^ s.rdF (oRingSize r) 0 5

/-- Ring state codes of `RING_STATUS.STATE` (R374, R390). -/
def rgDisabled : Nat := 0
def rgRunning : Nat := 1
def rgStopped : Nat := 2

/-- The state of a ring. -/
def State.ringState (s : State) (r : Nat) : Nat := s.rdF (oRingStatus r) 0 2

/-- Free completion entries of a ring (R371). -/
def State.cplFree (s : State) (r : Nat) : Nat :=
  s.cplSize r - ((s.rd (oRingCplProd r)).toNat + 2 ^ 32 - (s.ring r).cplCons) % 2 ^ 32

/-- A completion entry is free beyond those of the commands accepted and not completed (R371, R373). -/
def State.cplRoom (s : State) (r : Nat) : Bool := decide ((s.ring r).live.length < s.cplFree r)

/-- n command entries of a ring are accepted: the module writes CMD_CONS (R369, R371; DEDUCED, log 95). -/
def State.consume (s : State) (r n : Nat) : State :=
  let v := s.rd (oRingCmdCons r) + BitVec.ofNat 32 n
  if n = 0 then s else (s.wr (oRingCmdCons r) v).emit (.wr (ringFn r) (s.dbBase r + 4) 4 v.toNat false)

/-- A completion or event entry is written: the entry, then CPL_PROD, then the vector (R372). -/
def State.putCpl (s : State) (r tag status opcode kind v0 v1 : Nat) : State :=
  let prod := (s.rd (oRingCplProd r)).toNat
  let size := s.cplSize r
  let phase := b2n (prod / size % 2 == 0)
  let e := tag + status * 2 ^ 32 + opcode * 2 ^ 40 + kind * 2 ^ 48 + phase * 2 ^ 63 + v0 % 2 ^ 32 * 2 ^ 64
    + v1 % 2 ^ 32 * 2 ^ 96
  let s1 := s.emit (.wr (ringFn r) (s.cplBase r + prod % size * 16) 16 e false)
  let s2 := s1.wr (oRingCplProd r) (BitVec.ofNat 32 (prod + 1))
  let s3 := s2.emit (.wr (ringFn r) (s.dbBase r + 12) 4 ((prod + 1) % 2 ^ 32) false)
  if s3.rdF (oRingSize r) 21 1 = 1 then s3.emit (.msix (ringFn r) (s3.rdF (oRingSize r) 16 5)) else s3

/-- An entry of a ring that is not DISABLED: a disabled ring has no completion ring to write (R374). -/
def State.writeCpl (s : State) (r tag status opcode kind v0 v1 : Nat) : State :=
  if s.ringState r = rgDisabled then s else s.putCpl r tag status opcode kind v0 v1

/-- The first FENCE of a ring with no earlier command waiting (R376). -/
def readyFence (l : List LiveCmd) : Option LiveCmd :=
  l.find? (fun c => c.op == .fence && l.all (fun d => !decide (d.seq < c.seq)))

/-- Every FENCE whose earlier commands have all completed completes (R376). -/
def State.fences (s : State) (r : Nat) : Nat → State
  | 0 => s
  | n + 1 =>
    match readyFence (s.ring r).live with
    | some c =>
      let x := s.ring r
      ((s.writeCpl r c.tag.toNat 0 c.opcode 0 0 0).putRing r
        { x with live := x.live.filter (fun d => d.seq != c.seq) }).fences r n
    | none => s

/-- A command that waits, by its number on its ring, completes: its entry is written, and FENCEs behind it may complete. -/
def State.ringDone (s : State) (r seq : Nat) (st : Status) (v0 v1 : Nat) : State :=
  match (s.ring r).live.find? (fun c => c.seq == seq) with
  | some c =>
    let s1 := s.writeCpl r c.tag.toNat st.code c.opcode 0 v0 v1
    let x := s1.ring r
    (s1.putRing r { x with live := x.live.filter (fun d => d.seq != seq) }).fences r (x.live.length + 1)
  | none => s

/-- Every command of a ring that waits for `op` completes. -/
def State.ringDoneOp (s : State) (r : Nat) (op : Live) (st : Status) (v0 v1 : Nat) : State :=
  ((s.ring r).live.filter (fun c => c.op == op)).foldl (fun t c => t.ringDone r c.seq st v0 v1) s

/-- Every command of every ring that waits for `op` completes. -/
def State.allDoneOp (s : State) (op : Live) (st : Status) (v0 v1 : Nat) : State :=
  (List.range 17).foldl (fun t r => t.ringDoneOp r op st v0 v1) s

/-- An event entry, or a lost event (R373, R481; DEDUCED, log 69). -/
def State.sendEvent (s : State) (r status v0 v1 : Nat) : State :=
  if s.ringState r != rgDisabled && s.cplRoom r then s.writeCpl r 0 status 0 1 v0 v1
  else s.bump (oRingStatus r) 16 16 1

end Sys2Proof.Machine
end

