-- ==== Sys2Proof/Machine/Lists.lean ====
section
/-! DEFINITION. Access order lists (R35 to R38): the list in force of a resource, its current entry, and how it moves on. -/

namespace Sys2Proof.Machine

/-- The number of a resource that an access order list serves. -/
def listKey : ListRes → Nat
  | .banks t => t
  | .matrix t => 12288 + t
  | .vault f site ch => 24576 + (f * sites + site) * 4 + ch
  | .dmaPath f => 80000 + f
  | .hostDma => 90000

/-- The entries of the list of the host channels, from `HOST_DMA_LIST` (R349, R366). -/
def State.hostList (s : State) : List AolEntry :=
  (List.range 16).map (fun e =>
    { user := if e < 8 then fld (s.rd oHostDmaListLo) (4 * e) 4 else fld (s.rd oHostDmaListHi) (4 * (e - 8)) 4,
      wait := false, quantum := 1 })

/-- The list of a resource while no schedule is in force: eight OFFER entries for a field's DMA path (R347), and for the others none: a
matrix-issue list then names nobody, and banks and vault ports serve every user (DESIGN CHOICE, log 134). -/
def aolDefault : ListRes → Aol
  | .dmaPath _ =>
    { entries := (List.range 8).map (fun c => { user := c, wait := false, quantum := 1 }), pos := 0, made := 0 }
  | _ => { entries := [], pos := 0, made := 0 }

/-- The channel port of a spare vault: its list is fixed (R235, R241). -/
def State.sparePort (s : State) : ListRes → Bool
  | .vault f site _ => s.isUnused f site
  | _ => false

/-- The list in force of a resource. The channel ports of a spare vault have one OFFER entry that names the mesh local port with a
quantum of 16, whatever a schedule says (R241). -/
def State.aol (s : State) (r : ListRes) : Aol :=
  let a := tget (aolDefault r) s.lists (listKey r)
  match r with
  | .hostDma => { a with entries := s.hostList }
  | .vault _ _ _ => if s.sparePort r then { a with entries := [{ user := 1, wait := false, quantum := 16 }], pos := 0 } else a
  | _ => a

/-- The list of a resource written. -/
def State.putAol (s : State) (r : ListRes) (a : Aol) : State :=
  let b := match r with
    | .hostDma => { a with entries := [] }
    | _ => a
  { s with lists := tset (aolDefault r) s.lists (listKey r) b }

/-- The current entry. -/
def Aol.current (a : Aol) : Option AolEntry := a.entries[a.pos]?

/-- The list at its next entry; the first follows the last (R35). -/
def Aol.step (a : Aol) : Aol := { a with pos := (a.pos + 1) % a.entries.length, made := 0 }

/-- The current entry's user has made n more accesses: at its quantum the entry is over; an OFFER entry is over once its
user presents no more (R36). `more` says that the user presents more. -/
def Aol.count (a : Aol) (e : AolEntry) (n : Nat) (more : Bool) : Aol :=
  let b := { a with made := a.made + n }
  if e.quantum ≤ b.made then b.step else if e.wait || more then b else b.step

/-! ### Accesses at banks and vault ports (R19, R35 to R38) -/

/-- Users of a tile's bank list (R37). -/
def userThreads : Nat := 0
def userOperands : Nat := 1
def userExport : Nat := 2
def userDmaPort : Nat := 3
def userMesh : Nat := 4

/-- Users of a vault channel port (R37). -/
def portTile : Nat := 0
def portMesh : Nat := 1
def portDma : Nat := 2

/-- The resource that serves an access to a physical offset: the channel port of the vault that holds it, or the banks of its tile
store (R35, R240). -/
def State.portOf (s : State) (o : Nat) : ListRes :=
  if o < vaultEnd then
    let l := s.vaultLoc o
    .vault l.field l.site l.ch
  else .banks (tileOfOff o)

/-- The current entry of the list of a bank or a vault port names a user: no user outside it is served (R35, R36). Where no list is in
force, every user is served (DESIGN CHOICE, log 134). -/
def State.hasTurn (s : State) (r : ListRes) (user : Nat) : Bool :=
  match (s.aol r).current with
  | some e => e.user == user
  | none => true

/-- n service units of a vault channel port have passed: they are counted up to 65,536 since the channel's last short repair began (R37,
R259). -/
def State.passUnits (s : State) (r : ListRes) (n : Nat) : State :=
  match r with
  | .vault f site ch =>
    let v := s.vault f site
    s.putVault f site { v with shortAge := setAt v.shortAge ch (Nat.min 65536 (nth 0 v.shortAge ch + n)) }
  | _ => s

/-- The named user has made n accesses: an entry whose quantum is used up is over (R36). What a user makes beyond the quantum in one
command rides in its later entries, which the list does not show (DESIGN CHOICE, log 126). -/
def State.usePort (s : State) (r : ListRes) (n : Nat) : State :=
  let a := s.aol r
  match a.current with
  | some e => (s.putAol r (a.count e n true)).passUnits r n
  | none => s.passUnits r n

/-- The entry of a list passes: an OFFER entry whose user presents nothing is over after one service unit, a WAIT entry holds until
its user has made its accesses (R36). -/
def State.passEntry (s : State) (r : ListRes) : State :=
  let a := s.aol r
  match a.current with
  | some e => (if e.wait then s else s.putAol r a.step).passUnits r 1
  | none => s.passUnits r 1

end Sys2Proof.Machine
end

