-- ==== Sys2Proof/Machine/Cache.lean ====
section
/-! DEFINITION. The system cache halves (09_system_cache.md): lines, fills, write-backs, allocation, pins, dead lines, and an access at the slice. -/

namespace Sys2Proof.Machine

/-! ### Where a line lives (R268, R269) -/

/-- Slice and set of a line number (R269). -/
def sliceOf (l : Nat) : Nat := (l % 16) ^^^ (l / 16 % 16)
def setOf (l : Nat) : Nat := l / 16 % 6144

/-- The key of way w for line number l in half h. -/
def lineKey (h l w : Nat) : Nat := ((h * 16 + sliceOf l) * 6144 + setOf l) * 16 + w

/-- The way of half h that holds line number l. -/
def State.findWay (s : State) (h l : Nat) : Option Nat :=
  (List.range 16).find? (fun w => match tfind s.lines (lineKey h l w) with
    | some x => x.num == l
    | none => false)

/-- The line in a way, if valid. -/
def State.lineAt (s : State) (k : Nat) : Option Line := tfind s.lines k

/-- A line written, or dropped. -/
def State.putLine (s : State) (k : Nat) (x : Line) : State := { s with lines := tput s.lines k x }
def State.dropLine (s : State) (k : Nat) : State := { s with lines := tdel s.lines k }

/-- The pin entry of half h whose range holds line number l (R280). -/
def State.pinOf (s : State) (h l : Nat) : Option (Nat × PinEntry) :=
  (s.half h).pins.find? (fun e => decide (0 < e.2.ways) && decide (e.2.base ≤ l / 16) &&
    decide (l / 16 < e.2.base + e.2.len))

/-- Ways that pins reserve in half h (R280). -/
def State.reservedWays (s : State) (h : Nat) : Nat := (s.half h).pins.foldl (fun m e => m + e.2.ways) 0

/-- The ways of the set of line l that hold no pinned line, ascending. -/
def State.unpinnedWays (s : State) (h l : Nat) : List Nat :=
  (List.range 16).filter (fun w => match s.lineAt (lineKey h l w) with
    | some x => !x.pinned
    | none => true)

/-- The ordinary ways of a set, and the ways reserved for pinned lines still free (R279, R280). Which ways a pin reserves
is the model's choice (DESIGN CHOICE, log 14). -/
def State.ordinaryWays (s : State) (h l : Nat) : List Nat := (s.unpinnedWays h l).take (16 - s.reservedWays h)
def State.spareWays (s : State) (h l : Nat) : List Nat := (s.unpinnedWays h l).drop (16 - s.reservedWays h)

/-! ### Line data -/

/-- An empty line. -/
def newLine (l : Nat) (pinned : Bool) : Line :=
  { num := l, data := 0, mask := 0, dirty := 0, poison := 0, pinned := pinned, dead := false }

/-- n nibbles of a line from nibble i. -/
def Line.get (x : Line) (i n : Nat) : List Nib := nibsOf (x.data.toNat >>> (4 * i)) n

/-- Nibbles written into the data of a line. -/
def Line.put (x : Line) (i : Nat) (l : List Nib) : Line :=
  let m : BitVec 1024 := BitVec.ofNat 1024 ((2 ^ (4 * l.length) - 1) <<< (4 * i))
  { x with data := (x.data &&& ~~~ m) ||| BitVec.ofNat 1024 (ofNibs l <<< (4 * i)) }

/-- The bytes, sectors and codewords that n nibbles from nibble i touch. -/
def bytesOf (i n : Nat) : List Nat := (List.range 128).filter (fun b => decide (2 * b < i + n) && decide (i < 2 * b + 2))
def sectorsOf (i n : Nat) : List Nat := (List.range 4).filter (fun b => decide (64 * b < i + n) && decide (i < 64 * b + 64))
def lineCws (i n : Nat) : List Nat := (List.range 8).filter (fun b => decide (32 * b < i + n) && decide (i < 32 * b + 32))

/-- Every byte that n nibbles from nibble i touch is valid. -/
def Line.valid (x : Line) (i n : Nat) : Bool := (bytesOf i n).all (fun b => x.mask.getLsbD b)

/-- A bit set or cleared in a small mask. -/
def putBit {w : Nat} (v : BitVec w) (i : Nat) (b : Bool) : BitVec w :=
  let m := BitVec.ofNat w (2 ^ i)
  if b then v ||| m else v &&& ~~~ m

/-! ### Vault traffic of a line (R274, R275, R287) -/

/-- A sector of the line in way k is fetched: bytes whose mask bit is clear take the vault's data; a poisoned codeword
of which a byte is taken stays poisoned (R274, R287). -/
def State.fillSector (s : State) (u : Upsets) (k sec : Nat) : State :=
  match s.lineAt k with
  | none => s
  | some x =>
    let o := x.num * 256 + sec * 64
    let data := s.seen u o 64
    let bad := [0, 1].map (fun j => s.readsPoison u (o + 32 * j) 32)
    let y := (List.range 32).foldl (fun (y : Line) j =>
      let b := sec * 32 + j
      if y.mask.getLsbD b then y
      else { y.put (2 * b) ((data.drop (2 * j)).take 2) with mask := putBit y.mask b true }) x
    let z := (List.range 2).foldl (fun (y : Line) j =>
      if nth false bad j && !x.valid (64 * sec + 32 * j) 32 then { y with poison := putBit y.poison (2 * sec + j) true } else y) y
    (s.sense u o 64).putLine k z

/-- The sectors in which n nibbles from nibble i touch a byte that is not valid are fetched (R274; DEDUCED, log 52). -/
def State.fillFor (s : State) (u : Upsets) (k i n : Nat) : State :=
  (sectorsOf i n).foldl (fun t sec =>
    match t.lineAt k with
    | some x => if (bytesOf i n).any (fun b => b / 32 == sec && !x.mask.getLsbD b) then t.fillSector u k sec else t
    | none => t) s

/-! ### Errors in the data arrays (R287) -/

/-- The number under which an error pattern names codeword j of the line with number l in its slice: above those of module memory. -/
def sliceCw (l j : Nat) : Nat := 2 ^ 40 + l * 8 + j

/-- The change that a reader of a line sees in codewords that the decoder takes as they stand or corrects (R243). -/
def Line.upsetMask (x : Line) (u : Upsets) : BitVec 1024 :=
  (List.range 8).foldl (fun m j =>
    let p := upsetOf u (sliceCw x.num j)
    match eccDecode (x.poison.getLsbD j) p with
    | .clean => m ^^^ BitVec.ofNat 1024 ((eccMask p .clean).toNat <<< (128 * j))
    | .corrected q e => m ^^^ BitVec.ofNat 1024 ((eccMask p (.corrected q e)).toNat <<< (128 * j))
    | _ => m) 0
def State.lineMask (s : State) (u : Upsets) (k : Nat) : BitVec 1024 :=
  match s.lineAt k with
  | some x => x.upsetMask u
  | none => 0

/-- Codeword j of the line in way k is read through the decoder (R243, R287). -/
def State.senseLine (s : State) (u : Upsets) (h k j : Nat) : State :=
  match s.lineAt k with
  | none => s
  | some x =>
    let p := upsetOf u (sliceCw x.num j)
    let e := oScErr h
    match eccDecode (x.poison.getLsbD j) p with
    | .clean => s
    | .poisoned =>
      s.putLine k { x with data := x.data ^^^ BitVec.ofNat 1024 ((eccMask p .poisoned).toNat <<< (128 * j)),
                           poison := putBit x.poison j true }
    | .corrected _ _ => s.countCorrected e 0 16 true { kind := 3, index := h }
    | .uncorrectable =>
      if x.dirty.getLsbD (j / 2) then
        let y := { x with data := x.data ^^^ BitVec.ofNat 1024 ((eccMask p .uncorrectable).toNat <<< (128 * j)),
                          poison := putBit x.poison j true }
        ((((s.putLine k y).bump e 24 7 1).wrF e 31 1 1).poisonRegion (x.num * 256)).raise .uncorrectable .poisoned
          { kind := 3, index := h } (s.errRings (x.num * 256))
      else
        let m : BitVec 128 := BitVec.ofNat 128 ((2 ^ 32 - 1) <<< (32 * (j / 2)))
        let y := { x with mask := x.mask &&& ~~~ m, poison := putBit (putBit x.poison (j / 2 * 2) false) (j / 2 * 2 + 1) false }
        (((s.putLine k y).bump e 16 8 1).wrF e 31 1 1).raiseOwner .corrected .ok { kind := 3, index := h }

/-! ### Write-backs and allocation (R275, R279, R280) -/

/-- The valid bytes of one dirty codeword go to the vault, merged there where they are not all; a poisoned codeword is written
poisoned (R256, R275, R287). -/
def State.writeBackCw (s : State) (u : Upsets) (x : Line) (j : Nat) : State :=
  let o := x.num * 256 + 32 * j
  if x.valid (32 * j) 32 then
    let t := s.storeClean o (x.get (32 * j) 32)
    if x.poison.getLsbD j then t.putPoison (o / 32) true else t
  else
    let t := (List.range 16).foldl (fun t b =>
      if x.mask.getLsbD (16 * j + b) then t.store (o + 2 * b) (x.get (32 * j + 2 * b) 2) else t) (s.mendCw u (o / 32))
    if x.poison.getLsbD j then t.putPoison (o / 32) true else t

/-- The codewords of the dirty sectors of the line in way k are read through the decoder (R287). -/
def State.senseDirty (s : State) (u : Upsets) (h k : Nat) : State :=
  match s.lineAt k with
  | some x => (List.range 8).foldl (fun t j => if x.dirty.getLsbD (j / 2) then t.senseLine u h k j else t) s
  | none => s

/-- The dirty sectors of the line in way k go to the vault; dirty data of a dead line are dropped (R275, R285). -/
def State.writeBack (s : State) (u : Upsets) (h k : Nat) : State :=
  match s.lineAt k with
  | none => s
  | some d =>
    if d.dead then s
    else
      let m := d.upsetMask u
      let s1 := s.senseDirty u h k
      match s1.lineAt k with
      | some x => (List.range 8).foldl (fun t j =>
          if x.dirty.getLsbD (j / 2) then t.writeBackCw u { x with data := x.data ^^^ m } j else t) s1
      | none => s1

/-- The line in way k of half h is evicted. -/
def State.evict (s : State) (u : Upsets) (h k : Nat) : State :=
  match s.lineAt k with
  | some _ => (s.writeBack u h k).dropLine k
  | none => s

/-- The dirty line that allocating the absent line of an offset would evict stands at a port that is held, so that its write-back waits
there (R253, R258, R262). -/
def State.evictHeld (s : State) (o : Nat) : Bool :=
  let h := halfOf o
  let l := o / 256
  let held (w : Nat) : Bool := match s.lineAt (lineKey h l w) with
    | some x => !x.dead && x.dirty != 0 && s.portHeld (x.num * 256)
    | none => false
  (s.findWay h l).isNone &&
  match s.pinOf h l with
  | some _ => held (nth 15 (s.spareWays h l) 0)
  | none =>
    let ws := s.ordinaryWays h l
    !(ws.any (fun w => (s.lineAt (lineKey h l w)).isNone)) &&
      held (nth 0 ws (tget 0 s.replPtr ((h * 16 + sliceOf l) * 6144 + setOf l) % ws.length))

/-- A way for line l of half h, allocated with clear masks (R279, R280): the lowest-numbered invalid ordinary way, else the
ordinary way at the set's pointer, which advances over the ordinary ways. -/
def State.allocate (s : State) (u : Upsets) (h l : Nat) : State × Nat :=
  match s.pinOf h l with
  | some _ =>
    let w := nth 15 (s.spareWays h l) 0
    let k := lineKey h l w
    ((s.evict u h k).putLine k (newLine l true), k)
  | none =>
    let ws := s.ordinaryWays h l
    match ws.find? (fun w => (s.lineAt (lineKey h l w)).isNone) with
    | some w => let k := lineKey h l w; (s.putLine k (newLine l false), k)
    | none =>
      let pk := (h * 16 + sliceOf l) * 6144 + setOf l
      let p := tget 0 s.replPtr pk % ws.length
      let k := lineKey h l (nth 0 ws p)
      let t := (s.evict u h k).putLine k (newLine l false)
      ({ t with replPtr := tset 0 t.replPtr pk ((p + 1) % ws.length) }, k)

/-! ### Counting ordinary accesses (R284) -/

/-- A counting window that is full ends: with at least LIMIT misses the half raises its thrash event (R284). -/
def State.endWindow (s : State) (h : Nat) : State :=
  let x := s.half h
  let w := s.rdF (oScThrashCfg h) 0 16
  if w = 0 || decide (x.winAcc < w) then s
  else
    let s1 := s.putHalf h { x with winAcc := 0, winMiss := 0 }
    if s.rdF (oScThrashCfg h) 16 16 ≤ x.winMiss then
      (s1.wrF (oScStatus h) 4 1 1).raiseOwner .cache .ok { kind := 3, index := h }
    else s1

/-- An ordinary access, a hit or a miss, is counted (R284, R289). -/
def State.countAccess (s : State) (h : Nat) (miss : Bool) : State :=
  let s0 := s.endWindow h
  let s1 := s0.bump (oScAccesses h) 0 32 1
  let s2 := if miss then s1.bump (oScMisses h) 0 32 1 else s1
  let x := s2.half h
  s2.putHalf h { x with winAcc := x.winAcc + 1, winMiss := x.winMiss + b2n miss }

/-! ### An access at the slice (R274, R277, R285, R286) -/

/-- A read of n nibbles from nibble i of the line in way k, with the change m that the decoder leaves in its data. -/
def State.lineRead (s : State) (m : BitVec 1024) (k i n : Nat) : Reply :=
  match s.lineAt k with
  | none => Reply.only .ok
  | some x =>
    if x.dead then { st := .deadRead, data := List.replicate n 0xF#4, words := [] }
    else if (lineCws i n).any (fun j => x.poison.getLsbD j) then Reply.only .poisoned
    else { st := .ok, data := { x with data := x.data ^^^ m }.get i n, words := [] }

/-- A write of nibbles from nibble i of the line in way k: a dead line comes to life with xFF in every other byte (R286); a
codeword covered whole loses its poison (R287). UPDATE of a skipped step writes nothing (R223). -/
def State.lineWrite (s : State) (k i : Nat) (l : List Nib) (poison : Bool) : State :=
  match s.lineAt k with
  | none => s
  | some x =>
    if s.writesDropped (x.num * 256 + i) then s else
    let x0 := if x.dead then { x with data := BitVec.allOnes 1024, mask := BitVec.allOnes 128, dirty := 15#4,
                                      poison := 0, dead := false } else x
    let n := l.length
    let x1 := x0.put i l
    let x2 := { x1 with mask := (bytesOf i n).foldl (fun m b => putBit m b true) x1.mask,
                        dirty := (sectorsOf i n).foldl (fun m b => putBit m b true) x1.dirty }
    let x3 := { x2 with poison := (lineCws i n).foldl (fun m j =>
      if poison then putBit m j true
      else if decide (i ≤ 32 * j) && decide (32 * j + 32 ≤ i + n) then putBit m j false else m) x2.poison }
    let t := s.putLine k x3
    let y := t.half (halfOf (x.num * 256))
    t.putHalf (halfOf (x.num * 256)) { y with snoop := y.snoop.filter (fun e => e.1 != x.num) }

/-- The nibbles of a write that cover only half of a byte whose mask bit is clear need a fill first (R274). -/
def Line.needsFill (x : Line) (i n : Nat) : Bool :=
  (bytesOf i n).any (fun b => !x.mask.getLsbD b && (decide (2 * b < i) || decide (i + n < 2 * b + 2)))

/-- The access must wait for a fill at line state x: a read or atomic of a byte that is not valid, or such a write. A dead
line needs none. -/
def Line.waits (x : Line) (kind : AccKind) (i : Nat) : Bool :=
  !x.dead &&
  match kind with
  | .load n => !x.valid i n
  | .store l => x.needsFill i l.length
  | .atomic _ _ => !x.valid i 8
  | .post _ _ _ => false

/-- The way that holds the line of offset o, allocated where the line is absent, the access counted; whether it was
absent (R274, R284). -/
def State.touchLine (s : State) (u : Upsets) (o : Nat) (kind : AccKind) : State × Nat :=
  let h := halfOf o
  let l := o / 256
  let (s1, k, absent) := match s.findWay h l with
    | some w => (s, lineKey h l w, false)
    | none => let (t, k) := s.allocate u h l; (t, k, true)
  match s.pinOf h l with
  | some _ => (s1, k)
  | none =>
    let waits := match s1.lineAt k with
      | some x => x.waits kind (o % 256)
      | none => false
    (s1.countAccess h (absent || waits), k)

/-- RETIRE: the line of offset o is marked dead where a pin holds it, else the hint is counted (R285; DEDUCED, log 48). -/
def State.retireLine (s : State) (o : Nat) : State :=
  let h := halfOf o
  let l := o / 256
  match s.findWay h l with
  | some w =>
    match s.lineAt (lineKey h l w) with
    | some x => if x.pinned then s.putLine (lineKey h l w) { x with dead := true, dirty := 0 }
                else s.bump (oScRetire h) 0 16 1
    | none => s.bump (oScRetire h) 0 16 1
  | none => s.bump (oScRetire h) 0 16 1

/-- The data access in way k, its bytes valid as it needs them. -/
def State.lineApply (s : State) (u : Upsets) (h k : Nat) (kind : AccKind) (i : Nat) (poison : Bool) : State × Reply :=
  match kind with
  | .load n =>
    let t := ((lineCws i n).foldl (fun t j => t.senseLine u h k j) s).fillFor u k i n
    let r := t.lineRead (s.lineMask u k) k i n
    (if r.st = .deadRead then t.bump (oScRetire h) 16 16 1 else t, r)
  | .store l =>
    let part := (lineCws i l.length).filter (fun j => !(decide (i ≤ 32 * j) && decide (32 * j + 32 ≤ i + l.length)))
    ((part.foldl (fun t j => t.senseLine u h k j) s).lineWrite k i l poison, Reply.only .ok)
  | .atomic fn ops =>
    let t := ((lineCws i 8).foldl (fun t j => t.senseLine u h k j) s).fillFor u k i 8
    let r := t.lineRead (s.lineMask u k) k i 8
    if r.st = .ok then
      let (w, rets) := atomFold fn (BitVec.ofNat 32 (ofNibs r.data)) ops
      (t.lineWrite k i (nibsOf w.toNat 8) false, { st := .ok, data := [], words := rets })
    else (if r.st = .deadRead then t.bump (oScRetire h) 16 16 1 else t, r)
  | .post _ _ _ => (s, Reply.only .ok)

/-- A cached access of one line, its fill made at once: what a DMA beat does at the slice. -/
def State.cacheNow (s : State) (u : Upsets) (kind : AccKind) (o : Nat) (poison : Bool) : State × Reply :=
  let (s1, k) := s.touchLine u o kind
  let s2 := match s1.lineAt k with
    | some x => if x.waits kind (o % 256) then s1.fillFor u k (o % 256) kind.nibs else s1
    | none => s1
  s2.lineApply u (halfOf o) k kind (o % 256) poison

end Sys2Proof.Machine
end

