-- ==== Sys2Proof/Machine/Mesh.lean ====
section
/-! DEFINITION. The module's own network: mesh coordinates and routes (R45, R46, R240, R273, R294), the sources of its rotas (R42), and flits put on their way. -/

namespace Sys2Proof.Machine

/-! ### Coordinates of the mesh (R11, R12) -/

/-- Site row and site column of a site on the mesh of 112 by 112. -/
def meshRow (f site : Nat) : Nat := f / 8 * 14 + site / 14
def meshCol (f site : Nat) : Nat := f % 8 * 14 + site % 14

/-- The mesh link that leaves the site at a row and column in a direction: 0 north, 1 east, 2 south, 3 west. -/
def linkAt (row col dir : Nat) : RotaRes := .mesh (row / 14 * 8 + col / 14) (row % 14 * 14 + col % 14) dir

/-- The sources of a mesh rota: an originating site, and an edge port of arrival (R42; DESIGN CHOICE, log 127). -/
def siteSource (f site : Nat) : Nat := f * sites + site
def portSource (side line : Nat) : Nat := 20000 + side * 112 + line

/-- The side of the mesh on which a crescent lies: west where the flag holds, else east. -/
def sideOf (west : Bool) : Nat := if west then 3 else 1

/-! ### Routes (R45, R46) -/

/-- n links east or west along a row from a column, and n links north or south along a column from a row. -/
def eastward (row c n : Nat) : List RotaRes := (List.range n).map (fun i => linkAt row (c + i) 1)
def westward (row c n : Nat) : List RotaRes := (List.range n).map (fun i => linkAt row (c - i) 3)
def southward (col r n : Nat) : List RotaRes := (List.range n).map (fun i => linkAt (r + i) col 2)
def northward (col r n : Nat) : List RotaRes := (List.range n).map (fun i => linkAt (r - i) col 0)

/-- Along a row from one column to another, and along a column from one row to another. -/
def alongRow (row c c' : Nat) : List RotaRes := if c ≤ c' then eastward row c (c' - c) else westward row c (c - c')
def alongCol (col r r' : Nat) : List RotaRes := if r ≤ r' then southward col r (r' - r) else northward col r (r - r')

/-- From one site to another: first along the row, then along the column (R45). -/
def meshPath (r c r' c' : Nat) : List RotaRes := alongRow r c c' ++ alongCol c' r r'

/-- From a site along its own row into the edge port of a side (R45). -/
def toPort (west : Bool) (row c : Nat) : List RotaRes := if west then westward row c (c + 1) else eastward row c (112 - c)

/-- From the edge port of a side of a row along that row to a column (R46). -/
def fromPort (west : Bool) (row c : Nat) : List RotaRes :=
  .edge (sideOf west) row :: (if west then eastward row 0 c else westward row 111 (111 - c))

/-- From the edge port of arrival along a row to the far edge port (R294). -/
def acrossRow (west : Bool) (row : Nat) : List RotaRes :=
  .edge (sideOf west) row :: (if west then eastward row 0 112 else westward row 111 112)

/-- The links of a route with the source in whose slots they are crossed (R46, R296). -/
def asSource (id : Nat) (l : List RotaRes) : List (RotaRes × Nat) := l.map (fun r => (r, id))

/-- A link group lies on the west crescent (R15, R293). -/
def groupWest (g : Nat) : Bool := g == 1 || g == 3 || g == 5 || g == 6

/-- The site of a tile, and the home site and the site that holds an offset (R236, R240). -/
def State.tilePos (s : State) (t : Nat) : Nat × Nat := (t / 192, s.tileSite t)
def State.homePos (s : State) (o : Nat) : Nat × Nat := s.tilePos (tileOfOff o)

/-- From a home site to the spare vault that holds an offset, as a source of the home site (R240); none where the home vault holds it. -/
def State.spareHops (s : State) (o : Nat) : List (RotaRes × Nat) :=
  if o < vaultEnd then
    let l := s.vaultLoc o
    asSource (siteSource l.field l.home)
      (meshPath (meshRow l.field l.home) (meshCol l.field l.home) (meshRow l.field l.site) (meshCol l.field l.site))
  else []

/-- The same way back (R240). -/
def State.spareBack (s : State) (o : Nat) : List (RotaRes × Nat) :=
  if o < vaultEnd then
    let l := s.vaultLoc o
    asSource (siteSource l.field l.home)
      (meshPath (meshRow l.field l.site) (meshCol l.field l.site) (meshRow l.field l.home) (meshCol l.field l.home))
  else []

/-- From the site of one tile to that of another (R45). -/
def State.tileHops (s : State) (t h : Nat) : List (RotaRes × Nat) :=
  let (f, x) := s.tilePos t
  let (g, y) := s.tilePos h
  asSource (siteSource f x) (meshPath (meshRow f x) (meshCol f x) (meshRow g y) (meshCol g y))

/-- From the tile of a thread to the home of an offset, and back (R45, R240). -/
def State.hopsToHome (s : State) (t o : Nat) : List (RotaRes × Nat) := s.tileHops t (tileOfOff o) ++ s.spareHops o
def State.hopsFromHome (s : State) (t o : Nat) : List (RotaRes × Nat) := s.spareBack o ++ s.tileHops (tileOfOff o) t

/-- The near half of a tile: the half on the side of its field column (R273). -/
def nearHalf (t : Nat) : Nat := if t / 192 % 8 < 4 then 0 else 1

/-- From the tile of a thread to slice n of half h: to the near half's edge port of its own row, through the slice there, and over the
inter-half link where the near half is not h (R18, R273); and the same way back. -/
def State.sliceHops (s : State) (t h n : Nat) : List (RotaRes × Nat) :=
  let (f, x) := s.tilePos t
  let near := nearHalf t
  let port := portSource (sideOf (near == 0)) (meshRow f x)
  asSource (siteSource f x) (toPort (near == 0) (meshRow f x) (meshCol f x)) ++ [(.slice near n, port)] ++
    (if h = near then [] else [(.interHalf near, n), (.slice h n, port)])
def State.sliceBack (s : State) (t h n : Nat) : List (RotaRes × Nat) :=
  let (f, x) := s.tilePos t
  let near := nearHalf t
  (if h = near then [] else [(RotaRes.interHalf h, n)]) ++
    asSource (portSource (sideOf (near == 0)) (meshRow f x)) (fromPort (near == 0) (meshRow f x) (meshCol f x))

/-- From the tile of a thread to the home slice of an offset, and back (R273). -/
def State.hopsToSlice (s : State) (t o : Nat) : List (RotaRes × Nat) := s.sliceHops t (halfOf o) (sliceOf (o / 256))
def State.hopsFromSlice (s : State) (t o : Nat) : List (RotaRes × Nat) := s.sliceBack t (halfOf o) (sliceOf (o / 256))

/-- From a site along its own row to the edge port of a group's crescent (R45, R294). -/
def hopsToGroup (f site g : Nat) : List (RotaRes × Nat) :=
  asSource (siteSource f site) (toPort (groupWest g) (meshRow f site) (meshCol f site))

/-- From the edge port on the crescent of link k along the row of a site to it (R46). -/
def hopsFromLink (k f site : Nat) : List (RotaRes × Nat) :=
  asSource (portSource (sideOf (groupWest (k / 8))) (meshRow f site))
    (fromPort (groupWest (k / 8)) (meshRow f site) (meshCol f site))

/-- Through this module from link k to a link of group g: on the crescent's link-to-link path, or along a row of the mesh in the slots
of the edge port of arrival (R294, R332). -/
def hopsThrough (k g row : Nat) : List (RotaRes × Nat) :=
  if groupWest (k / 8) = groupWest g then []
  else asSource (portSource (sideOf (groupWest (k / 8))) row) (acrossRow (groupWest (k / 8)) row)

/-! ### Flits on their way -/

/-- An access put behind those that wait at their home (R46, R58). -/
def State.atHome (s : State) (a : Access) : State := { s with homeQ := s.homeQ ++ [a] }

/-- A flit put on the module's network, behind those already there. -/
def State.depart (s : State) (hops : List (RotaRes × Nat)) (c : Cargo) : State :=
  { s with transit := s.transit ++ [{ hops := hops, cargo := c }] }

/-- The access needs the operand areas of two flits: a combined CAS of more than 28 lanes (R319). -/
def Access.pair (a : Access) : Bool :=
  match a.kind with
  | .atomic .cas ops => decide (28 < ops.length)
  | _ => false

/-- An access sent to its home over the hops given, a pair in two slots of each; it is there at once where there is none. -/
def State.sendHome (s : State) (hops : List (RotaRes × Nat)) (a : Access) : State :=
  if hops.isEmpty then s.atHome a else s.depart (if a.pair then hops.flatMap (fun h => [h, h]) else hops) (.request a)

/-- A flit sent to the interface of a link over the hops given. -/
def State.sendLink (s : State) (hops : List (RotaRes × Nat)) (k : Nat) (f : Flit) : State :=
  if hops.isEmpty then s.enqueue k f else s.depart hops (.depart k f)

end Sys2Proof.Machine
end

