-- ==== Sys2Proof/Machine/Dma.lean ====
section
/-! DEFINITION. DMA channels (12_dma.md): the descriptor, the checks at start, runs and pieces, packing, and completion. -/

namespace Sys2Proof.Machine

/-! ### Channels and their registers (R347, R348, R365) -/

/-- The number of a channel in the state: field channel c of field f is 8f + c, host channel h is 512 + h. -/
def dmaKey : DmaCh → Nat
  | .field f c => f * 8 + c
  | .host h => 512 + h

/-- The offset of a channel's registers (R365). -/
def dmaBase (k : Nat) : Nat := if k < 512 then (Blk.fdma (k / 8) (k % 8)).base else (Blk.hdma (k - 512)).base

/-- `DMA_CTRL`, `DMA_STATUS` and `DMA_DONE` of a channel. -/
def oDmaCtrl (k : Nat) : Nat := dmaBase k + 0x78
def oDmaStatus (k : Nat) : Nat := dmaBase k + 0x80
def oDmaDone (k : Nat) : Nat := dmaBase k + 0x88

/-- Registers x00 to x78 of a channel (R357). -/
def State.dmaRegs (s : State) (k : Nat) : List Word := (List.range 16).map (fun i => s.rd (dmaBase k + 8 * i))

/-- The channel is busy (R365). -/
def State.dmaBusy (s : State) (k : Nat) : Bool := flag (s.rd (oDmaStatus k)) 0

/-- A channel as a report source (R474). -/
def dmaSrc (k : Nat) : Src := if k < 512 then { kind := 1, index := k / 8 * 256 + k % 8 } else { kind := 6, index := k - 512 }

/-! ### The descriptor (R351 to R356, R365) -/

/-- A transfer's registers as numbers. Addresses and steps of a host side are in nibbles here, two a byte (R4). -/
structure DmaDesc where
  src : Nat
  dst : Nat
  count : Nat
  l1 : Nat
  l2 : Nat
  l3 : Nat
  ss : List Int
  ds : List Int
  dir : Nat
  srcHost : Bool
  dstHost : Bool
  /-- Widths in nibbles; 0 for a reserved code. -/
  sw : Nat
  dw : Nat
  swap : Nat
  mode : Nat
  rcast : Bool
  rfields : Nat
  deriving DecidableEq, Repr

/-- The descriptor that 16 registers hold. -/
def dmaDesc (r : List Word) : DmaDesc :=
  let g (i : Nat) : Nat := (nth 0#32 r i).toNat
  let c := nth 0#32 r 15
  let wd (x : Nat) : Nat := if x < 6 then 2 ^ x else 0
  let sh := flag c 0
  let dh := flag c 1
  let st (i : Nat) (h : Bool) : Int := signedOf (g i) 32 * (if h then 2 else 1)
  { src := (g 1 * 2 ^ 32 + g 0) * (if sh then 2 else 1), dst := (g 3 * 2 ^ 32 + g 2) * (if dh then 2 else 1),
    count := g 4 % 2 ^ 24, l1 := g 5 % 65536, l2 := g 5 / 65536, l3 := g 6 % 65536,
    ss := [st 7 sh, st 9 sh, st 11 sh], ds := [st 8 dh, st 10 dh, st 12 dh],
    dir := g 13 + g 14 % 4096 * 2 ^ 32, srcHost := sh, dstHost := dh, sw := wd (fld c 2 3), dw := wd (fld c 5 3),
    swap := fld c 8 2, mode := fld c 10 2, rcast := flag c 12, rfields := fld c 13 8 }

/-- The number of runs. -/
def DmaDesc.runs (d : DmaDesc) : Nat := d.l1 * d.l2 * d.l3

/-- Source and destination address of run r (R351). -/
def DmaDesc.at (base : Nat) (steps : List Int) (d : DmaDesc) (r : Nat) : Int :=
  let i1 := r % d.l1
  let i2 := r / d.l1 % d.l2
  let i3 := r / d.l1 / d.l2
  (base : Int) + i1 * nth 0 steps 0 + i2 * nth 0 steps 1 + i3 * nth 0 steps 2
def DmaDesc.srcAt (d : DmaDesc) (r : Nat) : Nat := (DmaDesc.at d.src d.ss d r).toNat
def DmaDesc.dstAt (d : DmaDesc) (r : Nat) : Nat := (DmaDesc.at d.dst d.ds d r).toNat

/-- The size that R363 gives a packed row for the checks at start. -/
def DmaDesc.packRow (d : DmaDesc) : Nat := cdiv (cdiv (131 * d.count) 128) 8 * 8

/-- Lowest and highest nibble that the runs of one side reach (R358). -/
def extentOf (d : DmaDesc) (base : Nat) (steps : List Int) : Int × Int :=
  let ls := [d.l1, d.l2, d.l3]
  let span := List.zipWith (fun (l : Nat) (st : Int) => st * ((l : Int) - 1)) ls steps
  (span.foldl (fun m x => if x < 0 then m + x else m) (base : Int),
   span.foldl (fun m x => if 0 < x then m + x else m) (base : Int) + d.count - 1)

/-- The extent of the source and of the destination, the directory apart (R358, R363). -/
def DmaDesc.srcExtent (d : DmaDesc) : Int × Int :=
  if d.mode = 2 then ((d.src : Int), (d.src + d.runs * d.packRow : Nat) - 1) else extentOf d d.src d.ss
def DmaDesc.dstExtent (d : DmaDesc) : Int × Int :=
  if d.mode = 1 then ((d.dst : Int), (d.dst + d.runs * d.packRow : Nat) - 1) else extentOf d d.dst d.ds

/-- The extent of the directory, as a local extent (R363). -/
def DmaDesc.dirExtent (d : DmaDesc) : Int × Int := ((d.dir : Int), (d.dir + d.runs * 8 : Nat) - 1)

/-- Class, module and reserved bits of a side's base, and an extent's offsets. -/
def offOf (x : Int) (base : Nat) : Int := x - (base - bits base 0 44 : Nat)

/-- An extent of a module side lies in a populated range (R28). -/
def extentPopulated (e : Int × Int) (base : Nat) : Bool :=
  let lo := offOf e.1 base
  let hi := offOf e.2 base
  decide (0 ≤ lo) && populated lo.toNat (hi + 1 - lo).toNat

/-- Two local extents overlap. -/
def overlaps (a b : Int × Int) : Bool := decide (a.1 ≤ b.2) && decide (b.1 ≤ a.2)

/-- The field of a channel. -/
def chField (k : Nat) : Nat := k / 8

/-- The destination offsets of a broadcast: one extent per selected field of the row, as a shift of the destination
(R364). -/
def castShifts (k : Nat) (d : DmaDesc) : List Int :=
  let fd := tileOfOff (bits d.dst 0 44) / 192
  let row := chField k / 8
  ((List.range 8).filter (fun c => d.rfields.testBit c)).map (fun c =>
    192 * (((8 * row + c : Nat) : Int) - (fd : Int)) * (tsSize : Int))

/-- The destination shifts of a transfer: zero alone, but for a broadcast. -/
def shiftsOf (k : Nat) (d : DmaDesc) : List Int := if d.rcast then castShifts k d else [0]

/-- The first row of R358: reserved values, R353, R355, R356, the packing rules, and the alignment of raw B16 rows (R66). -/
def dmaFormOk (k : Nat) (d : DmaDesc) : Bool :=
  let host := decide (512 ≤ k)
  let kinds := if host then d.srcHost != d.dstHost else !d.srcHost && !d.dstHost
  let plain (h : Bool) (a : Nat) : Bool := h || bits a 44 8 == 0
  let loops := decide (0 < d.count) && decide (0 < d.l1) && decide (0 < d.l2) && decide (0 < d.l3)
  let widths := decide (0 < d.sw) && decide (0 < d.dw)
  let al (w : Nat) (steps : List Int) : Bool :=
    (List.zip [d.l1, d.l2, d.l3] steps).all (fun e => decide (e.1 ≤ 1) || decide (e.2 % (w : Int) = 0))
  let anyHost := d.srcHost || d.dstHost
  let zero (steps : List Int) : Bool := (List.zip [d.l1, d.l2, d.l3] steps).all (fun e => decide (e.1 ≤ 1) || decide (e.2 = 0))
  kinds && plain d.srcHost d.src && plain d.dstHost d.dst && loops && decide (d.mode < 3) &&
  (if d.mode = 0 then
    widths && decide (d.count % d.sw = 0) && decide (d.count % d.dw = 0) && decide (d.src % d.sw = 0) &&
    decide (d.dst % d.dw = 0) && al d.sw d.ss && al d.dw d.ds &&
    (!d.srcHost || decide (2 ≤ d.sw)) && (!d.dstHost || decide (2 ≤ d.dw)) && (!anyHost || decide (d.count % 2 = 0)) &&
    decide (d.swap < 3) && (d.swap != 1 || decide (4 ≤ d.sw)) && (d.swap != 2 || decide (8 ≤ d.sw))
  else
    !host && decide (d.swap = 0) && decide (d.count % 128 = 0) && decide (d.dir % 8 = 0) &&
    (if d.mode = 1 then zero d.ds && decide (d.runs * d.packRow ≤ 2 ^ 32) && decide (d.src % 4 = 0) && al 4 d.ss
     else zero d.ss && decide (d.dst % 4 = 0) && al 4 d.ds)) &&
  (!d.rcast || (!host && decide (d.mode = 0)))

/-- The placement of a broadcast (R364). -/
def State.castOk (s : State) (k : Nat) (d : DmaDesc) : Bool :=
  let o := bits d.dst 0 44
  let t := tileOfOff o
  let fd := t / 192
  let e := d.dstExtent
  let lo := offOf e.1 d.dst
  let hi := offOf e.2 d.dst
  (bits d.dst 62 2 == 0 || (bits d.dst 62 2 == 1 && bits d.dst 52 10 == s.moduleId)) &&
  decide (tsBase ≤ o) && decide (o < tsEnd) && decide (fd / 8 = chField k / 8) && d.rfields.testBit (fd % 8) &&
  decide ((storeBase t : Int) ≤ lo) && decide (hi < (storeBase t + tsSize : Nat))

/-- A module side lies in this module. -/
def State.mineSide (s : State) (h : Bool) (a : Nat) : Bool :=
  !h && (bits a 62 2 == 0 || (bits a 62 2 == 1 && bits a 52 10 == s.moduleId))

/-- The module that a module side names. -/
def State.sideModule (s : State) (a : Nat) : Nat := if bits a 62 2 = 1 then bits a 52 10 else s.moduleId

/-- The partition of a valid region of some kind, either copy, that an extent of offsets meets. -/
def State.extentMeets (s : State) (e : Int × Int) (kind : Region → Bool) : Option Nat :=
  (s.regions.find? (fun x => x.2.valid && kind x.2 &&
    (overlaps e ((x.2.base * unit16 : Nat), ((x.2.base + x.2.len) * unit16 : Nat) - 1) ||
     (x.2.staged && overlaps e ((x.2.alt * unit16 : Nat), ((x.2.alt + x.2.len) * unit16 : Nat) - 1))))).map (·.2.part)

/-- An extent of offsets meets a fenced region of this module (R208). -/
def State.fencedExtent (s : State) (e : Int × Int) : Option Nat := s.extentMeets e s.fenced

/-- The checks at start, in table order (R358): the status that completes the transfer at once, and the partition whose
fence it meets. -/
def State.dmaCheck (s : State) (k : Nat) (d : DmaDesc) : Status × Option Nat :=
  let cls (h : Bool) (a : Nat) : Bool := !h && decide (2 ≤ bits a 62 2)
  let se := d.srcExtent
  let de := d.dstExtent
  let so := (offOf se.1 d.src, offOf se.2 d.src)
  let dsts := (shiftsOf k d).map (fun x => (offOf de.1 d.dst + x, offOf de.2 d.dst + x))
  let dirs := if d.mode = 0 then [] else [d.dirExtent]
  let dirPop := dirs.all (fun e => extentPopulated e 0)
  if !dmaFormOk k d then (.badDescriptor, none)
  else if cls d.srcHost d.src || cls d.dstHost d.dst then (.notAuthorized, none)
  else if d.rcast && !s.castOk k d then (.badDescriptor, none)
  else if (!d.srcHost && !extentPopulated se d.src) || (!d.dstHost && !extentPopulated de d.dst) || !dirPop then
    (.badDescriptor, none)
  else if decide (k < 512) && s.sideModule d.src == s.sideModule d.dst && dsts.any (fun e => overlaps so e) then
    (.badDescriptor, none)
  else if d.mode = 1 && s.mineSide false d.src && dirs.any (fun e => overlaps so e) then (.badDescriptor, none)
  else if d.mode = 2 && s.mineSide false d.dst && dsts.any (fun e => dirs.any (fun x => overlaps e x)) then
    (.badDescriptor, none)
  else
    let mine := (if s.mineSide d.dstHost d.dst then dsts else []) ++ (if d.mode = 1 then dirs else [])
    match (mine.filterMap s.fencedExtent).head? with
    | some p => (.weightFenced, some p)
    | none => (.ok, none)

/-! ### Completion (R359, R360) -/

/-- The status of a transfer from those it met (R359). -/
def metStatus (l : List Status) : Status :=
  ([.jobTorn, .keyMismatch, .notAuthorized, .weightFenced, .badDescriptor, .poisoned, .deadRead].find?
    (fun x => l.contains x)).getD .ok

/-- A channel completes with a status: BUSY falls, RESULT is written, and a waiting ring command completes. -/
def State.dmaFinish (s : State) (k : Nat) (st : Status) : State :=
  let cmd := match tfind s.dma k with
    | some x => x.cmd
    | none => none
  let s1 := { s with dma := tdel s.dma k }
  let s2 := (s1.wrF (oDmaStatus k) 0 1 0).wrF (oDmaStatus k) 1 8 st.code
  match cmd with
  | some (r, q) => s2.ringDone r q st 0 0
  | none => s2

/-- A transfer starts with the registers of its channel: DONE is cleared, and a check that fails completes it at once
(R357, R358). -/
def State.dmaStart (s : State) (k : Nat) (part : Option Nat) (cmd : Option (Nat × Nat)) : State :=
  let r := s.dmaRegs k
  let d := dmaDesc r
  let x : Xfer := { regs := r, part := part, run := 0, off := 0, runs := d.runs, away := 0, met := [], stop := false,
                    pos := 0, nibs := 0, readBack := false, cmd := cmd }
  let s1 := (({ s with dma := tput s.dma k x }).wr (oDmaDone k) 0).wrF (oDmaStatus k) 0 1 1
  match s1.dmaCheck k d with
  | (.ok, _) => s1
  | (st, some p) => (s1.fenceHit p (dmaSrc k)).dmaFinish k st
  | (st, none) => s1.dmaFinish k st

/-- Registers x00 to x78 loaded from an image; bit [31] of the last is START, which reads zero (R357). -/
def State.dmaLoad (s : State) (k : Nat) (img : List Word) : State :=
  (List.range 16).foldl (fun t i =>
    let v := nth 0#32 img i
    let m := match regRow (dmaBase k + 8 * i) with
      | some r => r.mask .rw
      | none => 0
    t.wr (dmaBase k + 8 * i) (v &&& m)) s

/-! ### Accesses of a channel (R301, R353) -/

/-- An access of a channel, the runtime or the TAP at this module, served whole (DESIGN CHOICE, log 27). -/
def State.accessNow (s : State) (u : Upsets) (a : Access) : State × Reply :=
  match s.homeTests a with
  | .ok =>
    match s.regionAt a.off with
    | some (_, r) =>
      if a.kind.isLoad && s.sharedPoison a then (s, Reply.only .poisoned)
      else if r.cached then s.cacheNow u a.kind (r.phys a.off) a.poison
      else s.applyAt u a.kind (r.phys a.off) a.poison
    | none => s.applyAt u a.kind a.off a.poison
  | _ => s.applyHome u a

/-- The access of a channel to offset o of this module. -/
def State.dmaAccess (s : State) (part : Option Nat) (fabric : Bool) (o : Nat) (kind : AccKind) (poison : Bool) : Access :=
  { origin := .runtime, part := part.getD 0, key := match part with
      | some p => s.keyFor p s.moduleId o
      | none => noKey,
    runtime := part.isNone, fabric := fabric, off := o, kind := kind, retire := false, poison := poison, waitFill := false }

/-- A status that stops a transfer (R359). -/
def stopsDma (st : Status) : Bool := st != .ok && st != .poisoned && st != .deadRead

/-- A status met by a transfer is noted. -/
def Xfer.meet (x : Xfer) (st : Status) : Xfer :=
  if st = .ok then x else { x with met := x.met ++ [st], stop := x.stop || stopsDma st }

/-! ### Swap and the stream (R354, R356) -/

/-- The nibble of the source unit that stream nibble i of the unit comes from. -/
def swapIdx (swap w i : Nat) : Nat :=
  if swap = 1 then w - 2 - i / 2 * 2 + i % 2 else if swap = 2 then w - 4 - i / 4 * 4 + i % 4 else i

/-- The source nibble of a run, counted from the run's start, that stream nibble j comes from. -/
def DmaDesc.srcNib (d : DmaDesc) (j : Nat) : Nat := j / d.sw * d.sw + swapIdx d.swap d.sw (j % d.sw)

/-- The length of the piece of a run from nibble off: up to the next 128-n boundary of the destination (R350). -/
def DmaDesc.pieceLen (d : DmaDesc) (run off : Nat) : Nat :=
  let a := (DmaDesc.dstAt d run + off) % 128
  Nat.min (128 - a) (d.count - off)

/-! ### Packing (R212, R213, R363) -/

/-- The delta width of a block of biased exponents (R213). -/
def deltaWidth (es : List Nat) : Nat :=
  let e0 := es.foldl Nat.max 0
  ((List.range 8).map (· + 1)).find? (fun w => es.all (fun e => decide (e = 0) || decide (e0 - e ≤ 2 ^ w - 2))) |>.getD 8

/-- The nibbles of the packed form of 32 B16 codes (R212). -/
def packBlock (cs : List Nat) : List Nib :=
  let es := cs.map (fun c => bits c 7 8)
  let e0 := es.foldl Nat.max 0
  let w := if es.all (· == 0) then 1 else deltaWidth es
  let codes := es.map (fun e => if e = 0 then 2 ^ w - 1 else e0 - e)
  let delta := (List.zip (List.range 32) codes).foldl (fun m x => m + x.2 <<< (w * x.1)) 0
  nibsOf e0 2 ++ nibsOf (w - 1) 1 ++ cs.flatMap (fun c => nibsOf (bits c 15 1 * 128 + bits c 0 7) 2) ++
    nibsOf delta (8 * w)

/-- The B16 codes of a packed block and its length; no codes where the block is malformed (R213, R363). -/
def unpackBlock (l : List Nib) : List Nat × Nat :=
  let e0 := ofNibs (l.take 2)
  let wm := ofNibs ((l.drop 2).take 1)
  let w := wm % 8 + 1
  let delta := ofNibs ((l.drop 67).take (8 * w))
  let codes := (List.range 32).map (fun k => bits delta (w * k) w)
  let bad := decide (8 ≤ wm) || codes.any (fun c => decide (c ≠ 2 ^ w - 1) && decide (e0 ≤ c))
  if bad then ([], 67 + 8 * w)
  else
    ((List.range 32).map (fun k =>
      let c := nth 0 codes k
      let sf := ofNibs ((l.drop (3 + 2 * k)).take 2)
      let e := if c = 2 ^ w - 1 then 0 else e0 - c
      sf / 128 * 32768 + e * 128 + sf % 128), 67 + 8 * w)

/-- The packed blocks of a row of raw nibbles with a poison mark per nibble: nibbles and a mark per nibble (R363). -/
def packRow : Nat → List Nib → List Bool → List (Nib × Bool)
  | 0, _, _ => []
  | n + 1, l, ps =>
    let blk := l.take 128
    let cs := (List.range 32).map (fun k => ofNibs ((blk.drop (4 * k)).take 4))
    let bad := (ps.take 128).any (·)
    (packBlock cs).map (fun x => (x, bad)) ++ packRow n (l.drop 128) (ps.drop 128)

/-- The raw nibbles of a packed row of n blocks, with marks; and the packed length read (R363). -/
def unpackRow : Nat → List Nib → List Bool → List (Nib × Bool) × Nat
  | 0, _, _ => ([], 0)
  | n + 1, l, ps =>
    let (cs, len) := unpackBlock l
    let bad := cs.isEmpty || (ps.take len).any (·)
    let raw := if cs.isEmpty then List.replicate 128 (0#4) else cs.flatMap (fun c => nibsOf c 4)
    let (r, m) := unpackRow n (l.drop len) (ps.drop len)
    (raw.map (fun x => (x, bad)) ++ r, len + m)

/-! ### Reading and writing a piece -/

/-- A span of this module's memory read for a channel in units of n nibbles: the nibbles with poison marks, and the
statuses met. -/
def State.readUnits (s : State) (u : Upsets) (part : Option Nat) (fabric : Bool) (w : Nat) :
    Nat → Nat → State × List (Nib × Bool) × List Status
  | 0, _ => (s, [], [])
  | n + 1, o =>
    let (s1, r) := s.accessNow u (s.dmaAccess part fabric o (.load w) false)
    let here := if r.st = .ok || r.st = .deadRead then r.data.map (fun x => (x, false))
      else List.replicate w (0#4, true)
    let (s2, rest, ms) := State.readUnits s1 u part fabric w n (o + w)
    (s2, here ++ rest, r.st :: ms)

/-- Marked nibbles written to this module's memory in units of w nibbles; a unit with a mark writes its codewords poisoned
(R359). The state, the nibbles written, and the first status that is not OK. -/
def State.writeUnits (s : State) (u : Upsets) (part : Option Nat) (fabric : Bool) (w : Nat) :
    Nat → Nat → List (Nib × Bool) → State × Nat × Status
  | 0, _, _ => (s, 0, .ok)
  | n + 1, o, l =>
    if l.isEmpty then (s, 0, .ok)
    else
      let x := l.take w
      let (s1, r) := s.accessNow u (s.dmaAccess part fabric o (.store (x.map (·.1))) (x.any (·.2)))
      if r.st = .ok then
        let (s2, m, st) := State.writeUnits s1 u part fabric w n (o + w) (l.drop w)
        (s2, m + x.length, st)
      else (s1, 0, r.st)

/-- The marks of a piece widened to whole destination codewords (R359). -/
def widenMarks (o : Nat) (l : List (Nib × Bool)) : List (Nib × Bool) :=
  let bad := ((List.zip (List.range l.length) l).filter (fun e => e.2.2)).map (fun e => (o + e.1) / 32)
  (List.zip (List.range l.length) l).map (fun e => (e.2.1, bad.contains ((o + e.1) / 32)))

/-- A global address of a side moved to another offset. -/
def sideAddr (base : Nat) (a : Nat) : Long := BitVec.ofNat 64 (base - bits base 0 44 + bits a 0 44)

/-- DMA_DONE: nibbles written in units of 16 n, stopping at its largest value (R365). -/
def State.dmaWrote (s : State) (k : Nat) (x : Xfer) (n : Nat) : State × Xfer :=
  let y := { x with nibs := x.nibs + n }
  (s.wr (oDmaDone k) (BitVec.ofNat 32 (Nat.min (y.nibs / 16) 0xFFFFFFFF)), y)

/-- The transfer of a channel written. -/
def State.putXfer (s : State) (k : Nat) (x : Xfer) : State := { s with dma := tput s.dma k x }

/-- The number of the next operation of this module and the state after it is taken (R318). -/
def State.newTag (s : State) : Nat × State :=
  (s.keeper.nextTag, { s with keeper := { s.keeper with nextTag := (s.keeper.nextTag + 1) % 65536 } })

/-- A request to another module is opened: its body and the state that waits for the response under its tag (R302, R318; DEDUCED,
log 54). -/
def State.openOp (s : State) (o : Origin) (part tile : Nat) (runtime : Bool) (a : Long) (kind : AccKind) : ReqBody × State :=
  let m := addrModule a
  let key := if runtime then noKey else s.keyFor part m (addrOff a)
  let (t, s1) := s.newTag
  ({ addr := a, kind := kind, tag := t, key := key, tile := tile,
     pair := match kind with
       | .atomic .cas ops => decide (28 < ops.length)
       | _ => false,
     second := false },
   { s1 with ops := s1.ops ++ [{ tag := t, origin := o, part := part, module := m, off := addrOff a }] })

/-- An operation of a DMA channel or of the runtime sent to another module (R302). -/
def State.sendOp (s : State) (o : Origin) (part tile : Nat) (runtime poison : Bool) (a : Long) (kind : AccKind) : State :=
  let (b, s1) := s.openOp o part tile runtime a kind
  s1.sendFlit (addrModule a) (addrOff a) part runtime poison (.req b)

/-- The destination address of the last unit that a transfer writes, and its nibbles: a unit of its width for a copy, 8 n for packed
and unpacked rows (R360; DEDUCED, log 53). -/
def Xfer.lastUnit (x : Xfer) (d : DmaDesc) : Nat × Nat :=
  if d.mode = 0 then (d.dstAt (x.runs - 1) + d.count - d.dw, d.dw)
  else if d.mode = 1 then (d.dst + x.pos - 8, 8)
  else (d.dstAt (x.runs - 1) + d.count - 8, 8)

/-- The read-back of the last destination unit is asked for (R360): from the host by a read TLP, from another module by a load whose
response is no data of the transfer. In this module it is read when it returns. -/
def State.askReadBack (s : State) (k : Nat) (x : Xfer) : State :=
  let d := dmaDesc x.regs
  let (a, n) := x.lastUnit d
  let s1 := s.putXfer k { x with readBack := true }
  if d.dstHost then
    let ring := fld (s.rd (oHostDmaRing ((k - 512) / 4))) (8 * ((k - 512) % 4)) 8
    let s2 := s1.emit (.rd (ringFn ring) (a / 2) (n / 2) s.host.nextTag)
    { s2 with host := { s2.host with nextTag := s.host.nextTag + 1 } }
  else if s.mineSide false d.dst || !(s.route (s.sideModule d.dst)).valid then s1
  else s1.sendOp (.dma k true x.runs 0 0) (x.part.getD 0) (chField k * 192) x.part.isNone false (sideAddr d.dst a) (.load n)

/-- A transfer that has stopped and has nothing away completes (R359); one whose last piece is written asks for its
read-back (R360). -/
def State.dmaSettle (s : State) (k : Nat) : State :=
  match tfind s.dma k with
  | none => s
  | some x =>
    if x.away != 0 then s
    else if x.stop then s.dmaFinish k (metStatus x.met)
    else if x.runs ≤ x.run && !x.readBack then s.askReadBack k x
    else s

/-- The nibbles of a piece, in stream order from nibble off of the run, written at the destination (R354, R359). A module
destination is written in units of its width; another module's and the host's as one access. -/
def State.dmaWrite (s : State) (u : Upsets) (k : Nat) (x : Xfer) (d : DmaDesc) (run off : Nat) (dst : Nat)
    (l : List (Nib × Bool)) : State :=
  if d.dstHost then
    let v := ofNibs (l.map (·.1))
    let ring := fld (s.rd (oHostDmaRing ((k - 512) / 4))) (8 * ((k - 512) % 4)) 8
    let (s1, y) := (s.emit (.wr (ringFn ring) (dst / 2) (l.length / 2) v (l.any (·.2)))).dmaWrote k x l.length
    (s1.putXfer k y).dmaSettle k
  else if s.mineSide false d.dst then
    let fabric := bits d.dst 62 2 == 1
    let o := bits dst 0 44
    let w := if d.mode = 0 then d.dw else 32 - o % 32
    let m := widenMarks o l
    let step (acc : State × Nat × Status) (sh : Int) : State × Nat × Status :=
      let (t, _, st) := acc
      if st != .ok then acc
      else if d.mode = 0 then t.writeUnits u x.part fabric w (l.length / w) ((o : Int) + sh).toNat m
      else
        -- packed or unpacked rows: the first codeword's rest, then whole codewords
        let (t1, n1, st1) := t.writeUnits u x.part fabric w 1 o (m.take w)
        if st1 != .ok then (t1, n1, st1)
        else let (t2, n2, st2) := t1.writeUnits u x.part fabric 32 (l.length / 32 + 1) (o + w) (m.drop w)
             (t2, n1 + n2, st2)
    let (s1, n, st) := (shiftsOf k d).foldl step (s, 0, .ok)
    let (s2, y) := s1.dmaWrote k (x.meet st) n
    (s2.putXfer k y).dmaSettle k
  else if !(s.route (s.sideModule d.dst)).valid then (s.putXfer k (x.meet .badDescriptor)).dmaSettle k
  else
    let bad := l.any (·.2)
    let y := { x with away := x.away + 1 }
    (s.putXfer k y).sendOp (.dma k false run off l.length) (x.part.getD 0) (chField k * 192) x.part.isNone bad
      (sideAddr d.dst dst) (.store (l.map (·.1)))

/-! ### One piece (R350, R363) -/

/-- The data of a copy piece, from the nibbles of the source units that cover it. -/
def DmaDesc.pick (d : DmaDesc) (off n : Nat) (l : List (Nib × Bool)) : List (Nib × Bool) :=
  let first := off / d.sw * d.sw
  (List.range n).map (fun i => nth (0#4, true) l (d.srcNib (off + i) - first))

/-- The source span of a piece: nibble offset in the run and nibbles. -/
def DmaDesc.srcSpan (d : DmaDesc) (off n : Nat) : Nat × Nat :=
  let first := off / d.sw * d.sw
  (first, cdiv (off + n) d.sw * d.sw - first)

/-- The source data of a piece have arrived: they are swapped, packed or unpacked, and written. -/
def State.dmaData (s : State) (u : Upsets) (k : Nat) (x : Xfer) (run off n : Nat) (l : List (Nib × Bool)) : State :=
  let d := dmaDesc x.regs
  if d.mode = 0 then s.dmaWrite u k x d run off (d.dstAt run + off) (d.pick off n l)
  else if d.mode = 1 then
    let row := packRow (d.count / 128) (l.map (·.1)) (l.map (·.2))
    let pad := (8 - row.length % 8) % 8
    let x1 := if l.any (·.2) then x.meet .poisoned else x
    let ent := x1.pos
    let (s1, _, st) := s.writeUnits u x1.part false 8 1 (d.dir + 8 * run) ((nibsOf ent 8).map (fun v => (v, false)))
    let x2 := { x1.meet st with pos := x1.pos + row.length + pad }
    if st != .ok then (s1.putXfer k x2).dmaSettle k
    else s1.dmaWrite u k x2 d run 0 (d.dst + ent) (row ++ List.replicate pad (0#4, false))
  else
    -- off is the row's directory entry here
    let (raw, len) := unpackRow (d.count / 128) (l.map (·.1)) (l.map (·.2))
    if d.runs * d.packRow < off + len then (s.putXfer k (x.meet .badDescriptor)).dmaSettle k
    else
      let x1 := if raw.any (·.2) then x.meet .poisoned else x
      s.dmaWrite u k x1 d run 0 (d.dstAt run) raw

/-- The blocks of a packed row in this module, read one after the other: a block's width is known once its third nibble is
read, and where that nibble is poisoned the blocks behind it cannot be found and count as poisoned (R363, DEDUCED, log 15). A row
that leaves the span ending before `fin` meets BAD_DESCRIPTOR where it does so (R28, R363). -/
def State.readPacked (s : State) (u : Upsets) (part : Option Nat) (fabric : Bool) (fin : Nat) :
    Nat → Nat → State × List (Nib × Bool) × List Status
  | 0, _ => (s, [], [])
  | n + 1, o =>
    if fin < o + 75 then (s, [], [.badDescriptor])
    else
      let (s1, h, ms) := s.readUnits u part fabric 1 67 o
      if ms.any stopsDma then (s1, h, ms)
      else if (nth (0#4, true) h 2).2 then (s1, List.replicate (75 * (n + 1)) (0#4, true), ms)
      else
        let w := (nth (0#4, true) h 2).1.toNat % 8 + 1
        if fin < o + 67 + 8 * w then (s1, h, ms ++ [.badDescriptor])
        else
          let (s2, t, ms2) := s1.readUnits u part fabric 1 (8 * w) (o + 67)
          if ms2.any stopsDma then (s2, h ++ t, ms ++ ms2)
          else
            let (s3, r, ms3) := State.readPacked s2 u part fabric fin n (o + 67 + 8 * w)
            (s3, h ++ t ++ r, ms ++ ms2 ++ ms3)

/-- The next run and nibble after a piece of n nibbles. -/
def Xfer.next (x : Xfer) (d : DmaDesc) (n : Nat) : Xfer :=
  if d.count ≤ x.off + n then { x with run := x.run + 1, off := 0 } else { x with off := x.off + n }

/-- A span of the source of a transfer is read: from this module at once, else by an operation or a host read that brings
it later. -/
def State.dmaRead (s : State) (u : Upsets) (k : Nat) (x : Xfer) (d : DmaDesc) (run off n : Nat) (a len w : Nat) : State :=
  if d.srcHost then
    let ring := fld (s.rd (oHostDmaRing ((k - 512) / 4))) (8 * ((k - 512) % 4)) 8
    let tag := s.host.nextTag
    let s1 := (s.emit (.rd (ringFn ring) (a / 2) (len / 2) tag)).putXfer k { x with away := x.away + 1 }
    { s1 with host := { s1.host with nextTag := tag + 1, reads := s1.host.reads ++ [(tag, k, run, off, n)] } }
  else if s.mineSide false d.src then
    let (s1, l, ms) := s.readUnits u x.part (bits d.src 62 2 == 1) w (len / w) (bits a 0 44)
    let x1 := ms.foldl Xfer.meet x
    if x1.stop then (s1.putXfer k x1).dmaSettle k else (s1.putXfer k x1).dmaData u k x1 run off n l
  else if !(s.route (s.sideModule d.src)).valid then (s.putXfer k (x.meet .badDescriptor)).dmaSettle k
  else
    (s.putXfer k { x with away := x.away + 1 }).sendOp (.dma k true run off n) (x.part.getD 0) (chField k * 192)
      x.part.isNone false (sideAddr d.src a) (.load len)

/-- The path carries one piece of channel k (R350): a beat of a copy, or a row of a pack or unpack (DEDUCED, log 53). -/
def State.dmaBeat (s : State) (u : Upsets) (k : Nat) : State :=
  match tfind s.dma k with
  | none => s
  | some x =>
    let d := dmaDesc x.regs
    if x.stop || x.runs ≤ x.run then s
    else if d.mode = 0 then
      let n := d.pieceLen x.run x.off
      let (f, len) := d.srcSpan x.off n
      s.dmaRead u k (x.next d n) d x.run x.off n (d.srcAt x.run + f) len d.sw
    else if d.mode = 1 then s.dmaRead u k (x.next d d.count) d x.run 0 d.count (d.srcAt x.run) d.count 4
    else
      let (s1, r) := s.accessNow u (s.dmaAccess x.part false (d.dir + 8 * x.run) (.load 8) false)
      let x1 := x.next d d.count
      if r.st = .poisoned then
        let x2 := x1.meet .poisoned
        (s1.putXfer k x2).dmaWrite u k x2 d x.run 0 (d.dstAt x.run) (List.replicate d.count (0#4, true))
      else if r.st != .ok then (s1.putXfer k (x1.meet r.st)).dmaSettle k
      else
        let e := ofNibs r.data
        let a := d.src + e
        let o := bits a 0 44
        let span := d.runs * d.packRow
        if span < e + 75 * (d.count / 128) then (s1.putXfer k (x1.meet .badDescriptor)).dmaSettle k
        else if s1.mineSide false d.src then
          let (s2, l, ms) := s1.readPacked u x.part (bits d.src 62 2 == 1) (bits d.src 0 44 + span) (d.count / 128) o
          let x2 := ms.foldl Xfer.meet x1
          if x2.stop then (s2.putXfer k x2).dmaSettle k else (s2.putXfer k x2).dmaData u k x2 x.run e d.count l
        else s1.dmaRead u k x1 d x.run e d.count a (Nat.min d.packRow (span - e)) 1

/-- The read-back of a transfer has returned: a unit of this module is read at its home, for every copy of a broadcast, and its data
are discarded (R278, R360, R364). The channel completes with the status that the transfer met. -/
def State.readBackDone (s : State) (u : Upsets) (k : Nat) (x : Xfer) : State :=
  let d := dmaDesc x.regs
  let (a, n) := x.lastUnit d
  let s1 := if s.mineSide d.dstHost d.dst then
      (shiftsOf k d).foldl (fun t sh =>
        (t.accessNow u (t.dmaAccess x.part (bits d.dst 62 2 == 1) ((bits a 0 44 : Int) + sh).toNat (.load n) false)).1) s
    else s
  s1.dmaFinish k (metStatus x.met)

/-- A piece read elsewhere has arrived, with its status and nibbles. -/
def State.dmaArrive (s : State) (u : Upsets) (k run off n : Nat) (st : Status) (data : List Nib) : State :=
  match tfind s.dma k with
  | none => s
  | some x =>
    let d := dmaDesc x.regs
    let x1 := ({ x with away := x.away - 1 }).meet st
    let len := if d.mode = 0 then (d.srcSpan off n).2 else if d.mode = 1 then d.count else d.packRow
    let l := if st = .ok then data.map (fun v => (v, false))
      else if st = .deadRead then List.replicate len (0xF#4, false)
      else List.replicate len (0#4, true)
    if x.readBack then s
    else if x1.stop then (s.putXfer k x1).dmaSettle k
    else (s.putXfer k x1).dmaData u k x1 run off n l

/-- A piece written elsewhere has been answered. -/
def State.dmaAck (s : State) (k n : Nat) (st : Status) : State :=
  match tfind s.dma k with
  | none => s
  | some x =>
    let x1 := ({ x with away := x.away - 1 }).meet st
    let (s1, x2) := if st = .ok then s.dmaWrote k x1 n else (s, x1)
    (s1.putXfer k x2).dmaSettle k

end Sys2Proof.Machine
end

