-- ==== Sys2Proof/Machine/Threads.lean ====
section
/-! DEFINITION. Threads, entries of the rotor list and groups (04_thread_groups.md): registers, issue, faults, completion of what a thread waits for. -/

namespace Sys2Proof.Machine

/-! ### Registers and predicates (R92) -/

/-- Where the tables keep register r and predicate p of lane L of tile t. A tile number is below 2^14 (DESIGN CHOICE, log 39). -/
def gprKey (t L r : Nat) : Nat := (L * 16384 + t) * 64 + r
def predKey (t L p : Nat) : Nat := (L * 16384 + t) * 8 + p

/-- General register r of lane L (home slot × 32 + home lane) of tile t. -/
def State.g (s : State) (t L r : Nat) : Word := tget 0#32 s.gpr (gprKey t L r)

/-- A general register written. -/
def State.setG (s : State) (t L r : Nat) (v : Word) : State :=
  { s with gpr := tset 0#32 s.gpr (gprKey t L r) v }

/-- Predicate p of a lane: p7 always reads 1. -/
def State.p (s : State) (t L p : Nat) : Bool := if p = 7 then true else tget false s.preds (predKey t L p)

/-- A predicate written: writes to p7 are ignored. -/
def State.setP (s : State) (t L p : Nat) (b : Bool) : State :=
  if p = 7 then s else { s with preds := tset false s.preds (predKey t L p) b }

/-- The pair (g2k, g2k+1) as a 64-bit value. -/
def State.gpair (s : State) (t L r : Nat) : Long := (s.g t L (r + 1)) ++ (s.g t L r)

/-- Operand B or C (R102). -/
def State.opd (s : State) (t L : Nat) : Opd → Word
  | .reg r => s.g t L r
  | .imm v => v

/-- A floating-point operand with its modifiers, as a code: absolute value first, then negation (R103). -/
def State.fopd (s : State) (t L : Nat) (o : FOpd) : Word :=
  let v := s.opd t L o.src
  let v1 := if o.abs then v &&& 0x7FFFFFFF#32 else v
  if o.neg then v1 ^^^ 0x80000000#32 else v1

/-! ### Instruction words (R102) -/

/-- The fields of an instruction word (R102). -/
structure Insn where
  cls : Nat
  imm : Bool
  op : Nat
  gneg : Bool
  gpred : Nat
  d : Nat
  a : Nat
  b : Nat
  ext : Word
  deriving DecidableEq, Repr

/-- The fields that a word holds (R102). -/
def insnOf (w : Long) : Insn :=
  let v := w.toNat
  { cls := bits v 60 4, imm := w.getLsbD 59, op := bits v 54 5, gneg := w.getLsbD 53, gpred := bits v 50 3, d := bits v 44 6,
    a := bits v 38 6, b := bits v 32 6, ext := BitVec.ofNat 32 v }

/-- EXT stands for operand B: the 32-bit immediate of every class but x8 (R102). -/
def Insn.extIsB (x : Insn) : Bool := x.imm && x.cls != 8

/-- EXT holds the member mask: class x8, where IMM says that the B field is an immediate (R102). -/
def Insn.extIsMask (x : Insn) : Bool := x.cls == 8

/-- Operand B of a word: EXT, the B field as an immediate, or a register (R102). -/
def Insn.operandB (x : Insn) : Opd :=
  if x.extIsB then .imm x.ext else if x.imm then .imm (BitVec.ofNat 32 x.b) else .reg x.b

/-- Register C and the modifiers in EXT, where EXT is neither an immediate nor the mask (R102). -/
def Insn.regC (x : Insn) : Option Nat := if x.extIsB || x.extIsMask then none else some (bits x.ext.toNat 26 6)
def Insn.modifiers (x : Insn) : Nat := if x.extIsB then x.b else if x.extIsMask then 0 else bits x.ext.toNat 0 26

/-- Classes x5 to x7 use the memory pipe (R107), and of classes x5 to xB two instructions do not pair (R108). -/
def pipeClass (c : Nat) : Bool := decide (5 ≤ c) && decide (c ≤ 7)
def lateClass (c : Nat) : Bool := decide (5 ≤ c) && decide (c ≤ 11)

/-- The instruction word at an index of a tile's instruction memory (R93). -/
def State.insnAt (s : State) (t pc : Nat) : Insn := insnOf (tget 0#64 s.imem (t * 8192 + pc))
def State.wordAt (s : State) (t pc : Nat) : Long := tget 0#64 s.imem (t * 8192 + pc)

/-! ### The rotor (R106) -/

/-- An empty rotor. -/
def rotor0 : Rotor := { entries := [], ptr := 0, mate := none, pipe := [] }

/-- The rotor of tile t. -/
def State.rotor (s : State) (t : Nat) : Rotor := tget rotor0 s.rotors t

/-- The rotor written. -/
def State.putRotor (s : State) (t : Nat) (r : Rotor) : State := { s with rotors := tset rotor0 s.rotors t r }

/-- The entries of tile t. -/
def State.entries (s : State) (t : Nat) : List Entry := (s.rotor t).entries

/-- The memory pipe of tile t, oldest first (R107). -/
def State.pipe (s : State) (t : Nat) : List PipeItem := (s.rotor t).pipe
def State.putPipe (s : State) (t : Nat) (l : List PipeItem) : State := s.putRotor t { s.rotor t with pipe := l }

/-- Where the pointer of a list stands once each entry has given way to the entries listed in its place: at the first of them, or
before the gap where the entry last visited has left (R106, R111). -/
def ptrAfter (ptr : Nat) (parts : List (List Entry)) : Nat :=
  let before := ((parts.take ptr).map List.length).foldl (· + ·) 0
  let all := (parts.map List.length).foldl (· + ·) 0
  if !(nth [] parts ptr).isEmpty then before else if before = 0 then all - 1 else before - 1

/-- Each entry of tile t gives way to the entries that f lists in its place. -/
def State.mapEntries (s : State) (t : Nat) (f : Nat → Entry → List Entry) : State :=
  let r := s.rotor t
  let parts := (List.zip (List.range r.entries.length) r.entries).map (fun x => f x.1 x.2)
  s.putRotor t { r with entries := parts.flatten, ptr := ptrAfter r.ptr parts,
                        mate := if (nth [] parts r.ptr).isEmpty then none else r.mate }

/-- Entry e of tile t replaced by the entries listed (R111). -/
def State.spliceEntry (s : State) (t e : Nat) (l : List Entry) : State := s.mapEntries t (fun j x => if j = e then l else [x])

/-- The home group of a lane. -/
def homeOf (L : Nat) : Nat := L / 32

/-- The mask of home lanes of group n among a list of lanes. -/
def laneMask (n : Nat) (ls : List Nat) : Word :=
  BitVec.ofNat 32 ((ls.filter (fun L => homeOf L == n)).foldl (fun m L => m ||| 2 ^ (L % 32)) 0)

/-- The home groups of a list of lanes, ascending. -/
def homesOf (ls : List Nat) : List Nat := ls.foldl (fun m L => sadd m (homeOf L)) []

/-- The lanes whose guard lets them execute (R105). -/
def State.guardOn (s : State) (t : Nat) (gp : Nat) (gn : Bool) (L : Nat) : Bool := s.p t L gp != gn

/-! ### What a lane waits for (R101, R107) -/

/-- The access is one of lane L of tile t. -/
def Origin.ofLane (o : Origin) (t L : Nat) : Bool :=
  match o with
  | .lane t' L' _ _ _ _ _ => t' == t && L' == L
  | .lanes t' ls _ _ _ => t' == t && ls.contains L
  | _ => false

/-- The access is one of group n of tile t. -/
def Origin.ofGroup (o : Origin) (t n : Nat) : Bool :=
  match o with
  | .lane t' L _ _ _ _ _ => t' == t && homeOf L == n
  | .lanes t' ls _ _ _ => t' == t && ls.any (fun L => homeOf L == n)
  | .post t' n' _ => t' == t && n' == n
  | _ => false

/-- The access will write register r of lane L (R98). -/
def Origin.writes (o : Origin) (t L r : Nat) : Bool :=
  match o with
  | .lane t' L' (some d) w _ _ _ => t' == t && L' == L && (d == r || (w == .n16 && d + 1 == r))
  | .lanes t' ls d _ _ => t' == t && ls.contains L && d == r
  | _ => false

/-- The lanes of an instruction in the memory pipe. -/
def PipeOp.lanes : PipeOp → List Nat
  | .ldt _ _ _ l => l.map (·.1)
  | .stt l => l.map (·.1)
  | .atomT _ _ l => l.map (·.1)
  | .glob _ _ _ _ l => l.map (·.1)
  | .atomG _ _ l => l.map (·.1)

/-- It changes memory (R127). -/
def PipeOp.stores : PipeOp → Bool
  | .ldt _ _ _ _ => false
  | .glob (some _) _ _ _ _ => false
  | _ => true

/-- It is a global access (R101). -/
def PipeOp.isGlobal : PipeOp → Bool
  | .glob _ _ _ _ _ => true
  | .atomG _ _ _ => true
  | _ => false

/-- The registers that it will write in its lanes (R98). -/
def PipeOp.writes : PipeOp → List Nat
  | .ldt w _ d _ => if w = .n16 then [d, d + 1] else [d]
  | .stt _ => []
  | .atomT _ d _ => [d]
  | .glob (some d) w _ _ _ => if w = .n16 then [d, d + 1] else [d]
  | .glob none _ _ _ _ => []
  | .atomG _ d _ => [d]

/-- The access that a flit on the module's network carries or answers, where a unit of this module issued it. -/
def Cargo.origin : Cargo → Option Origin
  | .request a => some a.origin
  | .reply a _ => some a.origin
  | _ => none

/-- The origins of every access that has left the memory pipe and not completed. -/
def State.outstanding (s : State) : List Origin :=
  s.homeQ.map (·.origin) ++ s.cacheQ.map (·.origin) ++ s.ops.map (·.origin) ++ s.transit.filterMap (·.cargo.origin)

/-- The accesses of this module on their way, at their home or answered there. -/
def State.accessesOut (s : State) : List Access :=
  s.homeQ ++ s.cacheQ ++ s.transit.filterMap (fun p => match p.cargo with
    | .request a => some a
    | .reply a _ => some a
    | _ => none)

/-- An access that changes memory, of group n of tile t, has not completed: a store or an atomic (R127). -/
def State.storesOut (s : State) (t n : Nat) : Bool :=
  (s.pipe t).any (fun x => x.op.stores && x.op.lanes.any (fun L => homeOf L == n)) ||
  s.accessesOut.any (fun a => a.origin.ofGroup t n && !a.kind.isLoad) ||
  s.ops.any (fun o => o.origin.ofGroup t n && match o.origin with
    | .lane _ _ (some _) _ _ _ _ => false
    | _ => true)

/-- A register of the lanes still waits for a load or an atomic (R107). -/
def State.regWaits (s : State) (t : Nat) (ls rs : List Nat) : Bool :=
  s.outstanding.any (fun o => ls.any (fun L => rs.any (fun r => o.writes t L r))) ||
  (s.pipe t).any (fun x => x.op.writes.any (fun r => rs.contains r) && x.op.lanes.any (fun L => ls.contains L))

/-- A global access of lane L of tile t has not completed (R101). -/
def State.globalOut (s : State) (t L : Nat) : Bool :=
  s.outstanding.any (fun o => o.ofLane t L) || (s.pipe t).any (fun x => x.op.isGlobal && x.op.lanes.contains L)

/-! ### Faults (R135 to R137) -/

/-- The fault is captured in the thread-group registers of the tile (R137). -/
def State.captureFault (s : State) (t n : Nat) (st : Status) (pc : Nat) (lanes : Word) (addr : Nat) : State :=
  let f := t / 192
  let site := s.tileSite t
  let o := oTgFault f site
  if flag (s.rd o) 31 then s.bump o 12 16 1
  else
    ((((s.wr o (BitVec.ofNat 32 (st.code + n * 2 ^ 8 + 2 ^ 31))).wr (oTgFaultPc f site) (BitVec.ofNat 32 pc)).wr
      (oTgFaultLanes f site) lanes).wr (oTgFaultAddrLo f site) (BitVec.ofNat 32 addr)).wr
      (oTgFaultAddrHi f site) (BitVec.ofNat 32 (addr / 2 ^ 32))

/-- The wait is that of an instruction already issued, which completes though its group halts: a POST or a DMAK.GO (R135). -/
def Wait.issued : Wait → Bool
  | .post _ _ _ => true
  | .dmakGo _ _ => true
  | _ => false

/-- The lanes of group n taken out of every entry of tile t, but for one whose instruction has been issued and has still to act. -/
def State.dropGroup (s : State) (t n : Nat) : State :=
  s.mapEntries t (fun _ e =>
    if e.wait.issued then [e]
    else
      let ls := e.lanes.filter (fun L => homeOf L != n)
      if ls.isEmpty then [] else [{ e with lanes := ls }])

/-- Group n of tile t is gone: no entry and no instruction of the memory pipe is its own any more (R310, R434). -/
def State.purgeGroup (s : State) (t n : Nat) : State :=
  let s1 := s.mapEntries t (fun _ e =>
    let ls := e.lanes.filter (fun L => homeOf L != n)
    if ls.isEmpty then [] else [{ e with lanes := ls }])
  s1.putPipe t ((s1.pipe t).filter (fun x => x.op.lanes.any (fun L => homeOf L != n)))

/-- The group has halted: the tokens of operations that have finished are freed (R135). -/
def Group.stopped (g : Group) : Group := { g with halted := true, tokens := g.tokens.filter (fun e => e.2 == .busy) }

/-- A fault halts group n of tile t (R135): its lanes issue nothing further, the fault is captured, and the kernel keeps its
first fault. The tokens of operations that have finished are freed. A group halted already only counts the fault. -/
def State.halt (s : State) (t n : Nat) (st : Status) (pc : Nat) (lanes : Word) (addr : Nat) : State :=
  let g := s.group t n
  let s1 := (s.captureFault t n st pc lanes addr).dropGroup t n
  let s2 := s1.putGroup t n g.stopped
  let s3 := { s2 with kernels := s2.kernels.map (fun e =>
    if e.1 = g.kernel && e.2.fault = .ok then (e.1, { e.2 with fault := st }) else e) }
  if g.live then s3.raisePart .threadFault st (s3.srcTile t) g.part else s3

/-- The groups of a list of faulting lanes halt, each with its own lanes; `addr` gives the address of a lane. -/
def State.haltLanes (s : State) (t : Nat) (st : Status) (pc : Nat) (ls : List Nat) (addr : Nat → Nat) : State :=
  (homesOf ls).foldl (fun u n =>
    let mine := ls.filter (fun L => homeOf L == n)
    u.halt t n st pc (laneMask n mine) (addr (nth 0 mine 0))) s

/-! ### Issue (R93, R106, R107, R439) -/

/-- The decoder's finding on the codeword of a fetched instruction (R93). -/
def State.fetchBad (s : State) (t pc : Nat) (u : Upset) : Bool :=
  let d := eccDecode (s.imemPoison.contains (t * 4096 + pc / 2)) u
  decide (d = .poisoned) || decide (d = .uncorrectable)

/-- What an instruction needs of the rotor (R107, R108): its class, the registers that it reads and writes, and the predicates beside
its guard. -/
structure Need where
  cls : Nat
  reads : List Nat
  writes : List Nat
  preads : List Nat := []
  pwrites : List Nat := []
  deriving DecidableEq, Repr

/-- An instruction of a class that writes and reads registers. -/
def need (cls : Nat) (writes reads : List Nat) : Need := { cls := cls, reads := reads, writes := writes }

/-- An instruction of a class, with its registers and predicates, pairs behind the one issued before it from the same entry (R108). -/
def Mate.pairs (m : Mate) (cls : Nat) (regs preds : List Nat) : Bool :=
  m.cls != 4 && !(lateClass m.cls && lateClass cls) && !regs.any (fun r => m.regs.contains r) &&
  !preds.any (fun p => m.preds.contains p)

/-- The memory pipe of tile t is full (R107). -/
def State.pipeFull (s : State) (t : Nat) : Bool := decide (16 ≤ (s.pipe t).length)

/-- An entry is runnable (R107): it waits on nothing, the registers of its next instruction wait for no memory, and the pipe has
room for it. The registers are those that its word names (DESIGN CHOICE, log 120). -/
def State.runnable (s : State) (t : Nat) (e : Entry) : Bool :=
  e.wait == .none && !s.regWaits t e.lanes (Config.insnRegs (s.wordAt t e.pc.toNat)) &&
  !(pipeClass (s.insnAt t e.pc.toNat).cls && s.pipeFull t)

/-- The entry that issued last has a second instruction that pairs with the first: both issue from it (R108). -/
def State.pairDue (s : State) (t : Nat) : Bool :=
  match (s.rotor t).mate, (s.entries t)[(s.rotor t).ptr]? with
  | some m, some e =>
    let x := s.insnAt t e.pc.toNat
    s.runnable t e && m.pairs x.cls (Config.insnRegs (s.wordAt t e.pc.toNat))
      (x.gpred :: Config.insnPreds (s.wordAt t e.pc.toNat))
  | _, _ => false

/-- How far behind the pointer entry j of an n-entry list comes in list order: the pointer's own entry comes last (R108). -/
def turnOf (n ptr j : Nat) : Nat := (j + n - ptr - 1) % n

/-- The instruction is the second of a pair from the entry that issued last (R108). -/
def Rotor.second (r : Rotor) (i : Iss) (n : Need) : Bool :=
  i.entry == r.ptr && (match r.mate with
    | some m => m.pairs n.cls (n.reads ++ n.writes) (i.gpred :: n.preads ++ n.pwrites)
    | none => false)

/-- The instruction comes from another entry and pairs with the one issued last: both issue in one step (R108). -/
def Rotor.sameStep (r : Rotor) (i : Iss) (n : Need) : Bool :=
  i.entry != r.ptr && (match r.mate with
    | some m => !(lateClass m.cls && lateClass n.cls)
    | none => false)

/-- The rotor's visit falls on entry k of tile t: the second instruction of a pair from one entry, else the first runnable entry
after the pointer (R106, R108, R109). That entry k itself is runnable is tested apart. -/
def State.visits (s : State) (i : Iss) (n : Need) : Bool :=
  let r := s.rotor i.tile
  let len := r.entries.length
  r.second i n ||
  (!s.pairDue i.tile &&
    (List.zip (List.range len) r.entries).all (fun x =>
      !decide (turnOf len r.ptr x.1 < turnOf len r.ptr i.entry) || !s.runnable i.tile x.2))

/-- The rotor after its visit: the pointer at the entry, and what may still pair with this instruction, unless it was the second of
its step (R108; DESIGN CHOICE, log 120). -/
def Rotor.visit (r : Rotor) (i : Iss) (n : Need) : Rotor :=
  { r with ptr := i.entry,
           mate := if r.second i n || r.sameStep i n then none
             else some { cls := n.cls, regs := n.writes, preds := n.pwrites } }

/-- A corrected error in the codeword of a fetched instruction is counted beside the tile store's (R467; DEDUCED, log 45). -/
def State.fetchCount (s : State) (t pc : Nat) (u : Upset) : State :=
  match eccDecode (s.imemPoison.contains (t * 4096 + pc / 2)) u with
  | .corrected _ _ => s.countCorrected (oTsErr (t / 192) (s.tileSite t)) 0 16 true (s.srcTile t)
  | _ => s

/-- An entry of a tile issues an instruction (R106 to R108). Where no such entry exists, it waits, the rotor's visit does not fall on
it, the core logic is gated, its field is held, the pipe is full or a register still waits for memory, nothing happens. A fetch of
a poisoned instruction halts the groups of the entry (R93; DEDUCED, log 41; DEDUCED, log 121). -/
def State.issue (s : State) (i : Iss) (n : Need) (body : State → Entry → State) : State :=
  match (s.entries i.tile)[i.entry]? with
  | none => s
  | some e =>
    if !s.inService || e.wait != .none || s.fieldHeld (i.tile / 192) || s.regWaits i.tile e.lanes (n.reads ++ n.writes) ||
        (pipeClass n.cls && s.pipeFull i.tile) || !s.visits i n then s
    else
      let s0 := s.putRotor i.tile ((s.rotor i.tile).visit i n)
      if s0.fetchBad i.tile e.pc.toNat i.fetch then
        let s1 := { s0 with imemPoison := sadd s0.imemPoison (i.tile * 4096 + e.pc.toNat / 2) }
        s1.haltLanes i.tile .poisoned e.pc.toNat e.lanes (fun _ => 0)
      else body (s0.fetchCount i.tile e.pc.toNat i.fetch) e

/-- The lanes of an entry that execute (R105). -/
def State.active (s : State) (i : Iss) (e : Entry) : List Nat := e.lanes.filter (s.guardOn i.tile i.gpred i.gneg)

/-- Entry e of the rotor list moves to the next instruction. -/
def State.advance (s : State) (i : Iss) (e : Entry) : State :=
  s.spliceEntry i.tile i.entry [{ e with pc := e.pc + 1, stalled := false }]

/-- An instruction that acts on each executing lane by itself and goes on: classes x0 to x3 and SYS. f u v L reads what lane L
reads in u, the state before the instruction, and writes its results into v. -/
def State.perLane (s : State) (i : Iss) (n : Need) (f : State → State → Nat → State) : State :=
  s.issue i n (fun u e => ((u.active i e).foldl (f u) u).advance i e)

/-! ### Free slots (R96) -/

/-- A transfer that the group started on a channel the schedule gives it has not completed (R96, R132; DEDUCED, log 117). -/
def State.groupDma (s : State) (t n : Nat) : Bool :=
  match (s.part (s.group t n).part).sched with
  | some img => s.dma.any (fun e => decide (e.1 < 512) && e.2.part == some (s.group t n).part &&
      img.dmaOwners.any (fun x => x == (e.1 / 8, e.1 % 8, t, n)))
  | none => false

/-- Every operation that a group issued has completed (R96). -/
def State.slotQuiet (s : State) (t n : Nat) : Bool :=
  (s.group t n).tokens.all (fun x => x.2 != Token.busy) && s.outstanding.all (fun o => !o.ofGroup t n) && !s.groupDma t n &&
  (s.pipe t).all (fun x => x.op.lanes.all (fun L => homeOf L != n)) && (s.entries t).all (fun e => e.lanes.all (fun L => homeOf L != n)) &&
  (s.mxu t).issue.all (fun x => match x with
    | .flush m _ => m != n
    | .mxd m _ _ => m != n)

/-- A group slot becomes free once its 32 threads have exited and every operation it issued has completed (R96). -/
def State.settleGroup (s : State) (t n : Nat) : State :=
  let g := s.group t n
  if g.live && !g.halted && g.exited == 0xFFFFFFFF#32 && s.slotQuiet t n then s.putGroup t n groupFree
  else s

/-! ### What a load writes (R98, R136) -/

/-- The value that a load of width w puts into a register (R98). -/
def extendLoad (w : Width) (sx : Bool) (l : List Nib) : Word :=
  let v := ofNibs l
  let b := 4 * w.nibs
  if sx && b < 32 && v.testBit (b - 1) then BitVec.ofNat 32 (v + (2 ^ 32 - 2 ^ b)) else BitVec.ofNat 32 v

/-- All ones in every register that a load writes: what a dead line returns (R136, R286). -/
def State.writeOnes (s : State) (t L d : Nat) (w : Width) : State :=
  match w with
  | .n16 => (s.setG t L d 0xFFFFFFFF#32).setG t L (d + 1) 0xFFFFFFFF#32
  | _ => s.setG t L d 0xFFFFFFFF#32

/-- A load's data written to register d, or to the pair at d (R98). -/
def State.writeLoad (s : State) (t L d : Nat) (w : Width) (sx : Bool) (l : List Nib) : State :=
  match w with
  | .n16 => (s.setG t L d (BitVec.ofNat 32 (ofNibs (l.take 8)))).setG t L (d + 1) (BitVec.ofNat 32 (ofNibs (l.drop 8)))
  | _ => s.setG t L d (extendLoad w sx l)

end Sys2Proof.Machine
end

