-- ==== Sys2Proof/Machine/ThreadMem.lean ====
section
/-! DEFINITION. What tile-store accesses, global accesses and atomics of a list of lanes do (R97 to R101, R122, R123, R133 to R136), and the memory pipe of a tile (R107, R133). -/

namespace Sys2Proof.Machine

/-- A fault of one lane: the lane, its status, its address. -/
abbrev LaneFault := Nat × Status × Nat

/-- The groups of faulting lanes halt, each with the status and the address of its lowest faulting lane (R137). A WEIGHT_FENCED fault
is counted for the region's partition (R135, R208). -/
def State.haltFaults (s : State) (t pc : Nat) (fl : List LaneFault) : State :=
  (homesOf (fl.map (·.1))).foldl (fun u n =>
    let mine := sortBy (·.1) (fl.filter (fun x => homeOf x.1 == n))
    let (_, st, addr) := nth (0, Status.ok, 0) mine 0
    let u1 := if st = .weightFenced then
        match u.regionAt (storeBase t + addr) with
        | some (_, r) => u.fenceHit r.part (u.srcTile t)
        | none => u
      else u
    u1.halt t n st pc (laneMask n (mine.map (·.1))) addr) s

/-- The check of a tile-store address of n nibbles: in range and aligned to its width (R97 to R99). -/
def tileAddrOk (a n : Nat) : Bool := decide (a + n ≤ tsSize) && a % n == 0

/-- A write to offset a of tile t's own store falls in a fenced region (R208). -/
def State.storeFenced (s : State) (t a : Nat) : Bool :=
  match s.regionAt (storeBase t + a) with
  | some (_, r) => r.valid && s.fenced r
  | none => false

/-- The codewords that a list of (address, nibbles) touches, ascending. -/
def cwUnion (l : List (Nat × Nat)) : List Nat := (l.flatMap (fun x => cwsOf x.1 x.2)).foldl sadd []

/-- The bank words of 16 n that n nibbles at offset a touch (R133). -/
def wordsOf (a n : Nat) : List Nat := (List.range ((a + n - 1) / 16 - a / 16 + 1)).map (· + a / 16)

/-- The passes of one instruction whose lanes address the offsets given: the most distinct words that it addresses in one bank,
and at least one (R133). -/
def passesOf (l : List (Nat × Nat)) : Nat :=
  let ws := (l.flatMap (fun x => wordsOf x.1 x.2)).foldl sadd []
  (List.range 32).foldl (fun m b => Nat.max m (ws.filter (fun w => w % 32 == b)).length) 1

/-! ### LDT and STT (R97, R134) -/

/-- LDT of lanes with their addresses: each lane whose data read well receives them. -/
def State.tileLoad (s : State) (t : Nat) (u : Upsets) (w : Width) (sx : Bool) (d : Nat) (l : List (Nat × Nat)) :
    State × List LaneFault :=
  let n := w.nibs
  let ok := l.filter (fun x => tileAddrOk x.2 n)
  let bad := (l.filter (fun x => !tileAddrOk x.2 n)).map (fun x => (x.1, Status.badDescriptor, x.2))
  let poisoned := ok.filter (fun x => s.readsPoison u (storeBase t + x.2) n)
  let good := ok.filter (fun x => !s.readsPoison u (storeBase t + x.2) n)
  let s1 := (cwUnion (ok.map (fun x => (storeBase t + x.2, n)))).foldl (fun v c => v.senseCw u c) s
  let s2 := good.foldl (fun v x => v.writeLoad t x.1 d w sx (s.seen u (storeBase t + x.2) n)) s1
  (s2, bad ++ poisoned.map (fun x => (x.1, Status.poisoned, x.2)))

/-- STT of lanes with address and data: nibbles in lane order, so that the highest lane determines a nibble (R134). A bank word on
which a lane faults is unchanged (R136). The lanes of one instruction are one write: a codeword that they cover whole loses its
poison, any other is corrected first (R256, DEDUCED, log 17). UPDATE of a skipped step writes nothing (R223). -/
def State.tileStore (s : State) (t : Nat) (u : Upsets) (l : List (Nat × Nat × List Nib)) : State × List LaneFault :=
  let addrBad := l.filter (fun x => !tileAddrOk x.2.1 x.2.2.length)
  let inRange := l.filter (fun x => tileAddrOk x.2.1 x.2.2.length)
  let fencedL := inRange.filter (fun x => s.storeFenced t x.2.1)
  let kept := (addrBad ++ fencedL).flatMap (fun x => wordsOf x.2.1 x.2.2.length)
  let good := inRange.filter (fun x => !s.storeFenced t x.2.1 && !s.writesDropped (storeBase t + x.2.1) && (wordsOf x.2.1 x.2.2.length).all (fun w => !kept.contains w))
  let spans := good.map (fun x => (storeBase t + x.2.1, x.2.2.length))
  let cws := cwUnion spans
  let whole (c : Nat) : Bool :=
    (List.range 32).all (fun i => spans.any (fun x => decide (x.1 ≤ 32 * c + i) && decide (32 * c + i < x.1 + x.2)))
  let s1 := (cws.filter (fun c => !whole c)).foldl (fun v c => v.mendCw u c) s
  let s2 := good.foldl (fun v x => v.store (storeBase t + x.2.1) x.2.2) s1
  let s3 := (cws.filter whole).foldl (fun v c => v.putPoison c false) s2
  (s3, addrBad.map (fun x => (x.1, Status.badDescriptor, x.2.1)) ++
    fencedL.map (fun x => (x.1, Status.weightFenced, x.2.1)))

/-! ### ATOM.T (R122, R123) -/

/-- A lane of an atomic: lane, address, operands b and c. -/
abbrev AtomLane := Nat × Nat × Word × Word

/-- ATOM.T on one word for the lanes that address it, in order (R123). -/
def State.tileAtomWord (s : State) (t : Nat) (u : Upsets) (fn : AtomFn) (d a : Nat) (l : List AtomLane) :
    State × List LaneFault :=
  let o := storeBase t + a
  let ls := l.map (·.1)
  if !tileAddrOk a 8 then (s, ls.map (fun L => (L, Status.badDescriptor, a)))
  else if s.storeFenced t a then (s, ls.map (fun L => (L, Status.weightFenced, a)))
  else
    let s1 := s.mendCw u (o / 32)
    if s.readsPoison u o 8 then (s1, ls.map (fun L => (L, Status.poisoned, a)))
    else
      let (w, rets) := atomFold fn (BitVec.ofNat 32 (ofNibs (s.seen u o 8))) (l.map (fun x => (x.2.2.1, x.2.2.2)))
      let s2 := if s.writesDropped o then s1 else s1.store o (nibsOf w.toNat 8)
      ((List.zip ls rets).foldl (fun v x => v.setG t x.1 d x.2) s2, [])

/-- ATOM.T of lanes in home order: words are independent (R123). -/
def State.tileAtomic (s : State) (t : Nat) (u : Upsets) (fn : AtomFn) (d : Nat) (l : List AtomLane) :
    State × List LaneFault :=
  ((l.map (·.2.1)).foldl sadd []).foldl (fun acc a =>
    let (v, fl) := acc.1.tileAtomWord t u fn d a (l.filter (fun x => x.2.1 == a))
    (v, acc.2 ++ fl)) (s, [])

/-! ### Global accesses (R97, R99, R301 tests 1 to 3) -/

/-- The tests made at the source on a global address of n nibbles (R99, R290, R301). -/
def State.sourceTest (s : State) (a : Long) (n : Nat) : Status :=
  if 2 ≤ addrClass a then .notAuthorized
  else if !addrPlain a || !populated (addrOff a) n || addrOff a % n != 0 then .badDescriptor
  else if s.addrHome a != s.moduleId && !(s.route (s.addrHome a)).valid then .badDescriptor
  else .ok

/-- The way of a thread's access from its tile to the home of the copy that it reaches, or to its cache slice (R45, R273, R299). A POST
goes to its tile. -/
def State.wayOut (s : State) (t : Nat) (a : Access) : List (RotaRes × Nat) :=
  if a.kind.isPost then s.hopsToHome t a.off
  else if s.cachedOff a.off then s.hopsToSlice t (s.physAt a.off) else s.hopsToHome t (s.physAt a.off)

/-- An access of a thread of tile t sent to its home: on this module over the mesh (R45), else as a flit along the tile's own row to
its departing link (R294, R302). -/
def State.sendAccess (s : State) (o : Origin) (t part : Nat) (a : Long) (kind : AccKind) (retire : Bool) : State :=
  if s.addrHome a = s.moduleId then
    let x : Access := { origin := o, part := part, key := s.keyFor part s.moduleId (addrOff a), runtime := false,
                        fabric := addrClass a == 1, off := addrOff a, kind := kind, retire := retire, poison := false,
                        waitFill := false }
    s.sendHome (s.wayOut t x) x
  else
    let (b, s1) := s.openOp o part t false a kind
    let m := addrModule a
    let (f, site) := s.tilePos t
    (s.flitTo m (addrOff a) part false false (.req b)).split.foldl (fun v x =>
      v.sendLink (hopsToGroup f site (s.route m).group) (s.linkFor m (addrOff a)) x) s1

/-- LDG or STG of lanes with address and kind (R97): lanes that fail a source test fault, the others send their access. -/
def State.globalAccess (s : State) (t pc : Nat) (d : Option Nat) (w : Width) (sx retire : Bool)
    (l : List (Nat × Long × AccKind)) : State × List LaneFault :=
  l.foldl (fun acc x =>
    let (L, a, kind) := x
    match acc.1.sourceTest a w.nibs with
    | .ok => (acc.1.sendAccess (.lane t L d w sx pc a.toNat) t (acc.1.group t (homeOf L)).part a kind retire, acc.2)
    | st => (acc.1, acc.2 ++ [(L, st, a.toNat)])) (s, [])

/-- The word that a global address names, as a number: module and offset where class and reserved bits allow an access, and the class
too where it decides the outcome, in a cached region (R123, R272, R290, R291). -/
def State.wordName (s : State) (a : Long) : Nat :=
  if 2 ≤ addrClass a || !addrPlain a then a.toNat
  else
    let m := s.addrHome a
    (if addrClass a = 1 && m == s.moduleId && s.cachedOff (addrOff a) then 2 ^ 62 else 0) + m * 2 ^ 52 + addrOff a

/-- ATOM.G of lanes in home order: one combined update per distinct word (R123, R302). -/
def State.globalAtomic (s : State) (t pc : Nat) (fn : AtomFn) (d : Nat) (l : List (Nat × Long × Word × Word)) :
    State × List LaneFault :=
  ((l.map (fun x => s.wordName x.2.1)).foldl sadd []).foldl (fun acc w =>
    let mine := l.filter (fun x => s.wordName x.2.1 == w)
    let ls := mine.map (·.1)
    let a := (nth (0, 0, 0, 0) mine 0).2.1
    match acc.1.sourceTest a 8 with
    | .ok =>
      (acc.1.sendAccess (.lanes t ls d pc a.toNat) t (acc.1.group t (homeOf (nth 0 ls 0))).part a
        (.atomic fn (mine.map (fun x => (x.2.2.1, x.2.2.2)))) false, acc.2)
    | st => (acc.1, acc.2 ++ mine.map (fun x => (x.1, st, x.2.1.toNat)))) (s, [])

/-! ### The memory pipe (R38, R101, R107, R133) -/

/-- The offsets in its own tile store that an instruction of class x5 or x7 accesses, each with its lane and its nibbles. -/
def PipeOp.tileSpans : PipeOp → List (Nat × Nat × Nat)
  | .ldt w _ _ l => l.map (fun x => (x.1, x.2, w.nibs))
  | .stt l => l.map (fun x => (x.1, x.2.1, x.2.2.length))
  | .atomT _ _ l => l.map (fun x => (x.1, x.2.1, 8))
  | .glob _ _ _ _ _ => []
  | .atomG _ _ _ => []

/-- A lane's access to its own tile store waits while an earlier global access of the lane to the same nibbles has not completed, so
that the two take effect in program order (R101). -/
def State.ownHeld (s : State) (t : Nat) (op : PipeOp) : Bool :=
  op.tileSpans.any (fun x => s.accessesOut.any (fun a => a.origin.ofLane t x.1 &&
    decide (a.off < storeBase t + x.2.1 + x.2.2) && decide (storeBase t + x.2.1 < a.off + a.kind.nibs)))

/-- The access of a pipe item takes place. -/
def State.pipeAccess (s : State) (t : Nat) (x : PipeItem) : State × List LaneFault :=
  match x.op with
  | .ldt w sx d l => s.tileLoad t x.mem w sx d l
  | .stt l => s.tileStore t x.mem l
  | .atomT fn d l => s.tileAtomic t x.mem fn d l
  | .glob d w sx retire l => s.globalAccess t x.pc d w sx retire l
  | .atomG fn d l => s.globalAtomic t x.pc fn d l

/-- The oldest instruction of the pipe leaves it where it may: a global access at once, an access to the tile store once the
thread-issue entry of the tile's bank list is current and the field is not held (R38, R101, R439). It counts its passes (R133), and
those beyond the quantum finish in its entry (DEDUCED, log 121). -/
def State.drainOne (s : State) (t : Nat) : Option State :=
  match s.pipe t with
  | [] => none
  | x :: rest =>
    let s0 := s.putPipe t rest
    if x.op.isGlobal then
      let (v, fl) := s0.pipeAccess t x
      some (v.haltFaults t x.pc fl)
    else if !s.hasTurn (.banks t) userThreads || s.fieldHeld (t / 192) || s.ownHeld t x.op then none
    else
      let (v, fl) := s0.pipeAccess t x
      some ((v.usePort (.banks t) (passesOf (x.op.tileSpans.map (·.2)))).haltFaults t x.pc fl)

/-- Up to n instructions leave the pipe of tile t. -/
def State.drain (s : State) (t : Nat) : Nat → State
  | 0 => s
  | n + 1 =>
    match s.drainOne t with
    | some u => u.drain t n
    | none => s

/-- Everything that may leaves the pipe of tile t. -/
def State.drainPipe (s : State) (t : Nat) : State := s.drain t (s.pipe t).length

/-- An issued instruction of class x5 to x7 enters the memory pipe, and leaves it again where nothing holds it (R107). -/
def State.enterPipe (s : State) (t pc : Nat) (mem : Upsets) (op : PipeOp) : State :=
  (s.putPipe t (s.pipe t ++ [{ op := op, pc := pc, mem := mem }])).drainPipe t

end Sys2Proof.Machine
end

