-- ==== Sys2Proof/Machine/Waits.lean ====
section
/-! DEFINITION. What waiting entries wait for and how they go on (R101, R127 to R132), and the completion of a thread's access (R136). -/

namespace Sys2Proof.Machine

/-! ### Waits (R101, R127 to R132) -/

/-- An entry's wait is over: it goes on at the next instruction. -/
def Entry.go (e : Entry) : Entry := { e with pc := e.pc + 1, wait := .none, stalled := false }

/-- The operands that a group instruction takes once for the group: the value of a register where all member lanes agree; no
rule says what the value is where they differ, so there it is free (DESIGN CHOICE, log 16). -/
def State.uniform (s : State) (t : Nat) (ls : List Nat) (r : Nat) : Word :=
  let v := s.g t (nth 0 ls 0) r
  if ls.all (fun L => s.g t L r == v) then v else s.free r

/-- The same for an operand. -/
def State.uniformOpd (s : State) (t : Nat) (ls : List Nat) : Opd → Word
  | .reg r => s.uniform t ls r
  | .imm v => v

/-- A result written to register d of every lane listed. -/
def State.setAll (s : State) (t : Nat) (ls : List Nat) (d : Nat) (v : Word) : State :=
  ls.foldl (fun u L => u.setG t L d v) s

/-- A channel's image in the tile store of tile t is loaded and started; a misaligned offset or a poisoned codeword
completes the channel at once (R132, R357), and so does an image that passes the end of the store, of which neither rule speaks
(DESIGN CHOICE, log 124). -/
def State.dmakStart (s : State) (t k off : Nat) (part : Nat) : State :=
  let o := storeBase t + off
  if off % 128 != 0 || tsSize < off + 128 then
    (({ s with dma := tdel s.dma k }).wr (oDmaDone k) 0).dmaFinish k .badDescriptor
  else if s.anyPoison o 128 then (s.wr (oDmaDone k) 0).dmaFinish k .poisoned
  else
    let img := (List.range 16).map (fun i => BitVec.ofNat 32 (s.load (o + 8 * i) 8))
    (s.dmaLoad k img).dmaStart k (some part) none

/-- The global address that carries a POST to a tile of a module: the first nibble of the tile's store, on which R294 chooses the
link (R127 gives a POST no offset: DESIGN CHOICE, log 129). -/
def postAddr (m t : Nat) : Long := BitVec.ofNat 64 (2 ^ 62 + m * 2 ^ 52 + storeBase t)

/-- One waiting entry of tile t is looked at: if what it waits for has come, it goes on (R101, R127, R128, R130, R132), or leaves
where its group has halted meanwhile (R135). The step and whether it changed. -/
def State.wakeEntry (s : State) (t e : Nat) : State × Bool :=
  match (s.entries t)[e]? with
  | none => (s, false)
  | some x =>
    let n := homeOf (nth 0 x.lanes 0)
    let go (u : State) : State × Bool := (u.spliceEntry t e (if (s.group t n).halted then [] else [x.go]), true)
    match x.wait with
    | .none => (s, false)
    | .arrive _ _ _ => (s, false)
    | .fence => if x.lanes.any (s.globalOut t) then (s, false) else go s
    | .post cell c target =>
      if s.storesOut t n then (s, false)
      else
        match target with
        | none => go (s.addCell t cell c)
        | some a =>
          let m := a / 2 ^ 14 % 1024
          let t' := a % 2 ^ 14
          if m != s.moduleId && !(s.route m).valid then
            ((s.spliceEntry t e [{ x with wait := .none }]).halt t n .badDescriptor x.pc.toNat (laneMask n x.lanes) 0, true)
          else go (s.sendAccess (.post t n x.pc.toNat) t (s.group t n).part (postAddr m t') (.post t' cell c) false)
    | .take cell c =>
      if c ≤ (s.cell t cell).toNat then go (s.putCell t cell (s.cell t cell - BitVec.ofNat 32 c)) else (s, false)
    | .mxw d tok =>
      let g := s.group t n
      match tfind g.tokens tok with
      | some .busy => (s, false)
      | some (.done st) =>
        let u := s.putGroup t n { g with tokens := tdel g.tokens tok }
        go (u.setAll t x.lanes d (BitVec.ofNat 32 st.code))
      | none => go (s.setAll t x.lanes d 1)
    | .dmakGo k off => if s.dmaBusy k then (s, false) else go (s.dmakStart t k off (s.group t n).part)
    | .dmakWait d k =>
      if s.dmaBusy k then (s, false)
      else go (s.setAll t x.lanes d (BitVec.ofNat 32 (s.rdF (oDmaStatus k) 1 8)))

/-- Waiting entries of tile t looked at in list order, again from the start after each that goes on. -/
def State.wakeFrom (s : State) (t : Nat) : Nat → Nat → State
  | 0, _ => s
  | fuel + 1, e =>
    if (s.entries t).length ≤ e then s
    else
      let (u, b) := s.wakeEntry t e
      if b then State.wakeFrom u t fuel 0 else State.wakeFrom s t fuel (e + 1)

/-- What may leaves the pipe of tile t, its waiting entries go on where they can, and its slots are freed. -/
def State.wakeTile (s : State) (t : Nat) : State :=
  let s1 := s.drainPipe t
  let n := (s1.entries t).length
  let u := s1.wakeFrom t ((n + 1) * (n + 1)) 0
  (List.range 16).foldl (fun v m => v.settleGroup t m) u

/-- Every tile that has entries or groups, looked at in ascending order. -/
def State.wakeAll (s : State) : State :=
  let ts : List Nat := (s.rotors.map (fun (e : Nat × Rotor) => e.1) ++ s.groups.map (fun (e : Nat × Group) => e.1 / 16)).foldl sadd []
  ts.foldl (fun u t => u.wakeTile t) s

/-! ### Completion of a thread's access (R136) -/

/-- A thread's access completes (R136): OK writes its results, DEAD_READ writes all ones and halts the group, every other
status halts it with the destination unchanged. -/
def State.finishThread (s : State) (o : Origin) (r : Reply) : State :=
  match o with
  | .lane t L d w sx pc addr =>
    let s1 := match d with
      | some x =>
        if r.st = Status.ok then s.writeLoad t L x w sx r.data
        else if r.st = Status.deadRead then s.writeOnes t L x w else s
      | none => s
    let s2 := if r.st = .ok then s1 else s1.halt t (homeOf L) r.st pc (laneMask (homeOf L) [L]) addr
    s2.wakeTile t
  | .lanes t ls d pc addr =>
    let s1 := if r.st = .ok then (List.zip ls r.words).foldl (fun u x => u.setG t x.1 d x.2) s
      else if r.st = .deadRead then ls.foldl (fun u L => u.setG t L d 0xFFFFFFFF#32) s else s
    let s2 := if r.st = .ok then s1 else s1.haltLanes t r.st pc ls (fun _ => addr)
    s2.wakeTile t
  | .post t n pc =>
    let s1 := if r.st = .ok then s else s.halt t n r.st pc (~~~ (s.group t n).exited) 0
    s1.wakeTile t
  | _ => s

end Sys2Proof.Machine
end

