-- ==== Sys2Proof/WellFormed.lean ====
section
/-! DEFINITION. Which commands name units that the module has (`Instr.units`), and which thread instructions the program-load command takes (`Instr.loadable`). -/

namespace Sys2Proof

/-- Tiles, fields, field sites and links of a module (R1, R10, R12, R17). -/
def tileOk (t : Nat) : Bool := decide (t < 12288)
def fieldOk (f : Nat) : Bool := decide (f < 64)
def siteOk (f site : Nat) : Bool := fieldOk f && decide (site < 196)
def chanOk (f site ch : Nat) : Bool := siteOk f site && decide (ch < 4)
def linkOk (k : Nat) : Bool := decide (k < 64)
def halfOk (h : Nat) : Bool := decide (h < 2)
def partOk (p : Nat) : Bool := decide (p < 16)
def coreOk (c : Nat) : Bool := decide (c < 32)

/-- General registers and predicates of a lane (R92). -/
def regOk (r : Nat) : Bool := decide (r < 64)
def predOk (p : Nat) : Bool := decide (p < 8)
def opdOk : Opd → Bool
  | .reg r => regOk r
  | .imm _ => true
def fopdOk (o : FOpd) : Bool := opdOk o.src
def targetOk : Target → Bool
  | .direct n => decide (n < 8192)
  | .ind r => regOk r

/-- Where an instruction issues. -/
def issOk (i : Iss) : Bool := tileOk i.tile && predOk i.gpred

/-- The requesters of R395. -/
def reqOk (r : Req) : Bool := decide (r.id < 0x34) || (decide (0x400 ≤ r.id) && decide (r.id < 0x800))

/-- The rings of R368. -/
def cmdOk (c : Cmd) : Bool := decide (c.ring < 17)

/-- The resources of R37 and R42. -/
def listOk : ListRes → Bool
  | .banks t => tileOk t
  | .matrix t => tileOk t
  | .vault f site ch => chanOk f site ch
  | .dmaPath f => fieldOk f
  | .hostDma => true
def rotaOk : RotaRes → Bool
  | .mesh f site dir => siteOk f site && decide (dir < 4)
  | .edge side line => decide (side < 4) && decide (line < 112)
  | .link k => linkOk k
  | .slice h n => halfOk h && decide (n < 16)
  | .interHalf d => decide (d < 2)
  | .config => true
  | .fieldTree f => fieldOk f
  | .crescentTree n => decide (n < 4)
  | .linkTree n => decide (n < 4)
  | .recorder => true

/-- DMA channels (R347, R348). -/
def dmaChOk : DmaCh → Bool
  | .field f c => fieldOk f && decide (c < 8)
  | .host h => decide (h < 16)

/-- The body of a flit names a tile that exists where it names one (R318). -/
def kindOk : AccKind → Bool
  | .post t c _ => tileOk t && decide (c < 64)
  | _ => true

/-- Every unit, register and predicate that a command names exists. -/
def Instr.units : Instr → Bool
  | .iadd i d a b | .isub i d a b | .imul i d a b | .imulh i d a b | .iand i d a b | .ior i d a b | .ixor i d a b
  | .shl i d a b | .shr i d a b | .sar i d a b => issOk i && regOk d && regOk a && opdOk b
  | .imad i d a b c => issOk i && regOk d && regOk a && opdOk b && regOk c
  | .imin i _ d a b | .imax i _ d a b => issOk i && regOk d && regOk a && opdOk b
  | .sel i d a b p => issOk i && regOk d && regOk a && opdOk b && predOk p
  | .mov i d b => issOk i && regOk d && opdOk b
  | .popc i d a | .clz i d a => issOk i && regOk d && regOk a
  | .fadd i d a b | .fsub i d a b | .fmul i d a b | .fmin i d a b | .fmax i d a b =>
    issOk i && regOk d && fopdOk a && fopdOk b
  | .ffma i d a b c => issOk i && regOk d && fopdOk a && fopdOk b && fopdOk c
  | .cvt i d a b c _ => issOk i && regOk d && regOk a && opdOk b && regOk c
  | .cvtBlk i d a b _ => issOk i && regOk (d + 1) && regOk a && regOk b
  | .i2f i _ d a | .f2i i _ d a => issOk i && regOk d && regOk a
  | .isetp i _ _ pd a b => issOk i && predOk pd && regOk a && opdOk b
  | .fsetp i _ pd a b => issOk i && predOk pd && fopdOk a && fopdOk b
  | .pand i pd pa pb | .por i pd pa pb | .pxor i pd pa pb => issOk i && predOk pd && predOk pa && predOk pb
  | .p2g i d => issOk i && regOk d
  | .g2p i a => issOk i && regOk a
  | .bra i t | .call i t => issOk i && targetOk t
  | .ret i | .exit i | .insnNop i | .fenceM i => issOk i
  | .sys i d _ => issOk i && regOk d
  | .ldt i _ _ d a b | .stt i _ d a b => issOk i && regOk d && regOk a && opdOk b
  | .ldg i _ _ _ d a | .stg i _ _ d a => issOk i && regOk d && regOk a
  | .atomT i _ grp d a off b c =>
    issOk i && (match grp with | some m => opdOk m | none => true) && regOk d && regOk a && opdOk off && regOk b && regOk c
  | .atomG i _ grp d a b c =>
    issOk i && (match grp with | some m => opdOk m | none => true) && regOk d && regOk a && regOk b && regOk c
  | .shf i _ d a b mask => issOk i && regOk d && regOk a && opdOk b && opdOk mask
  | .vote i _ d pa mask => issOk i && regOk d && predOk pa && opdOk mask
  | .post i cell _ _ a => issOk i && opdOk cell && regOk a
  | .take i cell _ => issOk i && opdOk cell
  | .mxi i d a _ => issOk i && regOk d && regOk a
  | .mxw i d t => issOk i && regOk d && regOk t
  | .flush i _ => issOk i
  | .dmakGo i ch a _ => issOk i && opdOk ch && regOk a
  | .dmakWait i d ch => issOk i && regOk d && opdOk ch
  | .entryMerge t _ _ | .carrierRepack t _ _ => tileOk t
  | .stallEvent t n adder => if adder then partOk t && decide (n < 32) else tileOk t && decide (n < 16)
  | .orderListEntry r _ => listOk r
  | .rotaSlot r _ => rotaOk r
  | .scheduleCheck => true
  | .mxdTakeUp t _ | .mxdStart t _ _ _ | .stationaryLoadDone t _ _ | .mxdComplete t _ _ _ => tileOk t
  | .tieSum p _ _ => partOk p
  | .dmaCopy r ch | .dmaPack r ch | .dmaUnpack r ch | .fieldRowBroadcast r ch => reqOk r && dmaChOk ch
  | .dmaReadBackDone ch _ => dmaChOk ch
  | .homeAccess _ _ => true
  | .cacheAccess h _ _ | .cacheFill h _ _ | .thrashEvent h => halfOk h
  | .refreshInterval f site _ _ _ _ _ => siteOk f site
  | .tileStoreScrub t pair _ => tileOk t && decide (pair < 16)
  | .recalibration f site ch _ => chanOk f site ch
  | .rowRemap f site ch bank row _ => chanOk f site ch && decide (bank < 32) && decide (row < 4096)
  | .laneGroupSpare f site ch sym => chanOk f site ch && decide (sym < 36)
  | .slotMoveCopy r f site _ | .slotSwitchPoison r f site _ => reqOk r && siteOk f site
  | .slotCopyDone f site _ => siteOk f site
  | .pinFillDone h e _ | .unpinComplete h e _ => halfOk h && decide (e < 8)
  | .cacheClean r h _ | .cacheDrop r h _ => reqOk r && halfOk h
  | .cacheOpDone h _ => halfOk h
  | .regionCommit r _ | .regionFlip r _ | .keyMapCommit r _ | .routeCommit r _ | .keeperSet r _ | .teardown r _ => reqOk r
  | .linkRemap r g _ => reqOk r && decide (g < 8)
  | .livenessIncrement => true
  | .livenessRound m _ _ => decide (m < 1024)
  | .keeperTakeover _ => true
  | .keeperReport j m _ _ => decide (j < 64) && decide (m < 1024)
  | .fwdEnter p | .bwdEnter p | .bwdClose p | .clipEnter p _ | .commitEnter p | .recordOrder p | .discardOrder p => partOk p
  | .recoveryReplay p _ _ => partOk p
  | .checkpoint p _ _ _ _ => partOk p
  | .rollBack p _ _ _ => partOk p
  | .bucketStart p c _ => partOk p && decide (c < 32)
  | .idleFlit k _ | .fabricRsp k _ _ _ | .reduce k _ _ _ | .norm k _ _ _ | .normResult k _ _ _ | .reservedKindFlit k _ _ => linkOk k
  | .fabricReq k _ b => linkOk k && kindOk b.kind
  | .linkReplay k | .linkTraining k _ | .linkTrainingTimeout k _ | .linkRetrain k _ => linkOk k
  | .laneSignalLoss k lane => linkOk k && decide (lane < 8)
  | .linkEnable r k | .linkDisable r k | .linkCtrlRetrain r k | .linkReplayNonzero r k => reqOk r && linkOk k
  | .update r _ => reqOk r
  | .blockUpdateApply _ => true
  | .strobedWrite r _ _ | .guardedFirstWrite r _ _ | .guardTwinWrite r _ _ | .registerWrite r _ _ => reqOk r
  | .bitAliasWrite r _ b _ => reqOk r && decide (b < 32)
  | .mctpRegisterAccess _ _ _ => true
  | .tgFaultValid r f site | .vltThrottlePeakValid r f site | .vltErrAddrValid r f site | .tsErrNonzero r f site
  | .tsErrAddrValid r f site => reqOk r && siteOk f site
  | .vltErrNonzero r f site ch => reqOk r && chanOk f site ch
  | .scStatusThrash r h | .scErrNonzero r h => reqOk r && halfOk h
  | .fabErrNonzero r | .mcGuardValid r | .evrLostNonzero r | .pwrCtrlWake r => reqOk r
  | .rgnPoisonClear r e => reqOk r && decide (e < 4096)
  | .evrRelease r _ | .replicaCommit r _ | .hostDmaList r _ _ => reqOk r
  | .hostDmaRing r n _ => reqOk r && decide (n < 4)
  | .ringEnable r n _ _ | .ringDisable r n => reqOk r && decide (n < 17)
  | .doorbellNotify n _ _ _ => decide (n < 17)
  | .pcieCompletionTimeout _ => true
  | .nop c | .fence c | .progLoad c _ _ _ _ _ _ _ | .schedLoad c _ _ | .regionDefine c _ _ _ | .jobUnload c
  | .kernelLaunch c _ _ _ _ _ _ | .kernelAbort c _ | .dmaXfer c _ _ _ _ | .cacheOp c _ _ _ | .pin c _ _ _ | .unpin c _
  | .stepBegin c _ _ _ | .stepAbort c | .clipSet c _ _ | .tieDeclare c _ _ | .stepQuery c _ | .stepTable c _ _ _
  | .partCreate c _ _ _ _ | .partDestroy c _ _ | .frameLoad c _ _ | .sharedCreate c _ _ _ _ | .sharedSeal c _
  | .keyGrant c _ _ _ _ _ _ _ | .keyRevoke c _ _ | .sharedDestroy c _ | .epochSet c _ | .moduleQuery c | .powerQuery c
  | .powerReef c | .powerReefLeave c | .powerStrike c | .powerDormant c | .powerWake c | .powerLimits c _ _ _
  | .eventRead c _ _ _ _ | .reset c | .certRead c _ _ | .attest c _ _ _ _ | .revokeUpdate c _ _ | .fwInstall c _ _
  | .debugSet c _ _ _ | .lifecycle c _ _ _ | .signQuery c => cmdOk c
  | .kernelComplete _ | .scrubComplete _ | .nodeCacheBuild => true
  | .idcode | .bypass | .secStatus | .samplePreload _ | .extest _ | .regRead _ | .regWrite _ _ | .mem _ _ _ => true
  | .coreHalt c | .coreStep c | .controlCoreStop c => coreOk c
  | .powerUpReset | .resetN | .jtagReset | .perstN | .startupOrderComplete _ | .startupOrderTimeout | .coolantWaitTimeout
  | .lampTimer | .pfwNAssert | .undervoltageWarning | .pfwNRelease | .holdEnd | .resume | .bulkStoreCollapse
  | .governorSample _ _ _ _ _ => true
  | .protectiveHold f _ _ | .protectiveHoldExit f _ _ _ => fieldOk f
  | .sharedRestore e _ _ _ => decide (e < 4096)
  | .recorderTake | .recordWrite | .coolantCrossing _ _ | .pcieLinkUp | .hostReadCompletion _ _ _ _ => true
  | .shortRepairDone f site ch _ => chanOk f site ch

/-- A format code of R65, with the conversion control of R67: SR and SAT alone, no SR into P32. -/
def cvtOk (m : CvtMod) : Bool :=
  let fmt (c : Nat) : Bool := decide (c < 6) || (decide (12 ≤ c) && decide (c < 16))
  fmt m.src && fmt m.dst && decide (m.ctrl < 4) && !(m.dst == 1 && m.ctrl.testBit 0)

/-- The instruction passes the program-load command (R92, R95, R103): pairs named by an even register, selectors of R95,
format codes and conversion controls of R65 and R67, increments of R127. Commands that are no thread instructions pass. -/
def Instr.loadable : Instr → Bool
  | .cvt _ d a _ _ m => cvtOk m && (m.src != 1 || a % 2 == 0) && (m.dst != 1 || d % 2 == 0)
  | .cvtBlk _ d a _ m => cvtOk m && (m.src != 1 || a % 2 == 0) && (m.dst != 1 || d % 2 == 0)
  | .sys _ _ x => decide (x < 9)
  | .ldt _ w _ d _ _ | .stt _ w d _ _ => w != .n16 || d % 2 == 0
  | .ldg _ w _ _ d a | .stg _ w _ d a => a % 2 == 0 && (w != .n16 || d % 2 == 0)
  | .atomG _ _ _ _ a _ _ => a % 2 == 0
  | .vote _ m d _ _ => m == .ballot || decide (d < 8)
  | .post _ _ n _ _ => decide (1 ≤ n) && decide (n < 65536)
  | .take _ _ n => decide (n < 65536)
  | .flush _ mask => decide (mask < 16)
  | _ => true

/-- A well-formed command: its units exist, and a thread instruction passes the program-load command. -/
def Instr.wf (i : Instr) : Bool := i.units && i.loadable

end Sys2Proof
end

