-- ==== Sys2Proof/Machine/Alu.lean ====
section
/-! DEFINITION. Thread instructions of classes x0 to x3 and xC: integer, floating point, conversion, predicate, SYS (R95, R103, R104, R120, R121, R500). -/

namespace Sys2Proof.Machine

/-- The outcome of command i with effect s': the fault where it names a unit that does not exist, the refusal where it is a
thread instruction that the program-load command rejects, else s'. -/
def ran (i : Instr) (s' : State) : Out :=
  if !i.units then .fault .noSuchUnit else if !i.loadable then .refused .rejectedAtLoad else .next s'

/-- The outcome of a command of the core logic: nothing happens while that logic is gated or unpowered (R429, R430). Also DEDUCED, log 97. -/
def ranCore (i : Instr) (s s' : State) : Out := ran i (if s.inService then s' else s)

/-! ### Class x0 (R103) -/

/-- An instruction whose result is a function of operands A and B, lane by lane. -/
def State.alu2 (s : State) (i : Iss) (d a : Nat) (b : Opd) (f : Word → Word → Word) : State :=
  s.perLane i (need 0 [d] (a :: b.regs)) (fun u v L => v.setG i.tile L d (f (u.g i.tile L a) (u.opd i.tile L b)))

/-- The same where some operand values have no stated result: f answers none there, and the result is free (DESIGN CHOICE, log 10). -/
def State.alu2Free (s : State) (i : Iss) (cls d a : Nat) (b : Opd) (f : Word → Word → Option Word) : State :=
  (s.perLane i (need cls [d] (a :: b.regs)) (fun u v L =>
    v.setG i.tile L d ((f (u.g i.tile L a) (u.opd i.tile L b)).getD (s.free L)))).tock

/-- A shift: no result is stated for an amount of 32 or more (DESIGN CHOICE, log 10). -/
def shiftOp (f : Word → Nat → Word) (a b : Word) : Option Word := if b.toNat < 32 then some (f a b.toNat) else none

/-- The high half of a product. R103 does not say whether the factors are signed: where the two readings differ the result
is free (DESIGN CHOICE, log 10). -/
def mulHigh (a b : Word) : Option Word :=
  let un : Word := BitVec.ofNat 32 (a.toNat * b.toNat / 2 ^ 32)
  let si : Word := BitVec.ofInt 32 (a.toInt * b.toInt / 2 ^ 32)
  if un = si then some un else none

/-- Set bits of a word, and leading zeros. -/
def popcount (v : Word) : Nat := ((List.range 32).filter (fun i => v.getLsbD i)).length
def leadingZeros (v : Word) : Nat := if v = 0 then 32 else 31 - Nat.log2 v.toNat

/-- IADD (R103). -/
def execIadd (i : Iss) (d a : Nat) (b : Opd) (s : State) : Out := ran (.iadd i d a b) (s.alu2 i d a b (· + ·))
/-- ISUB (R103). -/
def execIsub (i : Iss) (d a : Nat) (b : Opd) (s : State) : Out := ran (.isub i d a b) (s.alu2 i d a b (· - ·))
/-- IMUL (R103): the low half of the product. -/
def execImul (i : Iss) (d a : Nat) (b : Opd) (s : State) : Out := ran (.imul i d a b) (s.alu2 i d a b (· * ·))
/-- IMULH (R103): the high half of the product. -/
def execImulh (i : Iss) (d a : Nat) (b : Opd) (s : State) : Out := ran (.imulh i d a b) (s.alu2Free i 0 d a b mulHigh)
/-- IMAD (R103): a × b + c. -/
def execImad (i : Iss) (d a : Nat) (b : Opd) (c : Nat) (s : State) : Out :=
  ran (.imad i d a b c) (s.perLane i (need 0 [d] (a :: c :: b.regs)) (fun u v L =>
    v.setG i.tile L d (u.g i.tile L a * u.opd i.tile L b + u.g i.tile L c)))
/-- AND (R103). -/
def execIand (i : Iss) (d a : Nat) (b : Opd) (s : State) : Out := ran (.iand i d a b) (s.alu2 i d a b (· &&& ·))
/-- OR (R103). -/
def execIor (i : Iss) (d a : Nat) (b : Opd) (s : State) : Out := ran (.ior i d a b) (s.alu2 i d a b (· ||| ·))
/-- XOR (R103). -/
def execIxor (i : Iss) (d a : Nat) (b : Opd) (s : State) : Out := ran (.ixor i d a b) (s.alu2 i d a b (· ^^^ ·))
/-- SHL (R103). -/
def execShl (i : Iss) (d a : Nat) (b : Opd) (s : State) : Out :=
  ran (.shl i d a b) (s.alu2Free i 0 d a b (shiftOp (fun v n => v <<< n)))
/-- SHR (R103). -/
def execShr (i : Iss) (d a : Nat) (b : Opd) (s : State) : Out :=
  ran (.shr i d a b) (s.alu2Free i 0 d a b (shiftOp (fun v n => v >>> n)))
/-- SAR (R103). -/
def execSar (i : Iss) (d a : Nat) (b : Opd) (s : State) : Out :=
  ran (.sar i d a b) (s.alu2Free i 0 d a b (shiftOp (fun v n => v.sshiftRight n)))
/-- IMIN, signed or unsigned (R103). -/
def execImin (i : Iss) (signed : Bool) (d a : Nat) (b : Opd) (s : State) : Out :=
  ran (.imin i signed d a b) (s.alu2 i d a b (fun x y => if (if signed then x.slt y else x.ult y) then x else y))
/-- IMAX, signed or unsigned (R103). -/
def execImax (i : Iss) (signed : Bool) (d a : Nat) (b : Opd) (s : State) : Out :=
  ran (.imax i signed d a b) (s.alu2 i d a b (fun x y => if (if signed then x.slt y else x.ult y) then y else x))
/-- SEL (R103): a where the predicate is 1, else b. -/
def execSel (i : Iss) (d a : Nat) (b : Opd) (p : Nat) (s : State) : Out :=
  ran (.sel i d a b p) (s.perLane i { need 0 [d] (a :: b.regs) with preads := [p] } (fun u v L =>
    v.setG i.tile L d (if u.p i.tile L p then u.g i.tile L a else u.opd i.tile L b)))
/-- MOV (R103). -/
def execMov (i : Iss) (d : Nat) (b : Opd) (s : State) : Out :=
  ran (.mov i d b) (s.perLane i (need 0 [d] b.regs) (fun u v L => v.setG i.tile L d (u.opd i.tile L b)))
/-- POPC (R103): set bits of a. -/
def execPopc (i : Iss) (d a : Nat) (s : State) : Out :=
  ran (.popc i d a) (s.perLane i (need 0 [d] [a]) (fun u v L => v.setG i.tile L d (BitVec.ofNat 32 (popcount (u.g i.tile L a)))))
/-- CLZ (R103): leading zeros of a. -/
def execClz (i : Iss) (d a : Nat) (s : State) : Out :=
  ran (.clz i d a) (s.perLane i (need 0 [d] [a]) (fun u v L => v.setG i.tile L d (BitVec.ofNat 32 (leadingZeros (u.g i.tile L a)))))

/-! ### Class x1 (R104) -/

/-- A floating-point instruction of two operands, on codes. -/
def State.fpu2 (s : State) (i : Iss) (d : Nat) (a b : FOpd) (f : Word → Word → Word) : State :=
  s.perLane i (need 1 [d] (a.src.regs ++ b.src.regs)) (fun u v L =>
    v.setG i.tile L d (f (u.fopd i.tile L a) (u.fopd i.tile L b)))

/-- FADD (R104). -/
def execFadd (i : Iss) (d : Nat) (a b : FOpd) (s : State) : Out :=
  ran (.fadd i d a b) (s.fpu2 i d a b (fun x y => fAdd (f32Val x) (f32Val y)))
/-- FSUB (R104). -/
def execFsub (i : Iss) (d : Nat) (a b : FOpd) (s : State) : Out :=
  ran (.fsub i d a b) (s.fpu2 i d a b (fun x y => fAdd (f32Val x) (f32Val y).negate))
/-- FMUL (R104). -/
def execFmul (i : Iss) (d : Nat) (a b : FOpd) (s : State) : Out :=
  ran (.fmul i d a b) (s.fpu2 i d a b (fun x y => fMul (f32Val x) (f32Val y)))
/-- FFMA (R104): rounded once. -/
def execFfma (i : Iss) (d : Nat) (a b c : FOpd) (s : State) : Out :=
  ran (.ffma i d a b c) (s.perLane i (need 1 [d] (a.src.regs ++ b.src.regs ++ c.src.regs)) (fun u v L =>
    v.setG i.tile L d (fFma (f32Val (u.fopd i.tile L a)) (f32Val (u.fopd i.tile L b)) (f32Val (u.fopd i.tile L c)))))
/-- FMIN (R104). -/
def execFmin (i : Iss) (d : Nat) (a b : FOpd) (s : State) : Out := ran (.fmin i d a b) (s.fpu2 i d a b (fMinMax false))
/-- FMAX (R104). -/
def execFmax (i : Iss) (d : Nat) (a b : FOpd) (s : State) : Out := ran (.fmax i d a b) (s.fpu2 i d a b (fMinMax true))

/-! ### Class x2 (R120, R121, R500) -/

/-- The seed and epoch in force at a tile (R84, R85). -/
def State.seed (s : State) (t : Nat) : Long :=
  (s.rd (oRndSeedHi (t / 192) (s.tileSite t))) ++ (s.rd (oRndSeedLo (t / 192) (s.tileSite t)))
def State.epoch (s : State) (t : Nat) : Nat := s.rdF (oRndEpoch (t / 192) (s.tileSite t)) 0 20

/-- The rounding of a conversion: SR draws its bits for index p (R67, R83, R84). -/
def State.rnd (s : State) (t ctrl p : Nat) : Rnd :=
  if ctrl.testBit 0 then .sr (randBits (s.seed t) (randIndex (s.epoch t) p)) else .rne

/-- The source value of a conversion in register a, or the pair at a for P32; upper bits are ignored (R120). -/
def State.cvtSrc (s : State) (t L a : Nat) (f : Fmt) (scale : Nat) : Val :=
  match f with
  | .p32 => p32Val (s.g t L (a + 1)) (s.g t L a)
  | _ => scaledVal f (bits (s.g t L a).toNat 0 (4 * f.nibs)) scale

/-- The registers that an element of a format takes: a pair for P32 (R120). -/
def fmtRegs (f : Fmt) (r : Nat) : List Nat := if f = .p32 then [r, r + 1] else [r]

/-- An element written in the low bits of register d, or as a pair at d for P32 (R120). -/
def State.cvtDst (s : State) (t L d : Nat) (f : Fmt) (code : Nat) : State :=
  match f with
  | .p32 => (s.setG t L d (BitVec.ofNat 32 code)).setG t L (d + 1) (BitVec.ofNat 32 (code / 2 ^ 32))
  | _ => s.setG t L d (BitVec.ofNat 32 code)

/-- The element code of one conversion under a scale given (R87, R89, R120, R500). -/
def cvtCode (f : Fmt) (ctrl : Nat) (rm : Rnd) (scale : Nat) (v : Val) : Nat :=
  if f.scaled then encScaled f rm scale v else encElem f (ctrl.testBit 1) rm v

/-- CVT (R120, R500). -/
def execCvt (i : Iss) (d a : Nat) (b : Opd) (c : Nat) (m : CvtMod) (s : State) : Out :=
  ran (.cvt i d a b c m)
    (match fmtOf m.src, fmtOf m.dst with
     | some fs, some fd =>
       s.perLane i (need 2 (fmtRegs fd d) (fmtRegs fs a ++ b.regs ++ (if fs.scaled || fd.scaled then [c] else []))) (fun u v L =>
         let scale := fld (u.g i.tile L c) 0 8
         let rm := u.rnd i.tile m.ctrl (u.opd i.tile L b).toNat
         v.cvtDst i.tile L d fd (cvtCode fd m.ctrl rm scale (u.cvtSrc i.tile L a fs scale)))
     | _, _ => s)

/-- The F32 value of an integer (I2F: R110 names it, class x1 rounds to nearest even). -/
def intToF32 (signed : Bool) (v : Word) : Word :=
  let x : Int := if signed then v.toInt else v.toNat
  rne32 (decide (x < 0)) ⟨x, 0⟩

/-- The integer of an F32 value, where the value is an integer in range; elsewhere no result is stated (DESIGN CHOICE, log 10). -/
def f32ToInt (signed : Bool) (v : Word) : Option Word :=
  match f32Val v with
  | .fin _ x =>
    let k := (-x.e).toNat
    let n : Int := if 0 ≤ x.e then x.m * 2 ^ x.e.toNat else x.m / 2 ^ k
    let exact := decide (0 ≤ x.e) || decide (x.m % 2 ^ k = 0)
    let inRange := if signed then decide (-(2 ^ 31) ≤ n) && decide (n < 2 ^ 31) else decide (0 ≤ n) && decide (n < 2 ^ 32)
    if exact && inRange then some (BitVec.ofInt 32 n) else none
  | _ => none

/-- I2F (R103). -/
def execI2f (i : Iss) (signed : Bool) (d a : Nat) (s : State) : Out :=
  ran (.i2f i signed d a) (s.perLane i (need 2 [d] [a]) (fun u v L => v.setG i.tile L d (intToF32 signed (u.g i.tile L a))))
/-- F2I (R103): free where no result is stated (DESIGN CHOICE, log 10). -/
def execF2i (i : Iss) (signed : Bool) (d a : Nat) (s : State) : Out :=
  ran (.f2i i signed d a) (s.alu2Free i 2 d a (.reg a) (fun x _ => f32ToInt signed x))

/-! ### Class x3 (R103) -/

/-- A comparison of integers (PRESUMED, log 8 gives the names their meaning). -/
def icmp (c : Cmp) (signed : Bool) (x y : Word) : Bool :=
  let lt (a b : Word) : Bool := if signed then a.slt b else a.ult b
  match c with
  | .eq => x == y | .ne => x != y | .lt => lt x y | .le => !lt y x | .gt => lt y x | .ge => !lt x y

/-- A comparison of F32 values; no result is stated with a NaN (DESIGN CHOICE, log 10). Zeros of either sign are equal numbers. -/
def fcmp (c : Cmp) (x y : Word) : Option Bool :=
  let num (a b : Val) : Bool := vLess a b && !(a.isZero && b.isZero)
  match f32Val x, f32Val y with
  | .nan, _ => none
  | _, .nan => none
  | a, b =>
    let lt := num a b
    let gt := num b a
    some (match c with
      | .eq => !lt && !gt | .ne => lt || gt | .lt => lt | .le => !gt | .gt => gt | .ge => !lt)

/-- ISETP (R103). -/
def execIsetp (i : Iss) (c : Cmp) (signed : Bool) (pd a : Nat) (b : Opd) (s : State) : Out :=
  ran (.isetp i c signed pd a b) (s.perLane i { need 3 [] (a :: b.regs) with pwrites := [pd] } (fun u v L =>
    v.setP i.tile L pd (icmp c signed (u.g i.tile L a) (u.opd i.tile L b))))
/-- FSETP (R103): free with a NaN (DESIGN CHOICE, log 10). -/
def execFsetp (i : Iss) (c : Cmp) (pd : Nat) (a b : FOpd) (s : State) : Out :=
  ran (.fsetp i c pd a b) (s.perLane i { need 3 [] (a.src.regs ++ b.src.regs) with pwrites := [pd] } (fun u v L =>
    v.setP i.tile L pd ((fcmp c (u.fopd i.tile L a) (u.fopd i.tile L b)).getD ((s.free L).getLsbD 0)))).tock
/-- PAND (R103). -/
def execPand (i : Iss) (pd pa pb : Nat) (s : State) : Out :=
  ran (.pand i pd pa pb) (s.perLane i { need 3 [] [] with preads := [pa, pb], pwrites := [pd] } (fun u v L => v.setP i.tile L pd (u.p i.tile L pa && u.p i.tile L pb)))
/-- POR (R103). -/
def execPor (i : Iss) (pd pa pb : Nat) (s : State) : Out :=
  ran (.por i pd pa pb) (s.perLane i { need 3 [] [] with preads := [pa, pb], pwrites := [pd] } (fun u v L => v.setP i.tile L pd (u.p i.tile L pa || u.p i.tile L pb)))
/-- PXOR (R103). -/
def execPxor (i : Iss) (pd pa pb : Nat) (s : State) : Out :=
  ran (.pxor i pd pa pb) (s.perLane i { need 3 [] [] with preads := [pa, pb], pwrites := [pd] } (fun u v L => v.setP i.tile L pd (u.p i.tile L pa != u.p i.tile L pb)))

/-- The eight predicates of a lane as a byte, p0 lowest. R103 names P2G and G2P only: bit k for pk is the model's reading
(PRESUMED, log 8). -/
def State.predByte (s : State) (t L : Nat) : Nat := (List.range 8).foldl (fun m k => m + b2n (s.p t L k) * 2 ^ k) 0

/-- P2G (R103). -/
def execP2g (i : Iss) (d : Nat) (s : State) : Out :=
  ran (.p2g i d) (s.perLane i { need 3 [d] [] with preads := List.range 8 } (fun u v L => v.setG i.tile L d (BitVec.ofNat 32 (u.predByte i.tile L))))
/-- G2P (R103): the write to p7 is ignored. -/
def execG2p (i : Iss) (a : Nat) (s : State) : Out :=
  ran (.g2p i a) (s.perLane i { need 3 [] [a] with pwrites := List.range 8 } (fun u v L =>
    (List.range 8).foldl (fun w k => w.setP i.tile L k (flag (u.g i.tile L a) k)) v))

/-! ### SYS (R95) -/

/-- The value of a selector for a lane (R95). -/
def State.sysValue (s : State) (t L sel : Nat) : Nat :=
  let g := s.group t (homeOf L)
  match sel with
  | 0 => L % 32
  | 1 => homeOf L
  | 2 => t % 192
  | 3 => t
  | 4 => t / 192
  | 5 => s.moduleId
  | 6 => g.part
  | 7 => g.args
  | _ => g.index

/-- SYS (R95). -/
def execSys (i : Iss) (d x : Nat) (s : State) : Out :=
  ran (.sys i d x) (s.perLane i (need 12 [d] []) (fun u v L => v.setG i.tile L d (BitVec.ofNat 32 (u.sysValue i.tile L x))))

end Sys2Proof.Machine
end

