-- ==== Sys2Proof/Machine/GroupOps.lean ====
section
/-! DEFINITION. Group instructions: arrival, member lanes, and what each does once its members have arrived (R115 to R132). -/

namespace Sys2Proof

/-- The member mask operand of a group instruction that has one (R115). -/
def GroupOp.mask : GroupOp → Option Opd
  | .shf _ _ _ _ m => some m
  | .vote _ _ _ m => some m
  | .atomT _ _ _ _ _ _ m => some m
  | .atomG _ _ _ _ _ m => some m
  | _ => none

/-- The instructions whose guard must be the same in every member lane (R116). -/
def GroupOp.uniformGuard : GroupOp → Bool
  | .post _ _ _ _ => true
  | .take _ _ => true
  | .mxi _ _ _ => true
  | .mxw _ _ => true
  | .flush _ => true
  | .dmakGo _ _ _ => true
  | .dmakWait _ _ => true
  | _ => false

end Sys2Proof

namespace Sys2Proof.Machine

/-- The lanes of group n of tile t that have not exited. -/
def State.liveLanes (s : State) (t n : Nat) : List Nat :=
  ((List.range 32).filter (fun i => !(s.group t n).exited.getLsbD i)).map (· + 32 * n)

/-- The entry waits at the group instruction at pc for home group n. -/
def Entry.arrivedAt (e : Entry) (n : Nat) (pc : Pc) : Bool :=
  (match e.wait with
   | .arrive _ _ _ => true
   | _ => false) && e.pc == pc && e.lanes.all (fun L => homeOf L == n)

/-- The lanes of home group n that wait at pc, ascending. -/
def State.arrivedLanes (s : State) (t n : Nat) (pc : Pc) : List Nat :=
  (((s.entries t).filter (fun e => e.arrivedAt n pc)).flatMap (·.lanes)).foldl sadd []

/-- The entries of group n that wait at pc become one entry, at the earliest list position: R115 names no position (DESIGN CHOICE,
log 130). -/
def State.joinArrived (s : State) (t n : Nat) (pc : Pc) (e : Entry) : State :=
  let k := indexOf (fun x => x.arrivedAt n pc) (s.entries t)
  s.mapEntries t (fun j x => if !x.arrivedAt n pc then [x] else if k == some j then [e] else [])

/-- The scale of a block-scaled source of CVT.BLK, which R121 gives no operand for (DESIGN CHOICE, log 10). -/
def State.freeScale (s : State) : Nat := fld (s.free 0) 0 8

/-- Source lane of SHF for home lane i (R118). -/
def shfLane (m : ShfMode) (i b : Nat) : Option Nat :=
  let j : Int := match m with
    | .idx => b
    | .up => (i : Int) - b
    | .down => (i : Int) + b
    | .xor => ((i ^^^ b : Nat) : Int)
  if 0 ≤ j && j < 32 then some j.toNat else none

/-- The values of the 32 elements of a CVT.BLK (R121): exited lanes and lanes with their guard at 0 supply zero. -/
def State.blkVals (s : State) (t n a : Nat) (f : Fmt) (scale : Nat) (on : Nat → Bool) (ls : List Nat) : List Val :=
  (List.range 32).map (fun k =>
    let L := 32 * n + k
    if ls.contains L && on L then s.cvtSrc t L a f scale else .fin false dy0)

/-- CVT.BLK of a home group (R121). The scale that an unscaled destination returns is not stated (DESIGN CHOICE, log 10). -/
def State.cvtBlkLanes (s : State) (t n d a b : Nat) (m : CvtMod) (on : Nat → Bool) (ls : List Nat) : State :=
  match fmtOf m.src, fmtOf m.dst with
  | some fs, some fd =>
    let vs := s.blkVals t n a fs s.freeScale on ls
    let rms := (List.range 32).map (fun k => s.rnd t m.ctrl (s.g t (32 * n + k) b).toNat)
    let (codes, scale) := if fd.scaled then convBlock fd rms vs
      else (List.zipWith (fun rm v => encElem fd (m.ctrl.testBit 1) rm v) rms vs, fld (s.free 1) 0 8)
    (ls.filter on).foldl (fun u L =>
      let v := u.cvtDst t L d fd (nth 0 codes (L % 32))
      if fd = .p32 then v else v.setG t L (d + 1) (BitVec.ofNat 32 scale)) s
  | _, _ => s

/-- A POST target lies in the job (R127): a tile of this module in a partition of the job, or a module of the job's set. -/
def State.postAllowed (s : State) (p a : Nat) : Bool :=
  let m := a / 2 ^ 14 % 1024
  let t' := a % 2 ^ 14
  decide (t' < 12288) &&
  (if m = s.moduleId then
    match s.partOfField (t' / 192) with
    | some q => s.jobOf q == s.jobOf p
    | none => false
  else match (s.part p).table with
    | some tb => tb.list.any (fun x => x.1 == m)
    | none => false)

/-- The lowest free token of a group (R129). -/
def lowestToken (g : Group) : Option Nat := (List.range 16).find? (fun k => (tfind g.tokens k).isNone)

/-- The data of a matrix descriptor at offset off of tile t, or the status that MXW reports (R129). From a misaligned offset or one
outside the store nothing is copied: what is taken up has reserved codes, so that BAD_DESCRIPTOR comes at its take-up (R160;
DESIGN CHOICE, log 124). -/
def State.mxiRead (s : State) (t off : Nat) (u : Upsets) : Except Status Mxd :=
  if off % 64 != 0 || tsSize < off + 64 then .ok (BitVec.allOnes 256)
  else if s.readsPoison u (storeBase t + off) 64 then .error .poisoned
  else .ok (BitVec.ofNat 256 (ofNibs (s.seen u (storeBase t + off) 64)))

/-- What a group instruction whose member lanes `ls` of group n have arrived at pc does (R115 to R132). -/
def State.execGroup (s : State) (t n : Nat) (pc : Pc) (op : GroupOp) (on : Nat → Bool) (ls : List Nat) (u : Upsets) : State :=
  let g := s.group t n
  let stay (w : Wait) : Entry := { lanes := ls, pc := pc, wait := w, stalled := false }
  let next : Entry := { lanes := ls, pc := pc + 1, wait := .none, stalled := false }
  let fail (st : Status) : State := s.halt t n st pc.toNat (laneMask n ls) 0
  let onLanes := ls.filter on
  let mixed := ls.any on && ls.any (fun L => !on L)
  if op.uniformGuard && mixed then fail .badDescriptor
  else if op.uniformGuard && !ls.any on then s.joinArrived t n pc next
  else
    match op with
    | .shf m d a b _ =>
      (onLanes.foldl (fun v L =>
        let src := match shfLane m (L % 32) (s.opd t L b).toNat with
          | some j => if ls.contains (32 * n + j) then 32 * n + j else L
          | none => L
        v.setG t L d (s.g t src a)) s).joinArrived t n pc next
    | .vote m d pa _ =>
      let yes (L : Nat) : Bool := on L && s.p t L pa
      (match m with
       | .all => onLanes.foldl (fun (v : State) L => v.setP t L d (ls.all yes)) s
       | .any => onLanes.foldl (fun (v : State) L => v.setP t L d (ls.any yes)) s
       | .ballot => onLanes.foldl (fun (v : State) L => v.setG t L d (laneMask n (ls.filter yes))) s).joinArrived t n pc next
    | .cvtBlk d a b m => ((s.cvtBlkLanes t n d a b m on ls).joinArrived t n pc next).tock
    | .atomT fn d a off b c _ =>
      (s.joinArrived t n pc next).enterPipe t pc.toNat u
        (.atomT fn d (onLanes.map (fun L => (L, (s.g t L a + s.opd t L off).toNat, s.g t L b, s.g t L c))))
    | .atomG fn d a b c _ =>
      (s.joinArrived t n pc next).enterPipe t pc.toNat u
        (.atomG fn d (onLanes.map (fun L => (L, s.gpair t L a, s.g t L b, s.g t L c))))
    | .post cell c self a =>
      let k := (s.uniformOpd t ls cell).toNat % 64
      let target := (s.uniform t ls a).toNat % 2 ^ 24
      if !self && !s.postAllowed g.part target then (fail .notAuthorized).tock
      else ((s.joinArrived t n pc (stay (.post k c (if self then none else some target)))).wakeTile t).tock
    | .take cell c =>
      let k := (s.uniformOpd t ls cell).toNat % 64
      let mine := match (s.part g.part).sched with
        | some img => img.takers.any (fun x => x == (t, k, Taker.slot n))
        | none => false
      if !mine then (fail .notAuthorized).tock
      else ((s.joinArrived t n pc (stay (.take k c))).wakeTile t).tock
    | .mxi d a imm =>
      match lowestToken g with
      | none => fail .wrongState
      | some tok =>
        let off := (s.uniform t ls a + BitVec.ofNat 32 imm).toNat
        let s0 := if off % 64 == 0 && decide (off + 64 ≤ tsSize) then s.sense u (storeBase t + off) 64 else s
        let s1 := s0.setAll t ls d (BitVec.ofNat 32 tok)
        let s2 := match s.mxiRead t off u with
          | .ok m =>
            let x := s1.mxu t
            (s1.putGroup t n { g with tokens := tput g.tokens tok .busy }).putMx t
              { x with issue := x.issue ++ [MxItem.mxd n tok m] }
          | .error st =>
            (s1.putGroup t n { g with tokens := tput g.tokens tok (.done st) }).bumpWrap (oMxDone (t / 192) (s1.tileSite t)) 0 32 1
        (s2.joinArrived t n pc next).tock
    | .mxw d r =>
      let tok := (s.uniform t ls r).toNat
      ((s.joinArrived t n pc (stay (.mxw d tok))).wakeTile t).tock
    | .flush mask =>
      let x := s.mxu t
      (s.putMx t { x with issue := x.issue ++ [MxItem.flush n mask] }).joinArrived t n pc next
    | .dmakGo ch a imm =>
      let c := (s.uniformOpd t ls ch).toNat % 8
      let off := (s.uniform t ls a + BitVec.ofNat 32 imm).toNat
      let mine := match (s.part g.part).sched with
        | some img => img.dmaOwners.any (fun x => x == (t / 192, c, t, n))
        | none => false
      if !mine then (fail .notAuthorized).tock
      else ((s.joinArrived t n pc (stay (.dmakGo (t / 192 * 8 + c) off))).wakeTile t).tock
    | .dmakWait d ch =>
      let c := (s.uniformOpd t ls ch).toNat % 8
      let mine := match (s.part g.part).sched with
        | some img => img.dmaOwners.any (fun x => x == (t / 192, c, t, n))
        | none => false
      if !mine then (fail .notAuthorized).tock
      else ((s.joinArrived t n pc (stay (.dmakWait d (t / 192 * 8 + c)))).wakeTile t).tock

/-- The group instruction that entry e waits at executes if every member lane of its home group has arrived (R115, R117). -/
def State.tryEntry (s : State) (t : Nat) (e : Entry) (u : Upsets) : State :=
  match e.wait with
  | .arrive op gp gn =>
    let n := homeOf (nth 0 e.lanes 0)
    let ls := s.arrivedLanes t n e.pc
    let on := s.guardOn t gp gn
    match op.mask with
    | some m =>
      let v := s.opd t (nth 0 ls 0) m
      if ls.any (fun L => s.opd t L m != v) then s.halt t n .badDescriptor e.pc.toNat (laneMask n ls) 0
      else if (s.liveLanes t n).all (fun L => !v.getLsbD (L % 32) || ls.contains L) then s.execGroup t n e.pc op on ls u
      else s
    | none => if (s.liveLanes t n).all (fun L => ls.contains L) then s.execGroup t n e.pc op on ls u else s
  | _ => s

/-- The group instructions that group n of tile t waits at, looked at in list order (R117). -/
def State.tryGroup (s : State) (t n : Nat) (u : Upsets) : State :=
  ((s.entries t).filter (fun e => e.lanes.any (fun L => homeOf L == n))).foldl (fun v e =>
    if (v.entries t).contains e then v.tryEntry t e u else v) s

/-- An entry reaches a group instruction: its lanes wait with their own home groups; a lane whose own bit is clear in its
member mask halts its group (R115, R116). -/
def State.arrive (s : State) (i : Iss) (n : Need) (op : GroupOp) : State :=
  s.issue i n (fun u e =>
    let homes := homesOf e.lanes
    let parts := homes.map (fun n =>
      ({ lanes := e.lanes.filter (fun L => homeOf L == n), pc := e.pc, wait := .arrive op i.gpred i.gneg,
         stalled := false } : Entry))
    let u1 := u.spliceEntry i.tile i.entry parts
    let out := match op.mask with
      | some m => e.lanes.filter (fun L => !(u.opd i.tile L m).getLsbD (L % 32))
      | none => []
    let u2 := u1.haltLanes i.tile .badDescriptor e.pc.toNat out (fun _ => 0)
    homes.foldl (fun v n => v.tryGroup i.tile n i.mem) u2)

/-! ### The group instructions -/

/-- CVT.BLK (R121). -/
def execCvtBlk (i : Iss) (d a b : Nat) (m : CvtMod) (s : State) : Out :=
  ran (.cvtBlk i d a b m) (match fmtOf m.src with
    | some fs => s.arrive i (need 2 [d, d + 1] (fmtRegs fs a ++ [b])) (.cvtBlk d a b m)
    | none => s)
/-- SHF (R118). -/
def execShf (i : Iss) (m : ShfMode) (d a : Nat) (b mask : Opd) (s : State) : Out :=
  ran (.shf i m d a b mask) (s.arrive i (need 8 [d] (a :: b.regs ++ mask.regs)) (.shf m d a b mask))
/-- VOTE (R119). -/
def execVote (i : Iss) (m : VoteMode) (d pa : Nat) (mask : Opd) (s : State) : Out :=
  ran (.vote i m d pa mask) (s.arrive i
    (if m = .ballot then { need 8 [d] mask.regs with preads := [pa] }
     else { need 8 [] mask.regs with preads := [pa], pwrites := [d] }) (.vote m d pa mask))
/-- POST (R127). -/
def execPost (i : Iss) (cell : Opd) (n : Nat) (self : Bool) (a : Nat) (s : State) : Out :=
  ran (.post i cell n self a) (s.arrive i (need 9 [] ((if self then [] else [a]) ++ cell.regs)) (.post cell n self a))
/-- TAKE (R128). -/
def execTake (i : Iss) (cell : Opd) (n : Nat) (s : State) : Out :=
  ran (.take i cell n) (s.arrive i (need 9 [] cell.regs) (.take cell n))
/-- MXI (R129). -/
def execMxi (i : Iss) (d a imm : Nat) (s : State) : Out := ran (.mxi i d a imm) (s.arrive i (need 10 [d] [a]) (.mxi d a imm))
/-- MXW (R130). -/
def execMxw (i : Iss) (d t : Nat) (s : State) : Out := ran (.mxw i d t) (s.arrive i (need 10 [d] [t]) (.mxw d t))
/-- FLUSH (R131). -/
def execFlush (i : Iss) (mask : Nat) (s : State) : Out := ran (.flush i mask) (s.arrive i (need 10 [] []) (.flush mask))
/-- DMAK.GO (R132). -/
def execDmakGo (i : Iss) (ch : Opd) (a imm : Nat) (s : State) : Out :=
  ran (.dmakGo i ch a imm) (s.arrive i (need 11 [] (a :: ch.regs)) (.dmakGo ch a imm))
/-- DMAK.WAIT (R132). -/
def execDmakWait (i : Iss) (d : Nat) (ch : Opd) (s : State) : Out :=
  ran (.dmakWait i d ch) (s.arrive i (need 11 [d] ch.regs) (.dmakWait d ch))

end Sys2Proof.Machine
end

