-- ==== Sys2Proof/Machine/Control.lean ====
section
/-! DEFINITION. Thread instructions of classes x4 to x7: control, tile memory, global memory, atomics; and the rotor's merges and stall events (R96, R97, R103, R106, R111 to R113, R117, R122, R124, R56). -/

namespace Sys2Proof.Machine

/-! ### Class x4 (R103, R111) -/

/-- The lanes of an entry by next program counter, in ascending order of their lowest lane (R111). -/
def splitBy (f : Nat → Pc) : List Nat → List (Pc × List Nat)
  | [] => []
  | L :: r =>
    let rest := splitBy f r
    match rest.find? (fun x => x.1 == f L) with
    | some x => (f L, L :: x.2) :: rest.filter (fun y => y.1 != f L)
    | none => (f L, [L]) :: rest

/-- A branch: executing lanes go to their target, the others to the next instruction, and the entry splits (R105, R111). -/
def State.branch (s : State) (i : Iss) (n : Need) (pre : State → Entry → Nat → State) (target : State → Nat → Pc) : State :=
  s.issue i n (fun u e =>
    let act := u.active i e
    let next (L : Nat) : Pc := if act.contains L then target u L else e.pc + 1
    let u1 := act.foldl (fun v L => pre v e L) u
    u1.spliceEntry i.tile i.entry ((splitBy next e.lanes).map (fun x => { lanes := x.2, pc := x.1, wait := .none, stalled := false })))

/-- The program counter that a target names for a lane. R103 does not say what a register above 8,191 names: its low 13 bits count
(R92; DESIGN CHOICE, log 132). -/
def State.targetPc (s : State) (t L : Nat) : Target → Pc
  | .direct n => BitVec.ofNat 13 n
  | .ind r => (s.g t L r).truncate 13

/-- The registers a target reads. -/
def targetRegs : Target → List Nat
  | .direct _ => []
  | .ind r => [r]

/-- BRA, direct and register-indirect (R103, R111). -/
def execBra (i : Iss) (t : Target) (s : State) : Out :=
  ran (.bra i t) (s.branch i (need 4 [] (targetRegs t)) (fun v _ _ => v) (fun u L => u.targetPc i.tile L t))
/-- CALL: the return index goes into g63 (R92). -/
def execCall (i : Iss) (t : Target) (s : State) : Out :=
  ran (.call i t) (s.branch i (need 4 [63] (targetRegs t))
    (fun v e L => v.setG i.tile L 63 ((e.pc + 1).zeroExtend 32)) (fun u L => u.targetPc i.tile L t))
/-- RET: the next instruction is the one that g63 names (R92, R103; DESIGN CHOICE, log 132). -/
def execRet (i : Iss) (s : State) : Out :=
  ran (.ret i) (s.branch i (need 4 [] [63]) (fun v _ _ => v) (fun u L => (u.g i.tile L 63).truncate 13))
/-- NOP (R103). -/
def execInsnNop (i : Iss) (s : State) : Out := ran (.insnNop i) (s.perLane i (need 4 [] []) (fun _ v _ => v))

/-- A lane is marked as exited (R96). -/
def State.exitLane (s : State) (t L : Nat) : State :=
  let g := s.group t (homeOf L)
  s.putGroup t (homeOf L) { g with exited := g.exited ||| BitVec.ofNat 32 (2 ^ (L % 32)) }

/-- EXIT: the executing lanes end; a group instruction that waited only for them executes; a slot whose lanes have all
exited and whose operations have completed is free (R96, R117). -/
def execExit (i : Iss) (s : State) : Out :=
  ran (.exit i) (s.issue i (need 4 [] []) (fun u e =>
    let act := u.active i e
    let rest := e.lanes.filter (fun L => !act.contains L)
    let u1 := act.foldl (fun v L => v.exitLane i.tile L) u
    let u2 := u1.spliceEntry i.tile i.entry
      (if rest.isEmpty then [] else [{ e with lanes := rest, pc := e.pc + 1, stalled := false }])
    let u3 := (homesOf act).foldl (fun v n => v.tryGroup i.tile n i.mem) u2
    u3.wakeTile i.tile))

/-! ### Classes x5 and x6 (R97 to R101) -/

/-- The data register of a store, as nibbles of its width (R98, R102). -/
def State.storeData (s : State) (t L d : Nat) (w : Width) : List Nib :=
  match w with
  | .n16 => nibsOf (s.gpair t L d).toNat 16
  | _ => nibsOf (s.g t L d).toNat w.nibs

/-- The registers of a load or store of a width. -/
def widthRegs (w : Width) (d : Nat) : List Nat := if w = .n16 then [d, d + 1] else [d]

/-- An instruction of classes x5 to x7 that acts lane by lane: its entry goes on and its access enters the pipe, with the operands of
the executing lanes (R101, R107). -/
def State.memory (s : State) (i : Iss) (n : Need) (op : State → List Nat → PipeOp) : State :=
  s.issue i n (fun u e => (u.advance i e).enterPipe i.tile e.pc.toNat i.mem (op u (u.active i e)))

/-- LDT (R97, R98, R134). -/
def execLdt (i : Iss) (w : Width) (sx : Bool) (d a : Nat) (b : Opd) (s : State) : Out :=
  ran (.ldt i w sx d a b) (s.memory i (need 5 (widthRegs w d) (a :: b.regs)) (fun u ls =>
    .ldt w sx d (ls.map (fun L => (L, (u.g i.tile L a + u.opd i.tile L b).toNat)))))
/-- STT (R97, R98, R134, R256). -/
def execStt (i : Iss) (w : Width) (d a : Nat) (b : Opd) (s : State) : Out :=
  ran (.stt i w d a b) (s.memory i (need 5 [] (widthRegs w d ++ a :: b.regs)) (fun u ls =>
    .stt (ls.map (fun L => (L, (u.g i.tile L a + u.opd i.tile L b).toNat, u.storeData i.tile L d w)))))
/-- LDG, with the RETIRE hint of R285 (R97). -/
def execLdg (i : Iss) (w : Width) (sx retire : Bool) (d a : Nat) (s : State) : Out :=
  ran (.ldg i w sx retire d a) (s.memory i (need 6 (widthRegs w d) [a, a + 1]) (fun u ls =>
    .glob (some d) w sx retire (ls.map (fun L => (L, u.gpair i.tile L a, .load w.nibs)))))
/-- STG, with the RETIRE hint of R285 (R97). -/
def execStg (i : Iss) (w : Width) (retire : Bool) (d a : Nat) (s : State) : Out :=
  ran (.stg i w retire d a) (s.memory i (need 6 [] (widthRegs w d ++ [a, a + 1])) (fun u ls =>
    .glob none w false retire (ls.map (fun L => (L, u.gpair i.tile L a, .store (u.storeData i.tile L d w))))))
/-- FENCE.M: the executing lanes wait until every global access they issued has completed; the others go on (R101, R105,
R111). -/
def execFenceM (i : Iss) (s : State) : Out :=
  ran (.fenceM i) (s.issue i (need 6 [] []) (fun u e =>
    let act := u.active i e
    let rest := e.lanes.filter (fun L => !act.contains L)
    let w : Entry := { lanes := act, pc := e.pc, wait := .fence, stalled := false }
    let g : Entry := { lanes := rest, pc := e.pc + 1, wait := .none, stalled := false }
    let parts := if rest.isEmpty then [w] else if act.isEmpty then [g]
      else if nth 0 act 0 < nth 0 rest 0 then [w, g] else [g, w]
    (u.spliceEntry i.tile i.entry parts).wakeTile i.tile))

/-! ### Class x7 (R122 to R124) -/

/-- ATOM.T (R122): with GROUP = 1 a group instruction (R124). Register c is an operand of CAS alone. -/
def execAtomT (i : Iss) (fn : AtomFn) (grp : Option Opd) (d a : Nat) (off : Opd) (b c : Nat) (s : State) : Out :=
  ran (.atomT i fn grp d a off b c)
    (let rs := a :: b :: (if fn = .cas then [c] else []) ++ off.regs
     match grp with
     | some m => s.arrive i (need 7 [d] (rs ++ m.regs)) (.atomT fn d a off b c m)
     | none => s.memory i (need 7 [d] rs) (fun u ls =>
         .atomT fn d (ls.map (fun L => (L, (u.g i.tile L a + u.opd i.tile L off).toNat, u.g i.tile L b, u.g i.tile L c)))))
/-- ATOM.G (R122): with GROUP = 1 a group instruction (R124). Register c is an operand of CAS alone. -/
def execAtomG (i : Iss) (fn : AtomFn) (grp : Option Opd) (d a : Nat) (b c : Nat) (s : State) : Out :=
  ran (.atomG i fn grp d a b c)
    (let rs := a :: (a + 1) :: b :: (if fn = .cas then [c] else [])
     match grp with
     | some m => s.arrive i (need 7 [d] (rs ++ m.regs)) (.atomG fn d a b c m)
     | none => s.memory i (need 7 [d] rs) (fun u ls =>
         .atomG fn d (ls.map (fun L => (L, u.gpair i.tile L a, u.g i.tile L b, u.g i.tile L c)))))

/-! ### The rotor (R106, R112, R113) and stall events (R56, R117) -/

/-- Two entries of a tile become one at the earlier list position, its lanes in home order. -/
def State.mergeEntries (s : State) (t a b : Nat) (x y : Entry) : State :=
  let e : Entry := { lanes := (x.lanes ++ y.lanes).foldl sadd [], pc := x.pc, wait := .none, stalled := false }
  s.mapEntries t (fun j z => if j = a then [e] else if j = b then [] else [z])

/-- Both entries are runnable, their program counters are equal, and they hold at most 32 lanes (R112, R113). -/
def State.mayJoin (s : State) (t : Nat) (x y : Entry) : Bool :=
  s.runnable t x && s.runnable t y && x.pc == y.pc && decide (x.lanes.length + y.lanes.length ≤ 32)

/-- ENTRY_MERGE (R112): two entries that hold lanes of the same home group. -/
def execEntryMerge (t a b : Nat) (s : State) : Out :=
  ranCore (.entryMerge t a b) s
    (match (s.entries t)[a]?, (s.entries t)[b]? with
     | some x, some y =>
       if decide (a < b) && s.mayJoin t x y && (homesOf x.lanes).any (fun n => (homesOf y.lanes).contains n) then
         s.mergeEntries t a b x y else s
     | _, _ => s)

/-- CARRIER_REPACK (R113): two entries of different home groups of one kernel launched with REPACK. -/
def execCarrierRepack (t a b : Nat) (s : State) : Out :=
  ranCore (.carrierRepack t a b) s
    (match (s.entries t)[a]?, (s.entries t)[b]? with
     | some x, some y =>
       let hs := homesOf (x.lanes ++ y.lanes)
       let g := s.group t (nth 0 hs 0)
       if decide (a < b) && s.mayJoin t x y && (homesOf x.lanes).all (fun n => !(homesOf y.lanes).contains n) &&
           hs.all (fun n => (s.group t n).repack && (s.group t n).kernel == g.kernel) then
         s.mergeEntries t a b x y else s
     | _, _ => s)

/-- The waits that a stall event is about: a group instruction that waits for a member lane, and a TAKE, an MXW or a DMAK; not FENCE.M
and no POST (R53, R117). -/
def Wait.stalls : Wait → Bool
  | .none => false
  | .fence => false
  | .post _ _ _ => false
  | _ => true

/-- A repeat of a stall that has been logged counts in the repeat count of its record (R56, R474). -/
def State.repeatStall (s : State) (x : Src) : State :=
  let mine (r : Record) : Bool := r.cls == Cls.sync.code && r.src == srcCode x
  match (s.recorder.log.filter mine).getLast? with
  | some r => { s with recorder := { s.recorder with log := s.recorder.log.map (fun y =>
      if y.seq == r.seq then { y with rep := satAdd y.rep 1 65535 } else y) } }
  | none => s

/-- A group's wait has lasted longer than `CHK_STALL.LIMIT`: it is logged once for each waiting node, and a repeat is counted (R53, R56,
R117). -/
def State.groupStall (s : State) (t n : Nat) : State :=
  let mine (e : Entry) : Bool := e.wait.stalls && e.lanes.any (fun L => homeOf L == n)
  let new := (s.entries t).filter (fun e => mine e && !e.stalled)
  let s1 := s.mapEntries t (fun _ e => [if mine e then { e with stalled := true } else e])
  let s2 := new.foldl (fun v _ => v.raisePart .sync .ok (v.srcTile t) (v.group t n).part) s1
  if new.isEmpty && (s.entries t).any mine then s2.repeatStall (s.srcTile t) else s2

end Sys2Proof.Machine
end

