-- ==== Sys2Proof/Machine/MxData.lean ====
section
/-! DEFINITION. Matrix descriptors, their checks and their arithmetic (R138 to R166, R176 to R195): arrays, operands, group sums, the accumulator update, poison marks and expo. -/

namespace Sys2Proof.Machine

/-! ### The fields of a descriptor (R149) -/

/-- The fields of a matrix descriptor: M and N as counts, bases and strides in units of 64 n. -/
structure MxDesc where
  op : Nat
  array : Nat
  fa : Nat
  fb : Nat
  fc : Nat
  cvt : Nat
  group : Nat
  acc : Bool
  preload : Bool
  swap : Bool
  fill : Bool
  masken : Bool
  expo : Nat
  topk : Nat
  m : Nat
  n : Nat
  k : Nat
  row : Nat
  ab : Nat
  bb : Nat
  cb : Nat
  ast : Nat
  bst : Nat
  cst : Nat
  ascale : Nat
  bscale : Nat
  cscale : Nat
  mask : Nat
  top : Bool
  deriving DecidableEq, Repr

/-- The descriptor that 256 bits hold (R149). -/
def mxDesc (d : Mxd) : MxDesc :=
  { op := mxdBits d 0 4, array := mxdBits d 4 4, fa := mxdBits d 8 4, fb := mxdBits d 12 4, fc := mxdBits d 16 4,
    cvt := mxdBits d 20 4, group := 4 * 2 ^ mxdBits d 24 2, acc := d.getLsbD 26, preload := d.getLsbD 27,
    swap := d.getLsbD 28, fill := d.getLsbD 29, masken := d.getLsbD 30, expo := mxdBits d 31 2,
    topk := mxdBits d 33 5 + 1, m := mxdBits d 38 10 + 1, n := mxdBits d 48 10 + 1, k := mxdBits d 58 20,
    row := mxdBits d 78 10, ab := mxdBits d 88 17, bb := mxdBits d 105 17, cb := mxdBits d 122 17,
    ast := mxdBits d 139 16, bst := mxdBits d 155 16, cst := mxdBits d 171 16, ascale := mxdBits d 187 17,
    bscale := mxdBits d 204 17, cscale := mxdBits d 221 17, mask := mxdBits d 238 17, top := d.getLsbD 255 }

/-! ### Arrays (R138, R139, R141) -/

/-- Cell rows, cell columns and accumulator rows of an array. -/
def arrayR (a : Nat) : Nat := if a < 6 then 16 else 32
def arrayC (a : Nat) : Nat := if a < 4 then 32 else if a < 6 then 64 else if a < 8 then 32 else 64
def arrayRows (a : Nat) : Nat := if a < 6 then 512 else 1024

/-- The spar that holds accumulator row r and column j of an array (R139). -/
def sparAt (a r j : Nat) : Nat := nth 0 (arraySpars a) 0 + (if j < 32 then 0 else 1) + (if r < 512 then 0 else 2)

/-- Width rank of a format: F32, then 16-bit, then 8-bit, then E2M1 (R141). -/
def widthRank (f : Nat) : Nat := if f = 0 then 3 else if f < 4 then 2 else if f = 14 then 0 else 1

/-- Reduction elements per cell (R141). -/
def MxDesc.depth (d : MxDesc) : Nat :=
  let r := Nat.max (widthRank d.fa) (widthRank d.fb)
  let r := if d.op = 3 then Nat.max r (widthRank d.fc) else r
  if 2 ≤ r then 1 else if r = 1 then 2 else 4

/-- The chunk depth D (R141). -/
def MxDesc.chunk (d : MxDesc) : Nat := d.depth * arrayR d.array

/-! ### Spans in the tile store (R151 to R153) -/

/-- An array of stored rows: base and stride in nibbles, format code, scale base, rows, elements of a row. -/
structure Stored where
  base : Nat
  stride : Nat
  fmt : Nat
  scale : Nat
  rows : Nat
  elems : Nat
  deriving DecidableEq, Repr

/-- The format of an operand. -/
def Stored.format (o : Stored) : Fmt := (fmtOf o.fmt).getD .f32

/-- The offset of element e of stored row q (R151), and of the scale of block u (R152). -/
def Stored.at (o : Stored) (q e : Nat) : Nat := o.base + q * o.stride + e * o.format.nibs
def Stored.scaleAt (o : Stored) (q u : Nat) : Nat := o.scale + q * (o.stride / 16 / o.format.nibs) + 2 * u

/-- The operand A, B and C or X of a descriptor as stored (R150). -/
def MxDesc.opA (d : MxDesc) : Stored :=
  { base := d.ab * 64, stride := d.ast * 64, fmt := d.fa, scale := d.ascale * 64,
    rows := if d.op = 1 then d.k else d.m, elems := if d.op = 1 then d.m else if d.op = 3 then d.n else d.k }
def MxDesc.opB (d : MxDesc) : Stored :=
  { base := d.bb * 64, stride := d.bst * 64, fmt := d.fb, scale := d.bscale * 64,
    rows := if d.op = 2 || d.op = 3 then d.n else d.k, elems := if d.op = 2 || d.op = 3 then d.k else d.n }
def MxDesc.opC (d : MxDesc) : Stored :=
  { base := d.cb * 64, stride := d.cst * 64, fmt := d.fc, scale := d.cscale * 64, rows := d.m,
    elems := if d.op = 3 then d.k else if d.expo = 2 then d.topk
      else if ((fmtOf d.fc).getD .f32).scaled then cdiv d.n 32 * 32 else d.n }

/-- A span of n nibbles at an offset stays in the tile store. -/
def inStore (a n : Nat) : Bool := decide (a + n ≤ tsSize)

/-- The operand and its scale array stay in the tile store, and no row is longer than its stride where more than one row is
stored (R153). A row of a block-scaled array is padded to whole blocks (R78). An operand without elements spans nothing. -/
def Stored.ok (o : Stored) : Bool :=
  if o.rows = 0 || o.elems = 0 then true
  else
    let len := (if o.format.scaled then cdiv o.elems 32 * 32 else o.elems) * o.format.nibs
    inStore o.base ((o.rows - 1) * o.stride + len) && (decide (o.rows ≤ 1) || decide (len ≤ o.stride)) &&
    (!o.format.scaled || inStore o.scale ((o.rows - 1) * (o.stride / 16 / o.format.nibs) + 2 * cdiv o.elems 32))

/-- An operand format (R142). -/
def operandFmt (c : Nat) : Bool := (fmtOf c).isSome && c != 1

/-- A scaled format code. -/
def scaledCode (c : Nat) : Bool := ((fmtOf c).getD .f32).scaled

/-- The checks of a PRELOAD descriptor (R157). -/
def MxDesc.preloadOk (d : MxDesc) : Bool :=
  decide (d.op < 3) && decide (d.array < 9) && operandFmt d.fa && operandFmt d.fb && !d.top && !d.fill && !d.swap &&
  !(d.op = 1 && scaledCode d.fa) && decide (d.n ≤ arrayC d.array) && d.opB.ok

/-- The checks at take-up (R153, R157, R167, R194). -/
def MxDesc.ok (d : MxDesc) : Bool :=
  if d.preload then d.preloadOk
  else
    let dual := d.op == 3
    decide (d.op < 4) && decide (d.array < 9) && !(dual && d.array == 8) && operandFmt d.fa && operandFmt d.fb &&
    (fmtOf d.fc).isSome && !(dual && d.fc == 1) && decide (d.cvt < 4) &&
    !(d.fc == 1 && d.cvt.testBit 0) && decide (d.group < 32) && decide (d.group ≤ d.chunk) &&
    decide (d.expo < 3) && !d.top && !(d.op = 1 && scaledCode d.fa) && !(dual && scaledCode d.fa) &&
    decide (d.m ≤ arrayRows d.array) && decide (d.n ≤ (if dual then arrayRows d.array else arrayC d.array)) &&
    (!dual || (decide (1 ≤ d.k) && decide (d.k ≤ arrayC d.array))) &&
    decide (d.row + d.m ≤ arrayRows d.array) && (!dual || decide (d.row + d.n ≤ arrayRows d.array)) &&
    d.opA.ok && d.opB.ok && (if dual || d.expo != 0 then d.opC.ok else true) &&
    (!d.masken || inStore (d.mask * 64) (cdiv d.m 4)) && !(d.expo != 0 && d.cst == 0 && decide (1 < d.m)) &&
    !(dual && d.expo != 0) &&
    !(d.expo == 2 && (scaledCode d.fc || !inStore (d.cscale * 64) (d.m * 64))) &&
    !(d.swap && (dual || d.fill)) &&
    !(d.fill && (dual || decide (d.k < 1) || decide (arrayR d.array < d.m)))

/-- The C range of a descriptor as module-memory extents of tile t: C, and its scales or indices. -/
def MxDesc.exportExtents (d : MxDesc) (t : Nat) : List (Int × Int) :=
  let o := d.opC
  let x (a n : Nat) : Int × Int := ((storeBase t + a : Nat), (storeBase t + a + n : Nat) - 1)
  if d.expo = 0 || d.preload || d.op = 3 then []
  else x o.base ((o.rows - 1) * o.stride + o.elems * o.format.nibs) ::
    (if d.expo = 2 then [x (d.cscale * 64) (d.m * 64)]
     else if o.format.scaled then
       [x o.scale ((o.rows - 1) * (o.stride / 16 / o.format.nibs) + 2 * cdiv o.elems 32)] else [])

/-! ### Operand values -/

/-- An operand element as the store holds it: its value and whether its data or its scale are poisoned (R77, R161). -/
abbrev Elem := Val × Bool

/-- Element e of stored row q of tile t. -/
def State.mxElem (s : State) (t : Nat) (u : Upsets) (o : Stored) (q e : Nat) : Elem :=
  let f := o.format
  let a := storeBase t + o.at q e
  let sa := storeBase t + o.scaleAt q (e / 32)
  let c := ofNibs (s.seen u a f.nibs)
  let sc := if f.scaled then ofNibs (s.seen u sa 2) else 0
  (scaledVal f c sc, s.readsPoison u a f.nibs || (f.scaled && s.readsPoison u sa 2))

/-- An element of a stationary tile: code and scale as the shadow registers take them (R146, R157). -/
def State.mxRaw (s : State) (t : Nat) (u : Upsets) (o : Stored) (q e : Nat) : Nat × Bool :=
  let f := o.format
  let a := storeBase t + o.at q e
  let sa := storeBase t + o.scaleAt q (e / 32)
  (ofNibs (s.seen u a f.nibs) + (if f.scaled then ofNibs (s.seen u sa 2) else 0) * 2 ^ 32,
   s.readsPoison u a f.nibs || (f.scaled && s.readsPoison u sa 2))

/-- The codewords of one element and its scale. -/
def Stored.cws (o : Stored) (t q e : Nat) : List Nat :=
  cwsOf (storeBase t + o.at q e) o.format.nibs ++
    (if o.format.scaled then cwsOf (storeBase t + o.scaleAt q (e / 32)) 2 else [])

/-- B[k, j] of a descriptor: stored row and position (R150). -/
def MxDesc.placeB (d : MxDesc) (k j : Nat) : Nat × Nat := if d.op = 2 then (j, k) else (k, j)
/-- The reduction length of the stationary operand B and its columns: those of W for DUAL_BWD (R150, R164). -/
def MxDesc.redLen (d : MxDesc) : Nat := if d.op = 3 then d.n else d.k
def MxDesc.cols (d : MxDesc) : Nat := if d.op = 3 then d.k else d.n
/-- A[i, k]. -/
def MxDesc.placeA (d : MxDesc) (i k : Nat) : Nat × Nat := if d.op = 1 then (k, i) else (i, k)

/-! ### Exact group sums (R179 to R182) -/

/-- The sum of the products of one group (R181). -/
def groupSum (ps : List Val) : Val :=
  let nan := ps.any (fun v => v == .nan)
  let pos := ps.any (fun v => v == .inf false)
  let neg := ps.any (fun v => v == .inf true)
  if nan || (pos && neg) then .nan
  else if pos then .inf false
  else if neg then .inf true
  else .fin false (ps.foldl (fun m v => dyAdd m v.dy) dy0)

/-- The group sums of a reduction of K indices with chunks of D: ⌈K / D⌉ × D / GROUP of them, in ascending order (R145,
R182). `prod` gives a product, none where it is absent (R181). -/
def groupSums (group chunk k : Nat) (prod : Nat → Option Val) : List Val :=
  (List.range (cdiv k chunk * chunk / group)).map (fun g =>
    groupSum ((List.range group).filterMap (fun i => if g * group + i < k then prod (g * group + i) else none)))

/-! ### The accumulator (R176, R183) -/

/-- An element that was never written: +0. -/
def accZero : Acc := { hi := 0, lo := 0, r := 0, poison := false }

/-- The accumulated sum of an element (R176). -/
def Acc.sum (a : Acc) : Val :=
  match f32Val a.hi, f32Val a.lo, f32Val a.r with
  | .fin _ x, .fin _ y, .fin _ z => valOf false (dyAdd (dyAdd x y) z)
  | x, y, z => vAdd (vAdd x y) z

/-- The canonical NaN and a value alone in hi. -/
def Acc.special (a : Acc) (v : Val) : Acc := { a with hi := toF32 v, lo := 0, r := 0 }

/-- One update of an element by a group sum (R183). The poison mark stays. -/
def Acc.update (a : Acc) (g : Val) : Acc :=
  let a0 := if (f32Val a.lo).special || (f32Val a.r).special then a.special a.sum else a
  match f32Val a0.hi, g with
  | .nan, _ => a0.special .nan
  | _, .nan => a0.special .nan
  | .inf x, .inf y => if x = y then a0.special (.inf x) else a0.special .nan
  | .inf x, _ => a0.special (.inf x)
  | _, .inf y => a0.special (.inf y)
  | .fin _ h, .fin _ x =>
    let v := dyAdd (dyAdd (dyAdd h (f32Dy a0.lo)) (f32Dy a0.r)) x
    if v.m = 0 then { a0 with hi := 0, lo := 0, r := 0 }
    else
      let z (y : Dy) : Word := let w := rne32 (decide (y.m < 0)) y; if w = 0x80000000#32 then 0 else w
      let hi := z v
      if (f32Val hi).special then { a0 with hi := hi, lo := 0, r := 0 }
      else
        let d1 := dySub v (f32Dy hi)
        let lo := z d1
        { a0 with hi := hi, lo := lo, r := z (dySub d1 (f32Dy lo)) }

/-- The key of an element in the state: tile, spar, row and column of the spar. -/
def accKey (t spar row col : Nat) : Nat := ((t * 4 + spar) * 512 + row) * 32 + col

/-- Element (r, j) of an array (R139). -/
def State.accAt (s : State) (t a r j : Nat) : Acc := tget accZero s.acc (accKey t (sparAt a r j) (r % 512) (j % 32))

/-- An element written. -/
def State.putAcc (s : State) (t a r j : Nat) (x : Acc) : State :=
  { s with acc := tset accZero s.acc (accKey t (sparAt a r j) (r % 512) (j % 32)) x }

/-! ### Errors in accumulator memory (R177, R190) -/

/-- The elements that accumulator codeword c of a tile covers: codewords below 32,768 are of the pair memory, 16 a row; the
others of the residual memory, 8 a row (R177). Spar, row and columns. -/
def accCw (c : Nat) : Nat × Nat × List Nat :=
  if c < 32768 then (c / 16 / 512, c / 16 % 512, [c % 16 * 2, c % 16 * 2 + 1])
  else
    let d := c - 32768
    (d / 8 / 512, d / 8 % 512, (List.range 4).map (· + d % 8 * 4))

/-- The stored data bits of an accumulator codeword changed by a mask, and its elements marked where `bad` is true (R177, R190). -/
def State.accHit (s : State) (t c : Nat) (m : BitVec 128) (bad : Bool) : State :=
  let (spar, row, cols) := accCw c
  (List.zip (List.range cols.length) cols).foldl (fun v x =>
    let k := accKey t spar row x.2
    let a := tget accZero v.acc k
    let w (i : Nat) : Word := (m >>> (32 * i)).truncate 32
    let b := if c < 32768 then { a with lo := a.lo ^^^ w (2 * x.1), hi := a.hi ^^^ w (2 * x.1 + 1), poison := a.poison || bad }
      else { a with r := a.r ^^^ w x.1, poison := a.poison || bad }
    { v with acc := tset accZero v.acc k b }) s

/-- An accumulator codeword of tile t is read through the decoder (R190): a corrected error is counted (DEDUCED, log 45), an
uncorrectable one, or a codeword that decodes as poisoned, marks every element that it covers, with its data as they stand. -/
def State.senseAccCw (s : State) (t : Nat) (x : Nat × Upset) : State :=
  match eccDecode false x.2 with
  | .clean => s
  | .corrected _ _ => s.countCorrected (oTsErr (t / 192) (s.tileSite t)) 0 16 true (s.srcTile t)
  | .poisoned => s.accHit t x.1 (eccMask x.2 .poisoned) true
  | .uncorrectable =>
    (s.accHit t x.1 (eccMask x.2 .uncorrectable) true).raise .uncorrectable .poisoned (s.srcTile t)
      (16 :: match s.partOfField (t / 192) with
        | some p => [p]
        | none => [])

/-- The accumulator codewords of tile t with an error pattern that are read, each through the decoder. `reads spar row cols` says
whether a codeword is read that covers those columns of a row. -/
def State.senseAcc (s : State) (t : Nat) (ua : Upsets) (reads : Nat → Nat → List Nat → Bool) : State :=
  ua.foldl (fun v x =>
    let (spar, row, cols) := accCw x.1
    if reads spar row cols then v.senseAccCw t x else v) s

/-- The elements as those reads show them: an error that the decoder does not see, or takes for another one, stays in the data
(R243). -/
def State.accSeen (s : State) (t : Nat) (ua : Upsets) (reads : Nat → Nat → List Nat → Bool) : State :=
  ua.foldl (fun v x =>
    let (spar, row, cols) := accCw x.1
    let a := eccDecode false x.2
    if reads spar row cols && !(a == .poisoned || a == .uncorrectable) then v.accHit t x.1 (eccMask x.2 a) false else v) s

/-! ### Feeding (R143, R156, R163, R185, R190) -/

/-- One element's sequence: its starting value by ACC, its group sums in order, and its poison mark (DEDUCED, log 43). -/
def feedAcc (start : Acc) (acc bad : Bool) (gs : List Val) : Acc :=
  let a := if acc then start else accZero
  let b := gs.foldl Acc.update a
  { b with poison := b.poison || bad }

/-- The product of two elements. -/
def elemMul (x y : Elem) : Val := vMul x.1 y.1

/-- The stationary operand: its first chunk as the tile in the active registers holds it, the rest from the store (R147, R148, R157). -/
def State.mxB (s : State) (t : Nat) (u : Upsets) (d : MxDesc) (tile : List (Nat × Bool)) (k j : Nat) : Elem :=
  if !tile.isEmpty && decide (k < d.chunk) then
    let (v, bad) := nth (0, false) tile (k * d.cols + j)
    (scaledVal d.opB.format (v % 2 ^ 32) (v / 2 ^ 32), bad)
  else let (q, e) := d.placeB k j; s.mxElem t u d.opB q e

/-- The fed rows of a mask. -/
def fedRows (mask : List Bool) : List Nat := (List.range mask.length).filter (fun i => nth false mask i)

/-- What a GEMM, GEMM_AT or GEMM_BT does to its accumulator rows, operands read from the state s0; and whether poisoned
operand data were met (R156, R161, R181). -/
def State.feedGemm (s s0 : State) (t : Nat) (u : Upsets) (d : MxDesc) (mask : List Bool)
    (tile : List (Nat × Bool)) : State × Bool :=
  let rows := fedRows mask
  let ea (i k : Nat) : Elem := let (q, e) := d.placeA i k; s0.mxElem t u d.opA q e
  let eb (k j : Nat) : Elem := s0.mxB t u d tile k j
  rows.foldl (fun acc i => (List.range d.n).foldl (fun acc j =>
    let bad := (List.range d.k).any (fun k => (ea i k).2 || (eb k j).2)
    let gs := groupSums d.group d.chunk d.k (fun k => some (elemMul (ea i k) (eb k j)))
    (acc.1.putAcc t d.array (d.row + i) j (feedAcc (acc.1.accAt t d.array (d.row + i) j) d.acc bad gs), acc.2 || bad))
    acc) (s, false)

/-- What a DUAL_BWD does to its two arrays (R164, R165). -/
def State.feedDual (s s0 : State) (t : Nat) (u : Upsets) (d : MxDesc) (mask : List Bool) (tile : List (Nat × Bool)) :
    State × Bool :=
  let rows := fedRows mask
  let dy (i n : Nat) : Elem := s0.mxElem t u d.opA i n
  let w (n k : Nat) : Elem := s0.mxB t u d tile n k
  let x (i k : Nat) : Elem := s0.mxElem t u d.opC i k
  let p := partnerArray d.array
  let dx := rows.foldl (fun acc i => (List.range d.k).foldl (fun acc k =>
    let bad := (List.range d.n).any (fun n => (dy i n).2 || (w n k).2)
    let gs := groupSums d.group d.chunk d.n (fun n => some (elemMul (dy i n) (w n k)))
    (acc.1.putAcc t d.array (d.row + i) k (feedAcc (acc.1.accAt t d.array (d.row + i) k) d.acc bad gs), acc.2 || bad))
    acc) (s, false)
  (List.range d.n).foldl (fun acc n => (List.range d.k).foldl (fun acc k =>
    let bad := rows.any (fun i => (dy i n).2 || (x i k).2)
    let gs := groupSums d.group d.chunk d.m (fun i => if nth false mask i then some (elemMul (dy i n) (x i k)) else none)
    (acc.1.putAcc t p (d.row + n) k (feedAcc (acc.1.accAt t p (d.row + n) k) d.acc bad gs), acc.2 || bad))
    acc) dx

/-- The codewords of the moving operand that a descriptor reads, and of X for DUAL_BWD: a masked row is never read (R163). -/
def MxDesc.readsA (d : MxDesc) (t : Nat) (mask : List Bool) : List Nat :=
  let rows := fedRows mask
  if d.op = 3 then
    rows.flatMap (fun i => (List.range d.n).flatMap (d.opA.cws t i)) ++ rows.flatMap (fun i => (List.range d.k).flatMap (d.opC.cws t i))
  else rows.flatMap (fun i => (List.range d.k).flatMap (fun k => let (q, e) := d.placeA i k; d.opA.cws t q e))

/-- The codewords of the stationary operand for the reduction indices from `first` up to `last`. -/
def MxDesc.readsB (d : MxDesc) (t first last : Nat) : List Nat :=
  ((List.range (Nat.min last d.redLen)).filter (fun k => decide (first ≤ k))).flatMap (fun k =>
    (List.range d.cols).flatMap (fun j => let (q, e) := d.placeB k j; d.opB.cws t q e))

/-- A descriptor's accumulator rows, given as rows of an array with a number of columns, meet a codeword: spar, row, columns. -/
def rowsMeet (array ncols : Nat) (rows : List Nat) (spar row : Nat) (cols : List Nat) : Bool :=
  rows.any (fun r => decide (r % 512 = row) &&
    cols.any (fun c => [c, c + 32].any (fun j => decide (j < ncols) && decide (sparAt array r j = spar))))

/-- The accumulator codewords that a request reads when it feeds: with ACC = 1, those of its fed rows, and of all rows of the partner
for DUAL_BWD (R156, R190). -/
def MxReq.accReads (r : MxReq) (spar row : Nat) (cols : List Nat) : Bool :=
  let d := mxDesc r.d
  d.acc && decide (0 < d.k) &&
    (rowsMeet d.array d.cols ((fedRows r.mask).map (· + d.row)) spar row cols ||
      (d.op == 3 && rowsMeet (partnerArray d.array) d.k ((List.range d.n).map (· + d.row)) spar row cols))

/-- A request feeds (R156, R161, R163): its operands are read from s0, the state at the start of the pass, and its accumulator rows
through the decoder. The state and whether poisoned operand data were met. -/
def State.feedReq (s s0 : State) (t : Nat) (u ua : Upsets) (r : MxReq) (tile : List (Nat × Bool)) : State × Bool :=
  let d := mxDesc r.d
  let s1 := (s.senseAcc t ua r.accReads).accSeen t ua r.accReads
  if d.op = 3 then s1.feedDual s0 t u d r.mask tile else s1.feedGemm s0 t u d r.mask tile

/-! ### Export (R158, R192 to R195) -/

/-- Row i of the values written out: the codes of its elements. -/
def exportCodes (r : MxReq) (f : Fmt) (cvt : Nat) (place : Nat → Nat) (vs : List Val) : List Nat × List Nat :=
  let rnd (e : Nat) : Rnd := if cvt.testBit 0 then .sr (randBits r.seed (randIndex r.epoch (place e))) else .rne
  if f.scaled then
    let blocks := (List.range (cdiv vs.length 32)).map (fun b =>
      convBlock f ((List.range 32).map (fun i => rnd (32 * b + i)))
        ((List.range 32).map (fun i => nth (.fin false dy0) vs (32 * b + i))))
    (blocks.flatMap (·.1), blocks.map (·.2))
  else ((List.zip (List.range vs.length) vs).map (fun x => encElem f (cvt.testBit 1) (rnd x.1) x.2), [])

/-- The codewords of a span poisoned. -/
def State.poisonSpan (s : State) (a n : Nat) : State := (cwsOf a n).foldl (fun v c => v.putPoison c true) s

/-- Export of the values of fed row i of a request, elements as sv shows them (R158, R161). The state, and whether a marked element was
exported. UPDATE of a skipped step writes nothing (R223). -/
def State.exportRow (s sv : State) (t : Nat) (u : Upsets) (r : MxReq) (i : Nat) : State × Bool :=
  let d := mxDesc r.d
  let o := d.opC
  let f := o.format
  let es := (List.range d.n).map (fun j => sv.accAt t d.array (d.row + i) j)
  let at' (e : Nat) : Nat := storeBase t + o.at i e
  let (codes, scales) := exportCodes r f d.cvt at' (es.map Acc.sum)
  let s1 := s.merge u (at' 0) (codes.flatMap (fun c => nibsOf c f.nibs))
  let s2 := (List.zip (List.range scales.length) scales).foldl (fun v x =>
    v.merge u (storeBase t + o.scaleAt i x.1) (nibsOf x.2 2)) s1
  let marked := (List.range d.n).filter (fun j => (nth accZero es j).poison)
  if s.writesDropped (at' 0) then (s, !marked.isEmpty) else
  let s3 := marked.foldl (fun v j =>
    let w := v.poisonSpan (at' j) f.nibs
    if f.scaled then w.poisonSpan (storeBase t + o.scaleAt i (j / 32)) 2 else w) s2
  (s3, !marked.isEmpty)

/-- x ranks before y: NaN first, then by exact sum in descending order (R192). Equal values keep their column order. -/
def ranksBefore (x y : Val) : Bool :=
  match x, y with
  | .nan, .nan => false
  | .nan, _ => true
  | _, .nan => false
  | .inf a, .inf b => !a && b
  | .inf a, _ => !a
  | _, .inf b => b
  | .fin _ p, .fin _ q => dyLt q p

/-- A column put into a ranked list, behind its equals. -/
def rankInsert (x : Nat × Val) : List (Nat × Val) → List (Nat × Val)
  | [] => [x]
  | y :: r => if ranksBefore x.2 y.2 then x :: y :: r else y :: rankInsert x r

/-- The columns of a row in rank order (R192). -/
def rankRow (vs : List Val) : List (Nat × Val) :=
  (List.zip (List.range vs.length) vs).foldl (fun l x => rankInsert x l) []

/-- Top-k output of fed row i (R193, R195). UPDATE of a skipped step writes nothing (R223). -/
def State.exportTop (s sv : State) (t : Nat) (u : Upsets) (r : MxReq) (i : Nat) : State × Bool :=
  let d := mxDesc r.d
  let o := d.opC
  let f := o.format
  let es := (List.range d.n).map (fun j => sv.accAt t d.array (d.row + i) j)
  let at' (e : Nat) : Nat := storeBase t + o.at i e
  let ranked := rankRow (es.map Acc.sum)
  let top := (List.range d.topk).map (fun e => nth (255, .fin false dy0) ranked e)
  let (codes, _) := exportCodes r f d.cvt at' (top.map (·.2))
  let idx := storeBase t + d.cscale * 64 + i * 64
  if s.writesDropped (at' 0) then (s, es.any Acc.poison) else
  let s1 := (s.merge u (at' 0) (codes.flatMap (fun c => nibsOf c f.nibs))).merge u idx (top.flatMap (fun x => nibsOf x.1 2))
  let bad := es.any Acc.poison
  (if bad then (s1.poisonSpan (at' 0) (d.topk * f.nibs)).poisonSpan idx (2 * d.topk) else s1, bad)

/-- The exports of a request, row by row (R158, R169). -/
def State.exportReq (s : State) (t : Nat) (u ua : Upsets) (r : MxReq) : State × Bool :=
  let d := mxDesc r.d
  if d.expo = 0 || d.preload || d.op = 3 then (s, false)
  else
    let rows := (fedRows r.mask).map (· + d.row)
    let s1 := s.senseAcc t ua (rowsMeet d.array d.n rows)
    let sv := s1.accSeen t ua (rowsMeet d.array d.n rows)
    (fedRows r.mask).foldl (fun acc i =>
      let (v, b) := if d.expo = 2 then acc.1.exportTop sv t u r i else acc.1.exportRow sv t u r i
      (v, acc.2 || b)) (s1, false)

/-! ### A torn descriptor (R160) -/

/-- The accumulator rows and C of a descriptor that was torn down hold values that the spec leaves undefined: free values
(DESIGN CHOICE, log 10). A poison mark is lost only where the descriptor with ACC = 0 feeds its row, and a masked row gains none (R190). -/
def State.tornReq (s : State) (t : Nat) (r : MxReq) : State :=
  let d := mxDesc r.d
  let wipe (v : State) (a rows n : Nat) (fed : Nat → Bool) : State :=
    (List.range rows).foldl (fun v i => (List.range n).foldl (fun v j =>
      let k := 4 * ((a * 1024 + i) * 64 + j)
      let old := (v.accAt t a (d.row + i) j).poison
      v.putAcc t a (d.row + i) j { hi := s.free k, lo := s.free (k + 1), r := s.free (k + 2),
                                   poison := (old && (d.acc || !fed i)) || (fed i && (s.free (k + 3)).getLsbD 0) }) v) v
  let fed (i : Nat) : Bool := nth false r.mask i
  if d.preload then s
  else
    let s1 := if d.op = 3 then wipe (wipe s d.array d.m d.k fed) (partnerArray d.array) d.n d.k (fun _ => true)
      else wipe s d.array d.m d.n fed
    let ex := (d.exportExtents t).flatMap (fun e => cwsOf e.1.toNat (e.2 + 1 - e.1).toNat)
    (ex.foldl sadd []).foldl (fun v c =>
      (List.range 32).foldl (fun v i =>
        if (d.exportExtents t).any (fun e => decide (e.1 ≤ (32 * c + i : Nat)) && decide (((32 * c + i : Nat) : Int) ≤ e.2))
        then v.store (32 * c + i) [(s.free (2 ^ 24 + 32 * c + i)).truncate 4] else v) v) s1

end Sys2Proof.Machine
end

