-- ==== Sys2Proof/Machine/Matrix.lean ====
section
/-! DEFINITION. Matrix issue (R154 to R171): take-up, the spar queues, fill gates, start, stationary loads, completion, and the tie-sums of R216. -/

namespace Sys2Proof.Machine

/-! ### Tokens and queues -/

/-- A request's token is done with a status, and the tile counts a completed descriptor (R130, R175). A tie-sum has no
token, and a token of a halted group is freed (R135). -/
def State.tokenDone (s : State) (t : Nat) (slot tok : Nat) (tie : Bool) (st : Status) : State :=
  let s1 := s.bumpWrap (oMxDone (t / 192) (s.tileSite t)) 0 32 1
  let g := s1.group t slot
  if tie then s1
  else s1.putGroup t slot { g with tokens := if g.halted then tdel g.tokens tok else tput g.tokens tok (.done st) }

/-- Places taken in the queue of spar i: a job keeps its place until it ends (R155, R173, DEDUCED, log 123). -/
def Mx.queued (x : Mx) (i : Nat) : Nat := (x.jobs.filter (fun j => j.spars.contains i)).length

/-- Every spar of a list has a free queue place. -/
def Mx.room (x : Mx) (spars : List Nat) : Bool := spars.all (fun i => decide (x.queued i < 4))

/-- A job put behind the others. -/
def Mx.push (x : Mx) (array : Nat) (reqs : List MxReq) : Mx :=
  { x with jobs := x.jobs ++ [{ id := x.nextId, array := array, reqs := reqs, started := false, loaded := false, tile := [],
                                met := reqs.map (fun _ => Status.ok), torn := false }], nextId := x.nextId + 1 }

/-! ### The fill gates (R167 to R171) -/

/-- The gate of an array: that of its lowest spar (R167). -/
def gateOf (a : Nat) : Nat := nth 0 (arraySpars a) 0

/-- Gate g holds requests for an array that has a spar in the list. -/
def Mx.gateTouches (x : Mx) (g : Nat) (spars : List Nat) : Bool :=
  !(x.gate g).isEmpty && (arraySpars (tget 0 x.gateArr g)).any (fun i => spars.contains i)

/-- Gate g issues the requests it holds as one pass (R168). -/
def Mx.issueGate (x : Mx) (g : Nat) : Mx :=
  if (x.gate g).isEmpty then x
  else
    let y := x.push (tget 0 x.gateArr g) (x.gate g)
    { y.putGate g [] with gateArr := tdel y.gateArr g }

/-- The gates that hold requests for an array with a spar in the list issue, in ascending order of their number, of which R168 says
nothing (DESIGN CHOICE, log 135); none where a queue has no place, so that the list waits (R155, R168). -/
def Mx.issueTouching (x : Mx) (spars : List Nat) : Option Mx :=
  (List.range 4).foldl (fun o g =>
    match o with
    | none => none
    | some y =>
      if y.gateTouches g spars then
        if y.room (arraySpars (tget 0 y.gateArr g)) then some (y.issueGate g) else none
      else some y) (some x)

/-- A request may join the requests that its gate holds (R168). -/
def joins (held : List MxReq) (r : MxReq) : Bool :=
  held.all (fun h =>
    let a := mxDesc h.d
    let b := mxDesc r.d
    a.op == b.op && a.array == b.array && a.fa == b.fa && a.fb == b.fb && a.group == b.group && a.k == b.k && a.n == b.n &&
    a.bb == b.bb && a.bst == b.bst && a.bscale == b.bscale && (decide (a.row + a.m ≤ b.row) || decide (b.row + b.m ≤ a.row)))
  && decide ((held.map MxReq.rows).foldl (· + ·) 0 + r.rows ≤ arrayR (mxDesc r.d).array)

/-- A FILL request joins its gate; the gate issues before or after as R168 says. None where a queue has no place. -/
def Mx.joinGate (x : Mx) (r : MxReq) : Option Mx :=
  let a := (mxDesc r.d).array
  let g := gateOf a
  let first := if (x.gate g).isEmpty || joins (x.gate g) r then some x
    else if x.room (arraySpars (tget 0 x.gateArr g)) then some (x.issueGate g) else none
  match first with
  | none => none
  | some y =>
    let z := { y.putGate g (y.gate g ++ [r]) with gateArr := tput y.gateArr g a }
    if arrayR a ≤ ((z.gate g).map MxReq.rows).foldl (· + ·) 0 then
      if z.room (arraySpars a) then some (z.issueGate g) else none
    else some z

/-! ### Take-up (R153, R154, R162, R163) -/

/-- The row mask as read at take-up, and whether its codewords are poisoned (R161, R163). -/
def State.mxMask (s : State) (t : Nat) (u : Upsets) (d : MxDesc) : List Bool × Bool :=
  if d.masken then
    let a := storeBase t + d.mask * 64
    ((List.range d.m).map (fun i => (s.seenNib u (a + i / 4)).getLsbD (i % 4)), s.readsPoison u a (cdiv d.m 4))
  else (List.replicate d.m true, false)

/-- A descriptor's C range meets a fenced region (R160, R162). -/
def State.mxFenced (s : State) (t : Nat) (d : MxDesc) : Option Nat := ((d.exportExtents t).filterMap s.fencedExtent).head?

/-- The first descriptor of a job. -/
def MxJob.desc (j : MxJob) : MxDesc := mxDesc (nth 0#256 (j.reqs.map (·.d)) 0)

/-- A SWAP descriptor matches the tile that a PRELOAD placed (R157). -/
def swapMatches (p d : MxDesc) : Bool :=
  p.op == d.op && p.array == d.array && p.fa == d.fa && p.fb == d.fb && p.k == d.k && p.n == d.n && p.bb == d.bb &&
  p.bst == d.bst && p.bscale == d.bscale

/-- A SWAP descriptor would be started on its array next after the PRELOAD it matches: no gate that must issue first, and the last
job taken up for its spars, or with none the tile in the shadow registers, is that PRELOAD (R153, R157). -/
def Mx.swapReady (x : Mx) (d : MxDesc) : Bool :=
  (List.range 4).all (fun g => !x.gateTouches g (arraySpars d.array)) &&
  (match (x.jobs.filter (fun j => j.spars.any (fun i => (arraySpars d.array).contains i))).getLast? with
   | some j => j.desc.preload && swapMatches j.desc d
   | none => x.preload.any (fun e => swapMatches (mxDesc e.2.d) d))

/-- The list takes up a descriptor of a group slot: the state, or none where it waits for a queue place. -/
def State.takeMxd (s : State) (t slot tok : Nat) (m : Mxd) (u : Upsets) : Option State :=
  let d := mxDesc m
  if !d.ok || (d.swap && !(s.mxu t).swapReady d) then some ((s.tokenDone t slot tok false .badDescriptor).wakeTile t)
  else
    let x := s.mxu t
    let spars := arraySpars d.array ++ (if d.op = 3 then arraySpars (partnerArray d.array) else [])
    match s.mxFenced t d with
    | some p =>
      (if d.fill then some x else x.issueTouching spars).map (fun y =>
        (((s.putMx t y).fenceHit p (s.srcTile t)).tokenDone t slot tok false .weightFenced).wakeTile t)
    | none =>
      let (mask, bad) := if d.preload then ([], false) else s.mxMask t u d
      let s1 := if d.masken && !d.preload then s.sense u (storeBase t + d.mask * 64) (cdiv d.m 4) else s
      let r : MxReq := { slot := slot, token := tok, d := m, mask := mask, seed := s.seed t, epoch := s.epoch t, tie := false }
      if bad then
        (if d.fill then some x else x.issueTouching spars).map (fun y =>
          ((s1.putMx t y).tokenDone t slot tok false .poisoned).wakeTile t)
      else if d.fill then (x.joinGate r).map (fun y => s1.putMx t y)
      else
        match x.issueTouching spars with
        | none => none
        | some y => if y.room spars then some (s1.putMx t (y.push d.array [r])) else none

/-- The slot of an item of the matrix-issue list. -/
def MxItem.slot : MxItem → Nat
  | .mxd n _ _ => n
  | .flush n _ => n

/-- One service of the matrix-issue list of a tile (R154): the current entry's group presents its earliest item, or the
entry waits or passes. In a held field nothing is taken up (R439). -/
def State.serveMatrix (s : State) (t : Nat) (u : Upsets) : State :=
  let a := s.aol (.matrix t)
  match a.current with
  | none => s
  | some e =>
    if s.fieldHeld (t / 192) then s else
    let x := s.mxu t
    match indexOf (fun i => i.slot == e.user) x.issue with
    | none => if e.wait then s else s.putAol (.matrix t) a.step
    | some k =>
      let rest := dropAt x.issue k
      let more := rest.any (fun i => i.slot == e.user)
      let s0 := s.putMx t { x with issue := rest }
      let out : Option State := match x.issue[k]? with
        | some (.mxd n tok m) => s0.takeMxd t n tok m u
        | some (.flush _ mask) => ((s0.mxu t).issueTouching (setBits mask 4)).map (fun y => s0.putMx t y)
        | none => none
      match out with
      | some v => v.putAol (.matrix t) (a.count e 1 more)
      | none => s

/-- MXD_TAKE_UP (R154). -/
def execMxdTakeUp (t : Nat) (u : Upsets) (s : State) : Out := ranCore (.mxdTakeUp t u) s (s.serveMatrix t u)

/-! ### Start and stationary loads (R146 to R148, R155, R157) -/

/-- Job id of tile t. -/
def Mx.job (x : Mx) (id : Nat) : Option MxJob := x.jobs.find? (fun j => j.id == id)

/-- A job replaced. -/
def Mx.putJob (x : Mx) (j : MxJob) : Mx := { x with jobs := x.jobs.map (fun k => if k.id = j.id then j else k) }

/-- The jobs ahead of a job that share a spar with it (R155). -/
def Mx.ahead (x : Mx) (j : MxJob) : List MxJob :=
  (x.jobs.takeWhile (fun k => k.id != j.id)).filter (fun k => k.spars.any (fun i => j.spars.contains i))

/-- Whether a job feeds nothing. -/
def MxJob.feedsNone (j : MxJob) : Bool := j.desc.preload || j.desc.k == 0

/-- The job needs no load of its own: it swaps in a preloaded tile, or feeds nothing. -/
def MxJob.noLoad (j : MxJob) : Bool := !j.desc.preload && (j.desc.swap || j.desc.k == 0)

/-- The preload of an array with the shadow registers of its spars; a job that starts on any of them uses it or loses it. -/
def Mx.takePreload (x : Mx) (j : MxJob) : Mx × Option Preload :=
  let d := j.desc
  let mine := (x.preload.find? (fun e => swapMatches (mxDesc e.2.d) d)).map (·.2)
  ({ x with preload := x.preload.filter (fun e => !(arraySpars (mxDesc e.2.d).array).any (fun i => j.spars.contains i)) },
   if d.swap then mine else none)

/-- What a request met is noted. -/
def noteMet (old : Status) (bad : Bool) : Status := if bad && old == Status.ok then Status.poisoned else old

/-- The codewords that a job reads as it feeds, each once for the whole pass: B behind the tile that has been loaded, and the moving
operands of its requests (R169; DEDUCED, log 18). -/
def MxJob.reads (j : MxJob) (t : Nat) : List Nat :=
  let d := j.desc
  (d.readsB t d.chunk d.redLen ++ j.reqs.flatMap (fun r => (mxDesc r.d).readsA t r.mask)).foldl sadd []

/-- What a user of the tile's banks does in one command uses up its entry (R36; DESIGN CHOICE, log 126). -/
def State.useBanks (s : State) (t : Nat) : State := s.usePort (.banks t) 16

/-- A job starts: the array swaps in its first tile, and its requests feed in the order they joined, all reads at once (R147, R155,
R169; DEDUCED, log 18). -/
def State.startJob (s : State) (t : Nat) (u ua : Upsets) (j : MxJob) : State :=
  let (x, pre) := (s.mxu t).takePreload j
  let s0 := s.putMx t x
  if j.torn || j.desc.preload then s0.putMx t (x.putJob { j with started := true })
  else if j.desc.swap && pre.isNone then
    s0.putMx t (x.putJob { j with started := true, met := j.reqs.map (fun _ => Status.badDescriptor) })
  else
    let tile := match pre with
      | some p => p.vals
      | none => j.tile
    let s1 := (j.reads t).foldl (fun v c => v.senseCw u c) (s0.useBanks t)
    let (s2, met) := j.reqs.foldl (fun acc r =>
      let (v, bad) := acc.1.feedReq s t u ua r tile
      (v, acc.2 ++ [noteMet .ok bad])) (s1, [])
    s2.putMx t ((s2.mxu t).putJob { j with started := true, tile := tile, met := met })

/-- A job may start (R147, R155): it is first on every spar that it uses, and its first tile is loaded where it needs one. Operand
delivery has its turn at the banks (R37). -/
def State.mayStart (s : State) (t : Nat) (j : MxJob) : Bool :=
  !s.fieldHeld (t / 192) && !j.started && ((s.mxu t).ahead j).isEmpty &&
  (j.torn || j.desc.preload || ((j.loaded || j.noLoad) && (j.desc.k == 0 || s.hasTurn (.banks t) userOperands)))

/-- MXD_START (R155): a job that may start starts, but for a held field (R439). -/
def execMxdStart (t id : Nat) (u ua : Upsets) (s : State) : Out :=
  ranCore (.mxdStart t id u ua) s
    (match (s.mxu t).job id with
     | some j => if s.mayStart t j then s.startJob t u ua j else s
     | none => s)

/-- The stationary tile of a job's first chunk, as the shadow registers take it (R146, R157). -/
def State.firstTile (s : State) (t : Nat) (u : Upsets) (d : MxDesc) : List (Nat × Bool) :=
  (List.range d.chunk).flatMap (fun k => (List.range d.cols).map (fun j =>
    if k < d.redLen then let (q, e) := d.placeB k j; s.mxRaw t u d.opB q e else (0, false)))

/-- The load of a job may take place: nothing ahead on its spars, or only one started job of the same array that feeds
chunks (R148); and every job taken up earlier that needs a load has it (R146). -/
def Mx.mayLoad (x : Mx) (j : MxJob) : Bool :=
  !j.loaded && !j.noLoad &&
  (match x.ahead j with
   | [] => !j.desc.preload || j.started
   | [k] => k.started && !k.feedsNone && k.array == j.array && !j.desc.preload
   | _ => false) &&
  (x.jobs.takeWhile (fun k => k.id != j.id)).all (fun k => k.loaded || k.noLoad)

/-- A job's first tile is loaded into the shadow registers of its array: a tile that stood there without a job is lost, and later
writes to B do not reach the one loaded (R146, R148, R157). That of a PRELOAD stays there for the job that swaps it in. -/
def State.loadTile (s : State) (t : Nat) (u : Upsets) (j : MxJob) : State :=
  let d := j.desc
  let vals := s.firstTile t u d
  let s1 := ((d.readsB t 0 d.chunk).foldl sadd []).foldl (fun v c => v.senseCw u c) (s.useBanks t)
  let x := (s1.mxu t).putJob { j with loaded := true, tile := vals,
                                      met := if d.preload then [noteMet .ok (vals.any (·.2))] else j.met }
  let kept := x.preload.filter (fun e => !(arraySpars (mxDesc e.2.d).array).any (fun i => j.spars.contains i))
  s1.putMx t { x with preload := if d.preload then
                          tput kept (gateOf d.array) { d := nth 0#256 (j.reqs.map (·.d)) 0, vals := vals } else kept }

/-- STATIONARY_LOAD_DONE (R146, R148, R157, R439): a job that was torn down loads nothing. -/
def execStationaryLoadDone (t id : Nat) (u : Upsets) (s : State) : Out :=
  ranCore (.stationaryLoadDone t id u) s
    (match (s.mxu t).job id with
     | some j =>
       if s.fieldHeld (t / 192) || j.torn || !(s.mxu t).mayLoad j || !s.hasTurn (.banks t) userOperands then s
       else s.loadTile t u j
     | none => s)

/-! ### Completion (R158, R160, R169) -/

/-- One request of a job completes: its C is written and its token is done (R160, R169). -/
def State.finishReq (s : State) (t : Nat) (u ua : Upsets) (torn : Bool) (r : MxReq) (met : Status) : State :=
  if torn then (s.tornReq t r).tokenDone t r.slot r.token r.tie .jobTorn
  else if met = .badDescriptor then s.tokenDone t r.slot r.token r.tie .badDescriptor
  else
    let (v, bad) := s.exportReq t u ua r
    v.tokenDone t r.slot r.token r.tie (noteMet met bad)

/-- A started job with no request left leaves its queues. -/
def Mx.settleJob (x : Mx) (j : MxJob) : Mx :=
  if j.reqs.isEmpty then { x with jobs := x.jobs.filter (fun k => k.id != j.id) } else x.putJob j

/-- The next request of a started job completes, before the exports of those that joined after it; the job leaves its queues with its
last one (R158, R169). A job that was torn down ends at once (R160). -/
def State.finishJob (s : State) (t : Nat) (u ua : Upsets) (j : MxJob) : State :=
  if j.torn then
    let s1 := (List.zip j.reqs j.met).foldl (fun v x => v.finishReq t u ua true x.1 x.2) s
    ((s1.putMx t ((s1.mxu t).settleJob { j with reqs := [] })).tock).wakeTile t
  else
    let s1 := (List.zip (j.reqs.take 1) j.met).foldl (fun v x => v.finishReq t u ua false x.1 x.2) s
    (s1.putMx t ((s1.mxu t).settleJob { j with reqs := j.reqs.drop 1, met := j.met.drop 1 })).wakeTile t

/-- A job may complete its next request: it has started, its tile has been loaded where it needs one, and the export of C has its turn at
the banks (R37, R158). -/
def State.mayComplete (s : State) (t : Nat) (j : MxJob) : Bool :=
  !s.fieldHeld (t / 192) && j.started &&
  (j.torn || ((j.loaded || j.noLoad) && (j.desc.expo == 0 || j.desc.preload || s.hasTurn (.banks t) userExport)))

/-- MXD_COMPLETE (R158, R169): the next request of a started job completes (R439: not in a held field). -/
def execMxdComplete (t id : Nat) (u ua : Upsets) (s : State) : Out :=
  ranCore (.mxdComplete t id u ua) s
    (match (s.mxu t).job id with
     | some j =>
       if s.mayComplete t j then
         (if j.torn || j.desc.expo == 0 || j.desc.preload then s else s.useBanks t).finishJob t u ua j
       else s
     | none => s)

/-- KERNEL_ABORT reaches a tile: every gate that holds a request of one of the slots issues at once (R171), into a fifth place where
its queue has no free one, of which the spec says nothing (DESIGN CHOICE, log 136). -/
def State.flushSlots (s : State) (t : Nat) (slots : List Nat) : State :=
  s.putMx t ((List.range 4).foldl (fun (x : Mx) g =>
    if (x.gate g).any (fun r => slots.contains r.slot) then x.issueGate g else x) (s.mxu t))

/-! ### Tie-sums (R215, R216) -/

/-- The descriptor of one span of a tie-sum: GEMM_AT on the west column pair, from gradient element `first` on. -/
def tieDesc (x : Tie) (first n : Nat) : MxDesc :=
  { op := 1, array := 6, fa := 2, fb := 2, fc := 2, cvt := 0, group := 16, acc := false, preload := false, swap := false,
    fill := false, masken := false, expo := 0, topk := 1, m := n, n := 1, k := x.uses, row := 0,
    ab := (x.slots + 4 * first) / 64, bb := x.scratch / 64, cb := 0, ast := x.stride / 64, bst := 1, cst := 0, ascale := 0,
    bscale := 0, cscale := 0, mask := 0, top := false }

/-- One span of a tie-sum: the sums in the accumulator rows, then the gradient in B16 (R216; DEDUCED, log 44). -/
def State.tieSpan (s : State) (u ua : Upsets) (x : Tie) (first n : Nat) : State :=
  let t := x.tile
  let d := tieDesc x first n
  let mask := List.replicate n true
  let s1 := ((d.readsB t 0 d.k ++ d.readsA t mask).foldl sadd []).foldl (fun v c => v.senseCw u c) s
  let (s2, _) := s1.feedGemm s t u d mask []
  let s3 := s2.senseAcc t ua (rowsMeet 6 1 (List.range n))
  let es := (List.range n).map (fun i => (s3.accSeen t ua (rowsMeet 6 1 (List.range n))).accAt t 6 i 0)
  let g := storeBase t + x.grad + 4 * first
  let s4 := s3.merge u g (es.flatMap (fun a => nibsOf (encElem .b16 false .rne a.sum) 4))
  let s5 := (List.zip (List.range n) es).foldl (fun v e => if e.2.poison then v.poisonSpan (g + 4 * e.1) 4 else v) s4
  s5.bumpWrap (oMxDone (t / 192) (s5.tileSite t)) 0 32 1

/-- The tie-sum of one tensor: the column of ones, then its spans (R216). A gradient, or a scratch span, that lies in a fenced region
stays as it is, and the tie-sum is not made (R208; DEDUCED, log 44). -/
def State.tieOne (s : State) (u ua : Upsets) (x : Tie) : State :=
  let a := storeBase x.tile
  let spans : List (Int × Int) :=
    [((a + x.scratch : Nat), (a + x.scratch + 1024 : Nat) - 1), ((a + x.grad : Nat), (a + x.grad + 4 * x.elems : Nat) - 1)]
  match (spans.filterMap s.fencedExtent).head? with
  | some p => s.fenceHit p (s.srcTile x.tile)
  | none =>
    let s1 := (List.range x.uses).foldl (fun v k => v.merge u (a + x.scratch + 64 * k) (nibsOf 0x3F80 4)) s
    (List.range (cdiv x.elems 1024)).foldl (fun v i =>
      v.tieSpan u ua x (1024 * i) (Nat.min 1024 (x.elems - 1024 * i))) s1

/-- The kernel entries that the schedule of partition p tags (R48). -/
def State.tagged (s : State) (p : Nat) (t : KTag) : List Nat :=
  match (s.part p).sched with
  | some g => (g.tags.filter (fun e => e.2 == t)).map (·.1)
  | none => []

/-- The kernels of a phase have been launched, where there are any, and none is live. A kernel ends only with its operations
complete (R96), so that these are complete too (R197, R207, R216; DEDUCED, log 77). -/
def State.tagDone (s : State) (p : Nat) (t : KTag) (ran : Bool) : Bool :=
  (ran || (s.tagged p t).isEmpty) && !s.kernels.any (fun e => e.2.part == p && (s.tagged p t).contains e.2.entry)

/-- TIE_SUM (R216): once the backward kernels have exited, the tied tensors of a partition are summed in declared order. -/
def execTieSum (p : Nat) (u ua : Upsets) (s : State) : Out :=
  ranCore (.tieSum p u ua) s
    (let x := s.part p
     if s.phase p == phBwd && !x.step.tieDone && x.ties.all (fun y => !s.fieldHeld (y.tile / 192)) && s.tagDone p .bwd x.step.bwdRun then
       let s1 := x.ties.foldl (fun v y => v.tieOne u ua y) s
       s1.putPart p { s1.part p with step := { (s1.part p).step with tieDone := true } }
     else s)

end Sys2Proof.Machine
end

