-- ==== Sys2Proof/Machine/Orders.lean ====
section
/-! DEFINITION. An entry of an access order list is served (R35, R36): who presents an access at a bank or a vault port, the DMA paths, and the read-back of a transfer (R360). -/

namespace Sys2Proof.Machine

/-! ### Where an access is served (R37, R240, R241) -/

/-- The port and the user of an access at its home (R37): a thread of the vault's own tile is its local tile; every other access, and
every global access to a tile store, comes by the mesh local port. A POST reaches a cell and a cached access its slice: neither uses a
port. -/
def State.homePort (s : State) (a : Access) : Option (ListRes × Nat) :=
  if a.kind.isPost || s.cachedOff a.off then none
  else
    let r := s.portOf (s.physAt a.off)
    let here (t : Nat) : Bool := match r with
      | .vault f site _ => s.tilePos t == (f, site)
      | _ => false
    match r, a.origin with
    | .vault _ _ _, .lane t _ _ _ _ _ _ => some (r, if here t then portTile else portMesh)
    | .vault _ _ _, .lanes t _ _ _ _ => some (r, if here t then portTile else portMesh)
    | .vault _ _ _, _ => some (r, portMesh)
    | _, _ => some (r, userMesh)

/-- The port of a fill of the line at a physical offset: the slice reaches the vault by the mesh (R37). -/
def State.fillPort (s : State) (o : Nat) : ListRes × Nat := (s.portOf (o / 256 * 256), portMesh)

/-- The port and the user of channel k at an offset of this module, none in a cached region: a field channel is the DMA user in its own
field, and comes by the mesh in another one or to a spare vault (R37, R241). -/
def State.dmaPort (s : State) (k o : Nat) : Option (ListRes × Nat) :=
  if s.cachedOff o then none
  else
    let r := s.portOf (s.physAt o)
    match r with
    | .vault f _ _ => some (r, if k < 512 && k / 8 == f && !s.sparePort r then portDma else portMesh)
    | .banks t => some (r, if k < 512 && k / 8 == t / 192 then userDmaPort else userMesh)
    | _ => none

/-- The offsets of this module that the next piece of a transfer begins with: its source, a directory entry for an unpack, and its
destinations (R350, R363, R364). -/
def State.pieceOffs (s : State) (k : Nat) (x : Xfer) : List Nat :=
  let d := dmaDesc x.regs
  let src := if d.mode = 2 then [d.dir + 8 * x.run]
    else if s.mineSide d.srcHost d.src then [bits (d.srcAt x.run + x.off) 0 44] else []
  let dst := if d.mode = 1 then d.dst + x.pos else d.dstAt x.run + x.off
  src ++ (if s.mineSide d.dstHost d.dst then (shiftsOf k d).map (fun sh => ((bits dst 0 44 : Int) + sh).toNat) else [])

/-- The ports that the next piece of channel k uses. -/
def State.piecePorts (s : State) (k : Nat) (x : Xfer) : List (ListRes × Nat) := (s.pieceOffs k x).filterMap (s.dmaPort k)

/-! ### DMA paths (R347, R349, R350) -/

/-- Channel k has a piece to send. -/
def State.dmaPending (s : State) (k : Nat) : Bool :=
  match tfind s.dma k with
  | some x => !x.stop && decide (x.run < x.runs)
  | none => false

/-- Channel k has a piece to send, no port that it needs is held (R253, R258, R262), and it has its turn at each (R35). -/
def State.dmaHasBeat (s : State) (k : Nat) : Bool :=
  match tfind s.dma k with
  | some x =>
    s.dmaPending k && (s.pieceOffs k x).all (fun o => !s.portHeld (s.physAt o) && !(s.cachedOff o && s.evictHeld (s.physAt o))) &&
    (s.piecePorts k x).all (fun p => s.hasTurn p.1 p.2)
  | none => false

/-- A piece of channel k is carried and counted at the ports that it uses. -/
def State.dmaServe (s : State) (u : Upsets) (k : Nat) : State :=
  let ps := match tfind s.dma k with
    | some x => s.piecePorts k x
    | none => []
  ps.foldl (fun t p => t.usePort p.1 1) (s.dmaBeat u k)

/-- Up to n pieces of channel k, and how many there were. -/
def State.dmaBeats (s : State) (u : Upsets) (k : Nat) : Nat → State × Nat
  | 0 => (s, 0)
  | n + 1 =>
    if s.dmaHasBeat k then
      let (v, m) := (s.dmaServe u k).dmaBeats u k n
      (v, m + 1)
    else (s, 0)

/-- The current entry of a DMA path is served (R347, R349, R350). A channel whose piece waits at a port still presents it (R36). -/
def State.serveDma (s : State) (u : Upsets) (r : ListRes) (base : Nat) : State :=
  let a := s.aol r
  match a.current with
  | none => s
  | some e =>
    let k := base + e.user
    let (v, n) := s.dmaBeats u k (e.quantum - a.made)
    v.putAol r (a.count e n (v.dmaPending k))

/-! ### Matrix issue (R154) -/

/-- Services of a matrix-issue list until its entry passes or nothing more moves. -/
def State.serveEntry (s : State) (t : Nat) (u : Upsets) : Nat → State
  | 0 => s
  | n + 1 =>
    let v := s.serveMatrix t u
    if (v.aol (.matrix t)) = (s.aol (.matrix t)) || (v.aol (.matrix t)).pos != (s.aol (.matrix t)).pos then v
    else v.serveEntry t u n

/-! ### Banks and vault ports (R36 to R38, R253) -/

/-- The channel that a DMA path would serve now has a piece that uses a port as the user given. -/
def State.dmaPresents (s : State) (path : ListRes) (base : Nat) (r : ListRes) (user : Nat) : Bool :=
  match (s.aol path).current with
  | some e =>
    (match tfind s.dma (base + e.user) with
     | some x => s.dmaPending (base + e.user) && (s.piecePorts (base + e.user) x).any (fun p => p == (r, user))
     | none => false)
  | none => false

/-- A user presents an access at a bank list or a vault port while its entry is current (R36): an access at its home, a fill, a piece of
a DMA path, or a job of the matrix unit. What thread issue presents leaves the pipe at once. -/
def State.presents (s : State) (r : ListRes) (user : Nat) : Bool :=
  s.homeQ.any (fun a => s.homePort a == some (r, user)) ||
  s.cacheQ.any (fun a => a.waitFill && s.fillPort a.off == (r, user)) ||
  (List.range 64).any (fun f => s.dmaPresents (.dmaPath f) (8 * f) r user) || s.dmaPresents .hostDma 512 r user ||
  (match r with
   | .banks t =>
     let js := (s.mxu t).jobs
     (user == userOperands && js.any (fun j => !j.torn && ((s.mxu t).mayLoad j ||
        (!j.desc.preload && decide (j.desc.k ≠ 0) && s.mayStart t j)))) ||
     (user == userExport && js.any (fun j => !j.torn && !j.desc.preload && decide (j.desc.expo ≠ 0) && s.mayComplete t j))
   | _ => false)

/-- The port is held as a whole (R253, R258, R259, R439): its list stands still. -/
def State.resHeld (s : State) : ListRes → Bool
  | .vault f site ch => (s.vault f site).hold || nth false (s.vault f site).short ch
  | .banks t => s.fieldHeld (t / 192)
  | _ => false

/-- The entry of a bank list or a vault port passes where its user presents nothing and the port is not held. -/
def State.passIdle (s : State) (r : ListRes) : State :=
  match (s.aol r).current with
  | some e => if s.resHeld r || s.presents r e.user then s else s.passEntry r
  | none => if s.resHeld r then s else s.passEntry r

/-- The current entry of a resource's list is served (R36). At a tile's banks the instructions of its memory pipe go on where the entry is
theirs (R38); the accesses of every other user of banks and vault ports are made by commands of their own. -/
def State.serveList (s : State) (r : ListRes) (u : Upsets) : State :=
  match r with
  | .dmaPath f => s.serveDma u r (8 * f)
  | .hostDma => s.serveDma u r 512
  | .matrix t => s.serveEntry t u 17
  | .banks t =>
    let v := s.drainPipe t
    if (v.pipe t).length = (s.pipe t).length then s.passIdle r else v
  | .vault _ _ _ => s.passIdle r

/-- ORDER_LIST_ENTRY (R35, R36). -/
def execOrderListEntry (r : ListRes) (u : Upsets) (s : State) : Out :=
  ranCore (.orderListEntry r u) s ((s.serveList r u).wakeAll)

/-! ### The read-back of a transfer (R360) -/

/-- The load that reads a destination of another module back is still away. -/
def State.readBackAway (s : State) (k : Nat) : Bool := s.ops.any (fun o => match o.origin with
  | .dma c _ _ _ _ => c == k
  | _ => false)

/-- DMA_READ_BACK_DONE (R278, R360): the transfer completes with the status it met, once its read-back has returned. -/
def execDmaReadBackDone (ch : DmaCh) (s : State) (u : Upsets := []) : Out :=
  ranCore (.dmaReadBackDone ch u) s
    (match tfind s.dma (dmaKey ch) with
     | some x => if x.readBack && x.away == 0 && !s.readBackAway (dmaKey ch) then (s.readBackDone u (dmaKey ch) x).wakeAll else s
     | none => s)

end Sys2Proof.Machine
end

