-- ==== Sys2Proof/Machine/Vaults.lean ====
section
/-! DEFINITION. Vault controllers and tile-store scrubbing (R246 to R267): refresh, temperature and throttling, protective hold (R439), scrubbing, short repairs and slot moves. -/

namespace Sys2Proof.Machine

/-! ### Temperature and protective hold (R252, R253, R439) -/

/-- The hottest tier of a vault as last read. -/
def State.hottest (s : State) (f site : Nat) : Nat :=
  (List.range 4).foldl (fun m i => Nat.max m (s.rdF (oVltTemp f site) (8 * i) 8)) 0

/-- The level that a reading reaches: 4 stands for hold (R252). -/
def levelEntered (h : Nat) : Nat :=
  if 115 < h then 4 else if 108 ≤ h then 3 else if 100 ≤ h then 2 else if 95 ≤ h then 1 else 0

/-- The reading at which a level is left (R252). -/
def levelLeft (l : Nat) : Nat := if l = 4 then 110 else if l = 3 then 105 else if l = 2 then 97 else 92

/-- The level after a reading. -/
def nextLevel : Nat → Nat → Nat
  | 0, h => levelEntered h
  | l + 1, h =>
    if l + 1 ≤ levelEntered h then levelEntered h
    else if h ≤ levelLeft (l + 1) then nextLevel l h else l + 1

/-- The throttle level written: a change is counted and reported (R252, R266). -/
def State.setLevel (s : State) (f site l : Nat) : State :=
  let o := oVltThrottle f site
  if s.rdF o 0 3 = l then s
  else ((s.wrF o 0 3 l).bump o 16 8 1).raiseOwner .thermal .ok (srcSite f site)

/-- The rings that learn of a field's hold: the owner and the partition that holds the field (R439, R480). -/
def State.holdRings (s : State) (f : Nat) : List Nat :=
  16 :: match s.partOfField f with
    | some p => [p]
    | none => []

/-- The field's bit of `PWR_HOLD` written. -/
def State.putHold (s : State) (f : Nat) (b : Bool) : State :=
  s.wrF (if f < 32 then oPwrHoldLo else oPwrHoldHi) (f % 32) 1 (b2n b)

/-- A field enters protective hold (R439). -/
def State.enterHold (s : State) (f : Nat) : State :=
  if s.fieldHeld f then s else (s.putHold f true).raise .thermal .ok (srcCentral 1) (s.holdRings f)

/-- A vault above 115 °C goes into self-refresh, and its field into hold (R253). -/
def State.holdVault (s : State) (f site : Nat) : State :=
  let s1 := s.putVault f site { s.vault f site with hold := true }
  (s1.wrF (oSiteStatus f site) 13 1 1).enterHold f

/-- Everything that lets a field leave hold: its vaults at 110 °C or less, its junctions at 100 °C or less, the supply in
range (R439). -/
def State.mayLeaveHold (s : State) (f : Nat) : Bool :=
  s.fieldHeld f && (List.range sites).all (fun site => decide (s.hottest f site ≤ 110)) &&
  decide (tget 0 s.power.junctions f ≤ 100) && !s.power.supplyBad

/-- A field leaves hold: its vaults serve again. -/
def State.leaveHold (s : State) (f : Nat) : State :=
  let s1 := (s.putHold f false).raise .thermal .ok (srcCentral 1) (s.holdRings f)
  (List.range sites).foldl (fun v site =>
    if (v.vault f site).hold then
      ((v.putVault f site { v.vault f site with hold := false }).wrF (oSiteStatus f site) 13 1 0).setLevel f site
        (nextLevel 4 (v.hottest f site))
    else v) s1

/-- A junction reading and the state of the core supply are taken in; `PWR_TEMP` shows the hottest junction (R439, R444; DEDUCED, log 47). -/
def State.noteJunction (s : State) (f junction : Nat) (bad : Bool) : State :=
  let js := tset 0 s.power.junctions f junction
  let s1 := { s with power := { s.power with junctions := js, supplyBad := bad } }
  s1.wrF oPwrTemp 0 8 (Nat.min 255 (js.foldl (fun m e => Nat.max m e.2) 0))

/-- PROTECTIVE_HOLD (R439): a junction above 105 °C or a vault above 115 °C holds its field, a core supply out of range every
field. -/
def execProtectiveHold (f junction : Nat) (bad : Bool) (s : State) : Out :=
  ran (.protectiveHold f junction bad)
    (let s1 := s.noteJunction f junction bad
     let s2 := if 105 < junction || (List.range sites).any (fun site => decide (115 < s.hottest f site)) then s1.enterHold f else s1
     if bad then (List.range 64).foldl (fun v g => v.enterHold g) s2 else s2)

/-! ### Frames and slots (R237 to R240) -/

/-- The site that a slot-table target names from a home site. -/
def State.targetSite (s : State) (f home target : Nat) : Nat :=
  if target = 0 then home else nth home (s.unusedOf f) (target - 1)

/-- The home site and slot that hold a frame of a channel of a site, if any. -/
def State.frameHolder (s : State) (f site ch frame : Nat) : Option (Nat × Nat) :=
  let n := 4 * frame + ch
  if !s.isUnused f site && s.slotEntry f site n == { target := 0, tier := ch, frame := frame } then some (site, n)
  else
    (s.slots.find? (fun e =>
      let home := e.1 / 4096 % sites
      e.1 / 4096 / sites == f && e.2.tier == ch && e.2.frame == frame && s.targetSite f home e.2.target == site)).map
      (fun e => (e.1 / 4096 % sites, e.1 % 4096))

/-- The module offset of granule j of slot n of the vault of global tile t (R237). -/
def granuleOff (t n j : Nat) : Nat := t * 0x40000000 + (j * 4096 + (n ^^^ (j * 32))) * 2048

/-- The module offset of a sector of a channel: bank, row and sector as its slot holds them (R239, R240). -/
def State.sectorOff (s : State) (f site ch bank row sector : Nat) : Option Nat :=
  let j := row % 128
  match s.frameHolder f site ch (row / 128 * 32 + (bank ^^^ (j % 32))) with
  | some (home, n) => (s.tileAt f home).map (fun t => granuleOff t n j + sector * 64)
  | none => none

/-! ### Scrubbing (R247, R257) -/

/-- Sectors of a channel. -/
def chSectors : Nat := 4194304

/-- The number of codeword j of a sector in a frame that no slot holds, behind those of module memory and the slices: sector i of a
channel. Such a frame's data reach no reader; its errors count, and its poison stays (R247). -/
def frameCw (f site ch i j : Nat) : Nat := 2 ^ 41 + (((f * sites + site) * 4 + ch) * chSectors + i) * 2 + j

/-- The frame (field × 196 + site) × 4096 + channel × 1024 + frame that such a number lies in (R239). -/
def frameOfCw (c : Nat) : Nat :=
  let x := (c - 2 ^ 41) / 2
  let i := x % chSectors
  let row := i / 32 % 4096
  x / chSectors * 1024 + (row / 128 * 32 + ((i / 131072) ^^^ (row % 32)))

/-- The codewords of sector i of a channel. -/
def State.sectorCws (s : State) (f site ch i : Nat) : List Nat :=
  match s.sectorOff f site ch (i / 131072) (i / 32 % 4096) (i % 32) with
  | some o => [o / 32, o / 32 + 1]
  | none => [frameCw f site ch i 0, frameCw f site ch i 1]

/-- A codeword of a frame that no slot holds is read through the decoder and written back (R244, R247): the address register captures
nothing for it, since no window offset names it. -/
def State.mendFrameCw (s : State) (u : Upsets) (f site ch i c : Nat) : State :=
  let at' := i / 131072 * 4096 + i / 32 % 4096
  match eccDecode (s.poisoned c) (upsetOf u c) with
  | .clean => s
  | .corrected pos _ =>
    let s1 := (s.putPoison c false).countCorrected (oVltErrCh f site ch) 0 16 true (srcSite f site)
    s1.putVault f site ((s1.vault f site).noteSymbol ch pos at')
  | .poisoned => s.putPoison c true
  | .uncorrectable =>
    let r := oVltErrCh f site ch
    let s1 := ((s.putPoison c true).bump r 16 8 1).wrF r 31 1 1
    (s1.putVault f site ((s1.vault f site).noteBadRow ch (i / 131072) (i / 32 % 4096))).raiseOwner .uncorrectable .poisoned
      (srcSite f site)

/-- A sector of a channel is read through the decoder and written back: corrected in place, or poisoned (R247, R258). -/
def State.mendSector (s : State) (u : Upsets) (f site ch i : Nat) : State :=
  (s.sectorCws f site ch i).foldl (fun v c => if c < 2 ^ 41 then v.mendCw u c else v.mendFrameCw u f site ch i c) s

/-- The codewords of a sector scrubbed: corrected in place, or written back poisoned. Rows with a correction are noted. -/
def State.scrubSector (s : State) (u : Upsets) (f site ch i : Nat) : State :=
  let x := (ch, i / 131072, i / 32 % 4096)
  let s1 := s.mendSector u f site ch i
  let fixed := (s.sectorCws f site ch i).any (fun c => match eccDecode (s.poisoned c) (upsetOf u c) with
    | .corrected _ _ => true
    | _ => false)
  let v := s1.vault f site
  if fixed && !v.rowsNow.contains x then s1.putVault f site { v with rowsNow := v.rowsNow ++ [x] } else s1

/-- The scrub of a channel moves on one sector; at the end of a pass the rows it met become those of the last pass, but for those met on
two passes, which stay until they are remapped, and the passes of all four channels are counted (R247, R258, R266). -/
def State.scrubStep (s : State) (u : Upsets) (f site ch : Nat) : State :=
  let i := nth 0 (s.vault f site).scrub ch
  let s1 := s.scrubSector u f site ch i
  let v := s1.vault f site
  if i + 1 < chSectors then s1.putVault f site { v with scrub := setAt v.scrub ch (i + 1) }
  else
    let ps := setAt v.passes ch (nth 0 v.passes ch + 1)
    let now := v.rowsNow.filter (fun x => x.1 == ch)
    let due := now.filter (fun x => v.rowsLast.contains x)
    let w := { v with scrub := setAt v.scrub ch 0, passes := ps, rowsNow := v.rowsNow.filter (fun x => x.1 != ch) ++ due,
                      rowsLast := v.rowsLast.filter (fun x => x.1 != ch) ++ now }
    let least := ps.foldl Nat.min (nth 0 ps ch)
    (s1.putVault f site w).wrF (oMemScrub f site) 0 16 (Nat.min least 0xFFFF)

/-- The vaults stand in self-refresh: STRIKE and DORMANT (R429, R430). -/
def State.selfRefresh (s : State) : Bool := s.modState == stStrike || s.modState == stDormant

/-- REFRESH_INTERVAL (R246, R247, R252): two sectors of every channel are scrubbed and the four sensors are read. A vault in
self-refresh is not scrubbed (DEDUCED, log 46). -/
def State.refresh (s : State) (f site : Nat) (ts : List Nat) (u : Upsets) : State :=
  if s.selfRefresh then s
  else
    let v := s.vault f site
    let s1 := if v.hold then s
      else (List.range 4).foldl (fun w c => (w.scrubStep u f site c).scrubStep u f site c) s
    let s2 := (List.zip (List.range 4) ts).foldl (fun w x => w.wrF (oVltTemp f site) (8 * x.1) 8 (Nat.min 255 x.2)) s1
    let h := s2.hottest f site
    let o := oVltThrottle f site
    let peak := if s2.rdF o 31 1 = 1 then Nat.max (s2.rdF o 8 8) h else h
    let s3 := (s2.wrF o 8 8 peak).wrF o 31 1 1
    if v.hold then s3
    else
      let l := nextLevel (s3.rdF o 0 3) h
      let s4 := s3.setLevel f site l
      if l = 4 then s4.holdVault f site else s4

def execRefreshInterval (f site t0 t1 t2 t3 : Nat) (u : Upsets) (s : State) : Out :=
  ran (.refreshInterval f site t0 t1 t2 t3 u) (s.refresh f site [t0, t1, t2, t3] u)

/-- TILE_STORE_SCRUB (R257): one codeword of a bank pair, in ascending word index; a full pass of all pairs is counted. -/
def State.scrubStore (s : State) (t pair : Nat) (u : Upsets) : State :=
  if s.selfRefresh then s
  else
    let p := tget 0 s.tsScrub (t * 16 + pair)
    let s1 := s.mendCw u ((storeBase t + p % 12288 * 512 + pair * 32) / 32)
    let tab := tset 0 s1.tsScrub (t * 16 + pair) (p + 1)
    let least := ((List.range 16).map (fun m => tget 0 tab (t * 16 + m) / 12288)).foldl Nat.min ((p + 1) / 12288)
    ({ s1 with tsScrub := tab }).wrF (oMemScrub (t / 192) (s.tileSite t)) 16 16 (Nat.min least 0xFFFF)

def execTileStoreScrub (t pair : Nat) (u : Upsets) (s : State) : Out := ranCore (.tileStoreScrub t pair u) s (s.scrubStore t pair u)

/-! ### Short repairs (R258 to R260) -/

/-- A short repair starts on a channel: its port holds accesses until it is done, and it is logged (R258, R259). -/
def State.startShort (s : State) (f site ch : Nat) : State :=
  let v := s.vault f site
  ((s.putVault f site { v with short := setAt v.short ch true, shortAge := setAt v.shortAge ch 0 }).wrF (oVltRepairCh f site ch) 11 1 1).raiseOwner .repair .ok
    (srcSite f site)

/-- A long repair is needed (R260). -/
def State.needsLong (s : State) (f site ch : Nat) : State :=
  (s.wrF (oVltRepairCh f site ch) 12 1 1).raiseOwner .repair .ok (srcSite f site)

/-- A short repair may start on a channel: none runs there, and 65,536 service units have passed since the last one began (R259). -/
def State.shortIdle (s : State) (f site ch : Nat) : Bool :=
  !nth false (s.vault f site).short ch && decide (65536 ≤ nth 0 (s.vault f site).shortAge ch)

/-- RECALIBRATION (R258, R260): the hottest tier has moved 8 °C since the last calibration. -/
def execRecalibration (f site ch : Nat) (ok : Bool) (s : State) : Out :=
  ranCore (.recalibration f site ch ok) s
    (let h := s.hottest f site
     let v := s.vault f site
     let last := nth 0 v.calTemp ch
     let moved := decide (last + 8 ≤ h) || decide (h + 8 ≤ last)
     if moved && s.shortIdle f site ch then
       let s1 := (s.putVault f site { v with calTemp := setAt v.calTemp ch (if ok then h else last) }).startShort f site ch
       if ok then s1 else s1.needsLong f site ch
     else s)

/-- The sectors of a row copied through the decoder into a spare row (R258): errors are mended and counted, and poison stays. -/
def State.copyRow (s : State) (u : Upsets) (f site ch bank row : Nat) : State :=
  (List.range 32).foldl (fun v k => v.mendSector u f site ch (bank * 131072 + row * 32 + k)) s

/-- ROW_REMAP (R258, R260): a row corrected on two successive passes, or with an uncorrectable codeword. -/
def execRowRemap (f site ch bank row : Nat) (s : State) (u : Upsets := []) : Out :=
  ranCore (.rowRemap f site ch bank row u) s
    (let v := s.vault f site
     let x := (ch, bank, row)
     if v.rowsNow.contains x && v.rowsLast.contains x && s.shortIdle f site ch then
       let used := tget 0 v.spareRows (ch * 32 + bank)
       let w := { v with rowsNow := v.rowsNow.filter (fun y => y != x), rowsLast := v.rowsLast.filter (fun y => y != x) }
       if used < 8 then
         let s1 := (s.putVault f site { w with spareRows := tset 0 w.spareRows (ch * 32 + bank) (used + 1) }).copyRow u f site ch bank row
         let s2 := s1.putVault f site { s1.vault f site with rowsNow := (s1.vault f site).rowsNow.filter (fun y => y != x) }
         (s2.bump (oVltRepairCh f site ch) 0 9 1).startShort f site ch
       else (s.putVault f site w).needsLong f site ch
     else s)

/-- LANE_GROUP_SPARE (R258, R260): 16 successive corrections on one symbol position in different rows. -/
def execLaneGroupSpare (f site ch sym : Nat) (s : State) : Out :=
  ranCore (.laneGroupSpare f site ch sym) s
    (let v := s.vault f site
     let (pos, rows) := nth (0, []) v.symRun ch
     if pos = sym && decide (16 ≤ rows.length) && s.shortIdle f site ch then
       let s1 := s.putVault f site { v with symRun := setAt v.symRun ch (0, []) }
       if s.rdF (oVltRepairCh f site ch) 9 2 < 2 then
         (s1.bump (oVltRepairCh f site ch) 9 2 1).startShort f site ch
       else s1.needsLong f site ch
     else s)

/-! ### Slot moves (R261 to R264, R267) -/

/-- Frames of a channel of the k-th unused site that slot tables hold; `CH_MOVED` of a home site (R266). -/
def State.spareUse (s : State) (f site ch : Nat) : Nat :=
  (s.slots.filter (fun e => e.1 / 4096 / sites == f && e.2.tier == ch && e.2.target != 0 &&
    s.targetSite f (e.1 / 4096 % sites) e.2.target == site)).length
def State.movedSlots (s : State) (f site ch : Nat) : Nat :=
  (s.slots.filter (fun e => e.1 / 4096 == f * sites + site && e.1 % 4 == ch && !(e.2.target == 0 && e.2.tier == ch))).length

/-- The site registers that follow the slot tables: those of the field's unused sites and of the home site. -/
def State.showSlots (s : State) (f home : Nat) : State :=
  let s1 := (s.unusedOf f).foldl (fun v x =>
    (List.range 4).foldl (fun v c =>
      v.wrF (if c < 2 then oSpareUseLo f x else oSpareUseHi f x) (11 * (c % 2)) 11 (v.spareUse f x c)) v) s
  (List.range 4).foldl (fun v c => v.wrF (oSiteStatus f home) (6 + c) 1 (b2n (decide (v.movedSlots f home c = 1024)))) s1

/-- Codeword i of granule j of slot n of the vault of global tile t. -/
def slotCw (t n j i : Nat) : Nat := granuleOff t n j / 32 + i

/-- A codeword of module memory lies in slot n of the vault of (field, site) (R237). -/
def State.inSlot (s : State) (f site n c : Nat) : Bool :=
  match s.tileAt f site with
  | some t => decide (32 * c / 0x40000000 = t) && decide (32 * c < vaultEnd) && decide (slotOf (32 * c % 0x40000000) = n)
  | none => false

/-- The number under which `frameOfCw` names the frame of a slot-table entry. -/
def State.frameNo (s : State) (f site : Nat) (e : SlotEntry) : Nat :=
  ((f * sites + s.targetSite f site e.target) * 4 + e.tier) * 1024 + e.frame

/-- The poisoned codewords of a slot as those of the frame that it leaves. -/
def State.leftPoison (s : State) (f site n : Nat) : List Nat :=
  let e := s.slotEntry f site n
  (s.poison.filter (s.inSlot f site n)).map (fun c =>
    let l := s.vaultLoc (32 * c)
    frameCw f (s.targetSite f site e.target) e.tier (l.bank * 131072 + l.row * 32 + l.sector) (c % 2))

/-- The entry of a slot switches to its new place: the frame that it leaves keeps its poison, and that of the new one is gone with what
stood there. -/
def State.switchSlot (s : State) (f site n : Nat) (e : SlotEntry) : State :=
  let keep := s.poison.filter (fun c => !(decide (2 ^ 41 ≤ c) && frameOfCw c == s.frameNo f site e))
  let old := if s.slotEntry f site n = e then [] else s.leftPoison f site n
  let s1 := { s with poison := old.foldl sadd keep }
  ((s1.putSlot f site n e).showSlots f site).raiseOwner .repair .ok (srcSite f site)

/-- Every codeword of a slot written poisoned (R263). -/
def State.poisonSlot (s : State) (f site n : Nat) : State :=
  match s.tileAt f site with
  | none => s
  | some t => (List.range 128).foldl (fun v j =>
      (List.range 64).foldl (fun v i => v.putPoison (slotCw t n j i) true) v) s

/-- What a guarded pair of `VLT_SLOT_DATA` meets (R264). -/
def State.slotCheck (s : State) (f site n : Nat) (e : SlotEntry) : Status :=
  let idle := match s.partOfField f with
    | some p => s.phase p == phIdle || s.phase p == phHeld
    | none => true
  if !idle || (s.vault f site).copy.isSome then .wrongState
  else if 4 < e.target || (s.vault f (s.targetSite f site e.target)).badCh.contains e.tier then .badDescriptor
  else
    match s.frameHolder f (s.targetSite f site e.target) e.tier e.frame with
    | some h => if h = (site, n) then .ok else .badDescriptor
    | none => .ok

/-- A guarded pair of `VLT_SLOT_DATA` with value v takes effect on the slot selected (R261, R263, R264, R267). -/
def State.slotPair (s : State) (f site : Nat) (v : Word) : State :=
  let n := s.rdF (oVltSlotSel f site) 0 12
  let e : SlotEntry := { target := fld v 12 3, tier := fld v 10 2, frame := fld v 0 10 }
  match s.slotCheck f site n e with
  | .ok =>
    let s1 := s.wrF (oVltSlotData f site) 15 1 (fld v 15 1)
    if flag v 15 then s1.putVault f site { s1.vault f site with copy := some { slot := n, dest := e } }
    else (s1.switchSlot f site n e).poisonSlot f site n
  | st => s.raiseOwner .repair st (srcSite f site)

/-- The sectors of a slot go through the decoder to their new frame: every error met is mended or poisons its codeword, and is counted
where the slot lay (R261). -/
def State.copySlot (s : State) (u : Upsets) (f site n : Nat) : State :=
  u.foldl (fun v x => if s.inSlot f site n x.1 then v.mendCw u x.1 else v) s

/-- Every channel's delay elements calibrated at the temperature last read (R258, R436). -/
def State.calibrate (s : State) : State :=
  (List.range (64 * sites)).foldl (fun v k =>
    { v with vaults := tset vault0 v.vaults k { tget vault0 v.vaults k with
      calTemp := List.replicate 4 (s.hottest (k / sites) (k % sites)) } }) s

/-- A power-fail warning stops every slot copy: the entries keep their old values (R263). -/
def State.stopCopies (s : State) : State :=
  (s.vaults.map (fun e => e.1)).foldl (fun v k =>
    { v with vaults := tset vault0 v.vaults k { tget vault0 v.vaults k with copy := none } }) s

end Sys2Proof.Machine
end

