-- ==== Sys2Proof/Machine/Home.lean ====
section
/-! DEFINITION. Accesses at their home and at a cache slice (R271 to R278, R301, R302), pins (R280 to R283), clean and drop operations (R289), and the end of a counting window (R284). -/

namespace Sys2Proof.Machine

/-! ### Completion of an access -/

/-- The response of an access of another module: from the home's site along its row to the home's route for the requester (R294, R302). -/
def State.respond (s : State) (module tag : Nat) (a : Access) (r : Reply) : State :=
  let (f, site) := s.homePos a.off
  s.sendLink (hopsToGroup f site (s.route module).group) (s.linkFor module a.off)
    (s.flitTo module a.off a.part false false
      (.rsp { dest := module, off := a.off, tag := tag, status := r.st, data := r.data, words := r.words }))

/-- The answer to a thread's access goes back over the hops given (R45, R273), and is there at once where there is none. -/
def State.replyTo (s : State) (hops : List (RotaRes × Nat)) (a : Access) (r : Reply) : State :=
  if hops.isEmpty then s.finishThread a.origin r else s.depart hops (.reply a r)

/-- The way back to tile t of an access at its home, and of one at a slice, which has a physical offset. -/
def State.wayBack (s : State) (slice : Bool) (t : Nat) (a : Access) : List (RotaRes × Nat) :=
  if slice then s.hopsFromSlice t a.off
  else if a.kind.isPost then s.hopsFromHome t a.off
  else if s.cachedOff a.off then s.hopsFromSlice t (s.physAt a.off) else s.hopsFromHome t (s.physAt a.off)

/-- An access has been applied or refused, at its home or at a slice: whoever issued it learns the outcome (R136, R302). -/
def State.completeAccess (s : State) (slice : Bool) (a : Access) (r : Reply) : State :=
  match a.origin with
  | .remote m tag => s.respond m tag a r
  | .lane t _ _ _ _ _ _ => s.replyTo (s.wayBack slice t a) a r
  | .lanes t _ _ _ _ => s.replyTo (s.wayBack slice t a) a r
  | .post t _ _ => s.replyTo (s.wayBack slice t a) a r
  | .dma _ _ _ _ _ => s
  | .runtime => s
  | .live _ => s
  | .order => s
  | .task _ => s
  | .tap => s

/-- Two accesses of one source to overlapping nibbles: they are applied in program order (R101, R304). -/
def sameSource (a b : Origin) : Bool :=
  match a, b with
  | .lane t L _ _ _ _ _, .lane t' L' _ _ _ _ _ => t == t' && L == L'
  | .lane t L _ _ _ _ _, .lanes t' ls _ _ _ => t == t' && ls.contains L
  | .lanes t ls _ _ _, .lane t' L _ _ _ _ _ => t == t' && ls.contains L
  | .lanes t ls _ _ _, .lanes t' ls' _ _ _ => t == t' && ls.any (fun L => ls'.contains L)
  | .remote m _, .remote m' _ => m == m'
  | _, _ => false
def meets (a b : Access) : Bool := decide (a.off < b.off + b.kind.nibs) && decide (b.off < a.off + a.kind.nibs)
def conflicts (a b : Access) : Bool := sameSource a.origin b.origin && meets a b

/-- Two accesses leave one rota to one place: to a user's turn at one port, to one tile's cells, or to one slice. They are applied in the
order in which they left it (R58). -/
def State.samePlace (s : State) (a b : Access) : Bool :=
  match s.homePort a, s.homePort b with
  | some p, some q => p == q
  | none, none =>
    a.kind.isPost == b.kind.isPost &&
    (if a.kind.isPost then a.off == b.off
     else halfOf (s.physAt a.off) == halfOf (s.physAt b.off) && sliceOf (s.physAt a.off / 256) == sliceOf (s.physAt b.off / 256))
  | _, _ => false

/-- An access that passes the tests of R301 on a cached region goes to its slice under its physical offset (R271, R299). -/
def State.toSlice (s : State) (a : Access) : Bool :=
  !a.kind.isPost && s.cachedOff a.off && s.homeTests a == Status.ok && !(!a.kind.isStore && s.sharedPoison a)

/-- The access itself, at its home: applied or refused, RETIRE after it (R285, R301). A POST wakes the tile that it reaches (R128). -/
def State.applyNow (s : State) (u : Upsets) (a : Access) : State :=
  let (s1, r) := s.applyHome u a
  let s2 := if a.retire && r.st == Status.ok then s1.retireLine (s.physAt a.off) else s1
  let s3 := match a.kind with
    | .post t _ _ => s2.wakeTile t
    | _ => s2
  s3.completeAccess false a r

/-- One access waiting at its home is served (R301), in the order of R58: it is checked, then handed to its slice, refused, or applied in
its user's turn at the port, which may hold it (R35, R258, R262). -/
def State.serveHome (s : State) (n : Nat) (u : Upsets) : State :=
  match s.homeQ[n]? with
  | none => s
  | some a =>
    if (s.homeQ.take n).any (fun b => s.samePlace b a || conflicts b a) || s.cacheQ.any (fun b => conflicts b a) then s
    else
      let s0 := { s with homeQ := dropAt s.homeQ n }
      if s.toSlice a then { s0 with cacheQ := s0.cacheQ ++ [{ a with off := s.physAt a.off }] }
      else
        match s.homePort a with
        | none => if a.kind.isPost && s.portHeld a.off then s else s0.applyNow u a
        | some (r, user) =>
          if s.homeTests a != Status.ok then s0.applyNow u a
          else if s.portHeld (s.physAt a.off) || !s.hasTurn r user then s
          else (s0.usePort r 1).applyNow u a

/-- HOME_ACCESS (R301). -/
def execHomeAccess (n : Nat) (u : Upsets) (s : State) : Out := ranCore (.homeAccess n u) s (s.serveHome n u)

/-! ### The slice (R274, R277) -/

/-- The way of an access's line, allocated where it is absent; an access that has waited for its fill is not counted again
(R284). -/
def State.wayFor (s : State) (u : Upsets) (a : Access) : State × Nat :=
  if a.waitFill then
    match s.findWay (halfOf a.off) (a.off / 256) with
    | some w => (s, lineKey (halfOf a.off) (a.off / 256) w)
    | none => s.allocate u (halfOf a.off) (a.off / 256)
  else s.touchLine u a.off a.kind

/-- An access ahead of another in the queue of its slice holds it back: it has not been served, or it waits for a fill and meets its
nibbles (R58, R277). -/
def holdsBack (b a : Access) : Bool :=
  halfOf b.off == halfOf a.off && sliceOf (b.off / 256) == sliceOf (a.off / 256) && (!b.waitFill || meets b a)

/-- One access waiting at the slices is served: it waits for a fill where a byte it needs is not valid (R274), else it is
applied, and RETIRE acts after it (R285). A write-back that its line's allocation needs may have to wait (R258, R262). -/
def State.serveSlice (s : State) (h n : Nat) (u : Upsets) : State :=
  match s.cacheQ[n]? with
  | none => s
  | some a =>
    if halfOf a.off != h || (s.cacheQ.take n).any (fun b => conflicts b a || holdsBack b a) || s.evictHeld a.off then s
    else
      let (s1, k) := s.wayFor u a
      let waits := match s1.lineAt k with
        | some x => x.waits a.kind (a.off % 256)
        | none => false
      if waits then { s1 with cacheQ := setAt s1.cacheQ n { a with waitFill := true } }
      else
        let (s2, r) := s1.lineApply u h k a.kind (a.off % 256) a.poison
        let s3 := if a.retire then s2.retireLine a.off else s2
        { s3 with cacheQ := dropAt s3.cacheQ n }.completeAccess true a r

/-- CACHE_ACCESS (R274). -/
def execCacheAccess (h n : Nat) (u : Upsets) (s : State) : Out := ranCore (.cacheAccess h n u) s (s.serveSlice h n u)

/-- The sectors that a waiting access needs arrive, in the mesh local port's turn at the vault; bytes whose mask bit is set keep their
values (R37, R274). -/
def State.fillAccess (s : State) (h n : Nat) (u : Upsets) : State :=
  match s.cacheQ[n]? with
  | none => s
  | some a =>
    let (r, user) := s.fillPort a.off
    if halfOf a.off != h || !a.waitFill || s.portHeld a.off || s.evictHeld a.off || !s.hasTurn r user then s
    else
      let (s1, k) := s.wayFor u a
      (s1.fillFor u k (a.off % 256) a.kind.nibs).usePort r (sectorsOf (a.off % 256) a.kind.nibs).length

/-- CACHE_FILL (R274). -/
def execCacheFill (h n : Nat) (u : Upsets) (s : State) : Out := ranCore (.cacheFill h n u) s (s.fillAccess h n u)

/-- THRASH_EVENT (R284): a full counting window ends. -/
def execThrashEvent (h : Nat) (s : State) : Out := ranCore (.thrashEvent h) s (s.endWindow h)

/-! ### Pins (R280 to R283) -/

/-- Offsets of a range given in units of 16 lines. -/
def rangeLo (base : Nat) : Nat := base * 4096
def rangeHi (base len : Nat) : Nat := (base + len) * 4096

/-- The range lies whole in one cached region, of partition p where one is named (R280). -/
def State.cachedRange (s : State) (p : Option Nat) (base len : Nat) : Bool :=
  s.regions.any (fun e =>
    let r := e.2
    let inside (b : Nat) : Bool := decide (b * unit16 ≤ rangeLo base) && decide (rangeHi base len ≤ (b + r.len) * unit16)
    r.valid && r.cached && (match p with
      | some q => r.part == q
      | none => true) && (inside r.base || (r.staged && inside r.alt)))

/-- Every unit of the range lies in a cached region, of partition p where one is named: the range of a clean or drop (R289). -/
def State.cachedUnits (s : State) (p : Option Nat) (base len : Nat) : Bool :=
  let first := rangeLo base / unit16
  (List.range ((rangeHi base len - 1) / unit16 - first + 1)).all (fun i =>
    let o := (first + i) * unit16
    s.regions.any (fun e => e.2.valid && e.2.cached && e.2.holds o && (match p with
      | some q => e.2.part == q
      | none => true)))

/-- The quota of partition p in half h (R281, R289). -/
def State.pinQuota (s : State) (h p : Nat) : Nat :=
  if p < 8 then fld (s.rd (oScPinQuotaLo h)) (4 * p) 4 else fld (s.rd (oScPinQuotaHi h)) (4 * (p - 8)) 4

/-- Two ranges in units of 16 lines overlap. -/
def rangesMeet (b1 l1 b2 l2 : Nat) : Bool := decide (b1 < b2 + l2) && decide (b2 < b1 + l1)

/-- The outcome of a pin write, in table order (R281; DEDUCED, log 51). -/
def State.pinCheck (s : State) (h e p base len : Nat) : Status :=
  let old := tget pin0 (s.half h).pins e
  let others := (s.half h).pins.filter (fun x => x.1 != e)
  let ways := cdiv len 6144
  if s.partState p == 3 || old.busy then .wrongState
  else if len = 0 then .ok
  else if 12 < (others.map (fun x => x.2.ways)).foldl (· + ·) 0 + ways ||
      s.pinQuota h p < ((others.filter (fun x => x.2.part == p)).map (fun x => x.2.ways)).foldl (· + ·) 0 + ways then .pinLimit
  else if vaultEnd < rangeHi base len || rangeLo base / 0x40000000 != (rangeHi base len - 1) / 0x40000000 ||
      halfOf (rangeLo base) != h || !s.cachedRange (some p) base len ||
      others.any (fun x => decide (0 < x.2.ways) && rangesMeet x.2.base x.2.len base len) then .badDescriptor
  else .ok

/-- A pin entry written. -/
def State.putPin (s : State) (h e : Nat) (x : PinEntry) : State :=
  let y := s.half h
  s.putHalf h { y with pins := tset pin0 y.pins e x }

/-- The half that a line key lies in. -/
def keyHalf (k : Nat) : Nat := k / 16 / 6144 / 16

/-- The cached lines of half h with a number in a range of 16-line units, by key. -/
def State.linesIn (s : State) (h base len : Nat) : List Nat :=
  (s.lines.filter (fun e => keyHalf e.1 == h && decide (base ≤ e.2.num / 16) && decide (e.2.num / 16 < base + len))).map (·.1)

/-- The lines of a pinned range leave: dirty bytes of live lines are written back (R283). -/
def State.releaseRange (s : State) (u : Upsets) (h base len : Nat) : State :=
  (s.linesIn h base len).foldl (fun v k => v.evict u h k) s

/-- A dirty line among those listed would be written back at a port that is held (R253, R258, R262). -/
def State.linesHeld (s : State) (ks : List Nat) : Bool :=
  ks.any (fun k => match s.lineAt k with
    | some x => !x.dead && x.dirty != 0 && s.portHeld (x.num * 256)
    | none => false)

/-- A pin entry takes force: lines of the range already cached become pinned, and ordinary lines leave the ways it reserves
(R280, DESIGN CHOICE, log 14). -/
def State.reserveWays (s : State) (h : Nat) (x : PinEntry) : State :=
  let s1 := (s.linesIn h x.base x.len).foldl (fun v k =>
    match v.lineAt k with
    | some y => v.putLine k { y with pinned := true }
    | none => v) s
  ((s1.lines.filter (fun e => keyHalf e.1 == h && !e.2.pinned &&
    !(s1.ordinaryWays h e.2.num).contains (e.1 % 16))).map (·.1)).foldl (fun v k => v.evict [] h k) s1

/-- `SC_PIN_CTRL` takes effect on an entry (R280 to R283): the outcome, and the entry where it is OK. An entry already in force
gives up its lines first (DEDUCED, log 50). -/
def State.pinWrite (s : State) (h e p base len : Nat) (fill : Bool) : State × Status :=
  let old := tget pin0 (s.half h).pins e
  match s.pinCheck h e p base len with
  | .ok =>
    if len = 0 then
      (if old.ways = 0 then s.putPin h e { old with result := .ok } else s.putPin h e { old with busy := true, fill := false, result := .ok }, .ok)
    else
      let s1 := if old.ways = 0 then s else s.releaseRange [] h old.base old.len
      let x : PinEntry := { base := base, len := len, fill := fill, part := p, ways := cdiv len 6144, busy := fill, result := .ok }
      ((s1.putPin h e x).reserveWays h x, .ok)
  | st => (s.putPin h e { old with result := st }, st)

/-- Every line of a pinned range read from the vault (R282). -/
def State.fillRange (s : State) (u : Upsets) (h base len : Nat) : State :=
  (List.range (16 * len)).foldl (fun v i =>
    let l := 16 * base + i
    let (v1, k) := match v.findWay h l with
      | some w => (v, lineKey h l w)
      | none => v.allocate u h l
    v1.fillFor u k 0 256) s

/-- A granule of a range stands at a held port, so that its fill waits (R253, R258, R262). -/
def State.rangeHeld (s : State) (base len : Nat) : Bool :=
  (List.range (2 * len)).any (fun i => s.portHeld (rangeLo base + 2048 * i))

/-- PIN_FILL_DONE (R282). -/
def execPinFillDone (h e : Nat) (s : State) (u : Upsets := []) : Out :=
  ranCore (.pinFillDone h e u) s
    (let x := tget pin0 (s.half h).pins e
     if x.busy && x.fill && decide (0 < x.ways) && !s.rangeHeld x.base x.len then
       ((s.fillRange u h x.base x.len).putPin h e { x with busy := false }).allDoneOp (.pinFill h e) .ok
         (BitVec.ofNat 32 (h * 8 + e)).toNat 0
     else s)

/-- UNPIN_COMPLETE (R283): a busy entry without a fill is being unpinned; its lines leave and its ways are free. -/
def execUnpinComplete (h e : Nat) (s : State) (u : Upsets := []) : Out :=
  ranCore (.unpinComplete h e u) s
    (let x := tget pin0 (s.half h).pins e
     if x.busy && !x.fill && decide (0 < x.ways) && !s.linesHeld (s.linesIn h x.base x.len) then
       ((s.releaseRange u h x.base x.len).putPin h e { pin0 with result := .ok }).allDoneOp (.unpin h e) .ok 0 0
     else s)

/-! ### Clean and drop (R289) -/

/-- A clean or drop is started: the status of its start (R289; DEDUCED, log 38). It acts on the lines of the range that this half holds. -/
def State.startCacheOp (s : State) (h base len kind : Nat) (p : Option Nat) : State × Status :=
  if (s.half h).op.isSome then (s.wrF (oScStatus h) 8 8 Status.wrongState.code, .wrongState)
  else if kind != 1 && kind != 2 then (s, .badDescriptor)
  else if len = 0 || vaultEnd < rangeHi base len || !s.cachedUnits p base len then
    (s.wrF (oScStatus h) 8 8 Status.badDescriptor.code, .badDescriptor)
  else (s.putHalf h { s.half h with op := some { drop := kind == 2, base := base, len := len, both := false } }, .ok)

/-- The halves that hold lines of a range (R270, R289). -/
def rangeHalves (base len : Nat) : List Nat :=
  let t := tileOfOff (rangeLo base)
  let t' := tileOfOff (rangeHi base len - 1)
  [0, 1].filter (fun h => (List.range (t' + 1 - t)).any (fun i => halfOf ((t + i) * 0x40000000) == h))

/-- A clean or drop is started in both halves, neither of which runs one (R378). -/
def State.startBothOps (s : State) (base len kind : Nat) (p : Nat) : State × Status :=
  let (s1, st) := s.startCacheOp 0 base len kind (some p)
  let (s2, st') := s1.startCacheOp 1 base len kind (some p)
  let mark (v : State) (h : Nat) : State := v.putHalf h { v.half h with op := (v.half h).op.map (fun o => { o with both := true }) }
  if st == .ok && st' == .ok then (mark (mark s2 0) 1, .ok) else (s2, st)

/-- The dirty bytes of a line are written back, and the line stays, clean; a dead line stays as it is (R285, R289). -/
def State.cleanLine (s : State) (u : Upsets) (h k : Nat) : State :=
  let s1 := s.writeBack u h k
  match s1.lineAt k with
  | some x => if x.dead then s1 else s1.putLine k { x with dirty := 0 }
  | none => s1

/-- CACHE_OP_DONE (R289): the dirty bytes of the range are written back and its lines kept, or its lines and dead marks are
discarded. -/
def execCacheOpDone (h : Nat) (s : State) (u : Upsets := []) : Out :=
  ranCore (.cacheOpDone h u) s
    (match (s.half h).op with
     | none => s
     | some o =>
       if !o.drop && s.linesHeld (s.linesIn h o.base o.len) then s
       else
         let s1 := (s.linesIn h o.base o.len).foldl (fun v k => if o.drop then v.dropLine k else v.cleanLine u h k) s
         let s2 := (s1.putHalf h { s1.half h with op := none }).wrF (oScStatus h) 8 8 0
         if !o.both then s2.allDoneOp (.cacheOp h) .ok 0 0
         else if (match (s2.half (1 - h)).op with
           | some x => x.both
           | none => false) then s2
         else s2.allDoneOp (.cacheOp 2) .ok 0 0)

end Sys2Proof.Machine
end

