-- ==== Sys2Proof/Machine/FabRegs.lean ====
section
/-! DEFINITION. What the guarded registers of the fabric block do when their pair completes (R293 to R300, R312): regions, flips, key maps, routes and link remaps. -/

namespace Sys2Proof.Machine

/-! ### Regions (R298, R299, R312) -/

/-- The ranges of an entry, as (base, length) in units of 16 Mn. -/
def Region.ranges (r : Region) : List (Nat × Nat) := (r.base, r.len) :: if r.staged then [(r.alt, r.len)] else []

/-- A range in units of 16 Mn lies wholly within the vaults or wholly within the tile stores (R298). -/
def unitsPlaced (b len : Nat) : Bool :=
  decide (0 < len) && (decide ((b + len) * unit16 ≤ vaultEnd) || (decide (tsBase ≤ b * unit16) && decide ((b + len) * unit16 ≤ tsEnd)))

/-- Two unit ranges overlap. -/
def unitsMeet (x y : Nat × Nat) : Bool := decide (x.1 < y.1 + y.2) && decide (y.1 < x.1 + x.2)

/-- An entry obeys R298 and the form rules of R312 beside the other entries. -/
def State.regionFormOk (s : State) (e : Nat) (r : Region) : Bool :=
  r.ranges.all (fun x => unitsPlaced x.1 x.2) &&
  !(r.staged && unitsMeet (r.base, r.len) (r.alt, r.len)) &&
  !(r.shared && (r.write || r.atomic)) &&
  !(r.cached && r.ranges.any (fun x => decide (vaultEnd ≤ x.1 * unit16))) &&
  s.regions.all (fun o => o.1 == e || !(o.2.valid || o.2.torn) ||
    r.ranges.all (fun x => o.2.ranges.all (fun y => !unitsMeet x y)))

/-- What a commit of entry e meets, in the order of R312. An entry neither VALID nor TORN describes no range and has no partition
(DEDUCED, log 19). -/
def State.regionCheck (s : State) (e : Nat) (r : Region) : Status :=
  let old := s.region e
  let onlyClears := old.valid && !r.valid && r == { old with valid := false, origin := r.origin, torn := r.torn }
  let runs := s.partState r.part == 3 || ((old.valid || old.torn) && s.partState old.part == 3)
  if e = 4095 then .notAuthorized
  else if (r.valid || r.torn) && !s.regionFormOk e r then .badDescriptor
  else if runs && !onlyClears then .wrongState
  else .ok

/-- The result of the last commit or flip (R312). -/
def State.rgnResult (s : State) (st : Status) : State := s.wrF oRgnSel 12 8 st.code

/-- A commit of entry e: refused, or in force in every copy. -/
def State.commitRegion (s : State) (e : Nat) (r : Region) : State × Status :=
  match s.regionCheck e r with
  | .ok => ((s.putRegion e r).rgnResult .ok, .ok)
  | st => (s.rgnResult st, st)

/-- The entry that `RGN_DATA0` to `RGN_DATA3` describe. TORN is read-only and stays with an entry that is not made VALID; SHARED_ORIGIN
stays with an entry that stays VALID (DEDUCED, log 19). -/
def State.regionOf (s : State) (e : Nat) (v : Word) : Region :=
  let a := s.rd oRgnData0
  let b := s.rd oRgnData1
  let c := s.rd oRgnData2
  let old := s.region e
  { base := fld a 0 20, len := fld b 0 20, part := fld a 20 4, valid := flag a 24, read := flag a 25, write := flag a 26,
    atomic := flag a 27, shared := flag a 28, weight := flag a 29, cached := flag a 30, staged := flag a 31,
    replica := fld b 20 12, key := fld c 0 16, job := fld c 16 16, alt := fld v 0 20, live := flag v 20, torn := old.torn && !flag a 24,
    origin := old.valid && old.origin && flag a 24 }

/-- The pair of `RGN_DATA3` completes. -/
def State.rgnPair (s : State) (v : Word) : State :=
  let e := s.rdF oRgnSel 0 12
  match s.commitRegion e (s.regionOf e v) with
  | (t, .ok) => t.wr oRgnData3 (v &&& 0x1FFFFF#32)
  | (t, _) => t

/-- The pair of `RGN_FLIP` completes (R312). -/
def State.flipPair (s : State) (v : Word) : State :=
  let e := fld v 0 12
  let r := s.region e
  if e = 4095 then s.rgnResult .notAuthorized
  else if !r.valid || !r.staged then s.rgnResult .badDescriptor
  else ((s.putRegion e { r with live := flag v 12 }).wr oRgnFlip (v &&& 0x1FFF#32)).rgnResult .ok

/-- The pair of `KMAP_DATA2` completes (R300, R312). -/
def State.kmapPair (s : State) (v : Word) : State :=
  let a := s.rd oKmapData0
  let k : KeyEntry := { base := fld a 0 20, module := fld a 20 10, anymod := flag a 30, valid := flag a 31,
                        len := s.rdF oKmapData1 0 20, key := fld v 0 16 }
  (s.putKmap (s.rdF oKmapSel 4 4) (s.rdF oKmapSel 0 4) k).wr oKmapData2 (v &&& 0xFFFF#32)

/-- The pair of `ROUTE_DATA` completes (R293, R312). -/
def State.routePair (s : State) (v : Word) : State :=
  { s with routes := tset route0 s.routes (s.rdF oRouteSel 0 10) { group := fld v 0 3, valid := flag v 3 } }

/-- The flit was sent for a logical link of its group. -/
def Flit.isVia (f : Flit) (k : Nat) : Bool := f.via == k
def Sent.isVia (x : Sent) (k : Nat) : Bool := match x.flit with
  | some f => f.isVia k
  | none => false

/-- The flit is the second of a pair (R319). -/
def Flit.isSecond (f : Flit) : Bool := match f.body with
  | .req b => b.second
  | _ => false

/-- The flits of logical link k that wait at physical link m, or that its far end has not accepted, move to link m' in their order, ahead
of every flit that waits there but for the second of a pair whose first has left (R297, R319; DEDUCED, log 22). -/
def State.moveFlits (s : State) (k m m' : Nat) : State :=
  let a := s.link m
  let b := s.link m'
  let moved := (a.replay.filterMap (·.flit)).filter (·.isVia k) ++ a.waiting.filter (·.isVia k)
  (s.putLink m { a with waiting := a.waiting.filter (fun f => !f.isVia k), replay := a.replay.filter (fun x => !x.isVia k) }).putLink m'
    { b with waiting := b.waiting.takeWhile Flit.isSecond ++ moved ++ b.waiting.dropWhile Flit.isSecond }

/-- The pair of `LINK_REMAP_g` completes: flits that wait for a DOWN link move to the link that their own logical index is mapped to now
(R295, R297). -/
def State.remapPair (s : State) (g : Nat) (v : Word) : State :=
  let old := s.rd (oLinkRemap g)
  let s1 := s.wrF (oLinkRemap g) 0 24 (fld v 0 24)
  (List.range 8).foldl (fun w k =>
    let m := 8 * g + fld old (3 * k) 3
    let m' := 8 * g + fld v (3 * k) 3
    if m = m' || w.linkState m != 4 then w else w.moveFlits k m m') s1

end Sys2Proof.Machine
end

