-- ==== Sys2Proof/Machine/Kernels.lean ====
section
/-! DEFINITION. Live kernels: how one ends, how it is aborted (R94, R96, R135, R171), and how a partition's work is torn down (orders 3 to 6 of R310, R384). -/

namespace Sys2Proof.Machine

/-- The number of kernel `kid` of partition p in the state. -/
def kernelKey (p kid : Nat) : Nat := p * 65536 + kid

/-- The group slots, as tile × 16 + slot, that a kernel still holds. -/
def State.heldSlots (s : State) (key : Nat) (k : Kernel) : List Nat :=
  k.slots.filter (fun x => let g := s.group (x / 16) (x % 16); g.live && g.kernel == key)

/-- The groups of a kernel stop issuing (R135, R310 order 3). -/
def State.stopGroups (s : State) (xs : List Nat) : State :=
  xs.foldl (fun v x =>
    let u := v.dropGroup (x / 16) (x % 16)
    u.putGroup (x / 16) (x % 16) (u.group (x / 16) (x % 16)).stopped) s

/-- The gates that hold a request of one of the slots issue at once (R171). -/
def State.flushKernel (s : State) (xs : List Nat) : State :=
  ((xs.map (· / 16)).foldl sadd []).foldl (fun v t =>
    v.flushSlots t ((xs.filter (fun x => x / 16 == t)).map (· % 16))) s

/-- KERNEL_ABORT reaches a kernel (R135, R171). -/
def State.abortKernel (s : State) (key : Nat) : State :=
  match tfind s.kernels key with
  | some k =>
    let xs := s.heldSlots key k
    let s1 := (s.stopGroups xs).flushKernel xs
    { s1 with kernels := tput s1.kernels key { k with aborted := true } }
  | none => s

/-- A kernel ends: the slots it still holds are free, and its launch and any abort of it complete (R378). -/
def State.endKernel (s : State) (key : Nat) (k : Kernel) (st : Status) : State :=
  let s1 := (s.heldSlots key k).foldl (fun v x => (v.purgeGroup (x / 16) (x % 16)).putGroup (x / 16) (x % 16) groupFree) s
  let s2 := { s1 with kernels := tdel s1.kernels key }
  (s2.ringDoneOp k.ring (.launch key) st 0 (b2n k.aborted)).ringDoneOp k.ring (.abort key) .ok 0 0

/-- KERNEL_COMPLETE (R96, R378): every slot of the kernel is free, or freed now because the kernel was aborted and its
operations have completed. -/
def execKernelComplete (key : Nat) (s : State) : Out :=
  ranCore (.kernelComplete key) s
    (match tfind s.kernels key with
     | some k =>
       if (s.heldSlots key k).all (fun x => k.aborted && s.slotQuiet (x / 16) (x % 16)) then s.endKernel key k k.fault else s
     | none => s)

/-! ### Teardown of a partition's work (R310, R384) -/

/-- The access was issued by a group of partition p. -/
def State.originOf (s : State) (p : Nat) (o : Origin) : Bool :=
  match o with
  | .lane t _ _ _ _ _ _ => s.partOfField (t / 192) == some p
  | .lanes t _ _ _ _ => s.partOfField (t / 192) == some p
  | .post t _ _ => s.partOfField (t / 192) == some p
  | _ => false

/-- A channel's transfer completes with JOB_TORN, and its tags are retired (R311, R362). -/
def State.tearDma (s : State) (k : Nat) : State :=
  let mine (o : Origin) : Bool := match o with
    | .dma c _ _ _ _ => c == k
    | _ => false
  let s1 := { s with ops := s.ops.filter (fun o => !mine o.origin),
                     host := { s.host with reads := s.host.reads.filter (fun r => r.2.1 != k) } }
  s1.dmaFinish k .jobTorn

/-- Every descriptor of a tile stops: those not started complete with JOB_TORN, a started one stops at its chunk boundary
(R160, R310). -/
def State.tearMatrix (s : State) (t : Nat) : State :=
  let x := (List.range 4).foldl (fun (y : Mx) g => y.issueGate g) (s.mxu t)
  let s1 := s.putMx t { x with issue := [], jobs := [] }
  let s2 := x.issue.foldl (fun (v : State) i =>
    match i with
    | .mxd n tok _ => v.tokenDone t n tok false .jobTorn
    | .flush _ _ => v) s1
  let s3 := x.jobs.foldl (fun (v : State) j =>
    j.reqs.foldl (fun (v : State) r =>
      (if j.started then v.tornReq t r else v).tokenDone t r.slot r.token r.tie .jobTorn) v) s2
  s3.tock

/-- A flit on the module's network carries or answers an access of a group of partition p, or a body of one of its reduction channels. -/
def State.cargoOf (s : State) (p : Nat) (x : Packet) : Bool :=
  match x.cargo with
  | .ring q _ _ => q == p
  | c => match c.origin with
    | some o => s.originOf p o
    | none => false

/-- The origins of the accesses of partition p that have not completed: at a home, at a slice, on the network, at another module, or
discarded by entry into STRIKE (R55, R310). -/
def State.lostOrigins (s : State) (p : Nat) : List Origin :=
  (s.outstanding ++ s.discarded).filter (s.originOf p)

/-- The accesses of partition p complete with JOB_TORN. A store or atomic that has passed its home check is still applied
(R311). -/
def State.tearAccesses (s : State) (p : Nat) : State :=
  let mine (a : Access) : Bool := s.originOf p a.origin
  let s1 := { s with
    homeQ := s.homeQ.filter (fun a => !mine a),
    cacheQ := (s.cacheQ.filter (fun a => !(mine a && a.kind.isLoad))).map (fun a =>
      if mine a then { a with origin := .runtime } else a),
    transit := s.transit.filter (fun x => !s.cargoOf p x),
    ops := s.ops.filter (fun o => !s.originOf p o.origin),
    discarded := s.discarded.filter (fun o => !s.originOf p o) }
  (s.lostOrigins p).foldl (fun v o => v.finishThread o (Reply.only .jobTorn)) s1

/-- Orders 3, 5 and 6 of R310 in one partition: issue stops, channels, descriptors and accesses complete with JOB_TORN, and
its kernels end (DEDUCED, log 83). -/
def State.tearPart (s : State) (p : Nat) : State :=
  let ks := s.kernels.filter (fun e => e.2.part == p)
  let s1 := ks.foldl (fun v e => v.stopGroups (v.heldSlots e.1 e.2)) s
  let s2 := ((s1.dma.filter (fun e => e.2.part == some p)).map (·.1)).foldl (fun v k => v.tearDma k) s1
  let s3 := ((s2.mx.map (·.1)).filter (fun t => s.partOfField (t / 192) == some p)).foldl (fun v t => v.tearMatrix t) s2
  let s4 := s3.tearAccesses p
  ks.foldl (fun v e => v.endKernel e.1 e.2 .jobTorn) s4

end Sys2Proof.Machine
end

