-- ==== Sys2Proof/Machine/Reduce.lean ====
section
/-! DEFINITION. Reduction channels (R330 to R343): descriptors, buckets, contributions, the link adders, results, and the exact norm path with the clip factor (R339 to R341, R222). -/

namespace Sys2Proof

/-- The blocks of a body with their numbers. -/
def ReduceBody.numbered (b : ReduceBody) : List (Nat × WireBlock) :=
  (List.zip (List.range b.blocks.length) b.blocks).map (fun x => (b.first + 8 * x.1, x.2))

/-- The threshold of a total index (R220). -/
def Clip.tauOf (c : Clip) (t : Nat) : Option Word :=
  (c.tau.find? (fun e => e.1 == (if c.mode = 1 then 0 else t))).map (·.2)

end Sys2Proof

namespace Sys2Proof.Machine

/-! ### Descriptors and channels (R330) -/

/-- A channel descriptor as numbers. -/
structure ChanDesc where
  chan : Nat
  early : Bool
  norm : Bool
  bucket : Nat
  ring : Nat
  pos : Nat
  outGroup : Nat
  inGroup : Nat
  scale0 : Nat
  track : Bool
  trim : Nat
  sr : Bool
  cell : Nat
  tile : Nat
  grad : Nat
  resid : Nat
  out : Nat
  len : Nat
  deriving DecidableEq, Repr

/-- The descriptor that 256 bits hold: `bucket` in blocks, `ring` the number of modules P. -/
def chanDesc (x : BitVec 256) : ChanDesc :=
  let b (lo w : Nat) : Nat := bits x.toNat lo w
  { chan := b 0 5, early := b 5 1 == 1, norm := b 6 1 == 1, bucket := (b 7 4 + 1) * 16384, ring := b 11 6 + 1, pos := b 17 6,
    outGroup := b 23 3, inGroup := b 26 3, scale0 := b 29 8, track := b 37 1 == 1, trim := b 38 3, sr := b 41 1 == 1,
    cell := b 42 6, tile := b 48 14, grad := b 64 44, resid := b 108 44, out := b 152 44, len := b 196 30 }

/-- A channel that no schedule describes. -/
def chan0 : Chan :=
  { desc := 0, present := false, started := 0, finished := 0, posts := 0, done := [], rerun := [], maxExp := 0,
    poisoned := false, complete := false, held := [], stalled := false, rnd := [], norms := [], totals := [], final := [] }

/-- Channel c of partition p. -/
def State.chan (s : State) (p c : Nat) : Chan := tget chan0 s.chans (p * 32 + c)

/-- A channel written. -/
def State.putChan (s : State) (p c : Nat) (x : Chan) : State := { s with chans := tset chan0 s.chans (p * 32 + c) x }

/-- The registers of a channel (R345). -/
def oRch (p c : Nat) : Nat := oRchStatus (p * 32 + c)
def oRchN (p c : Nat) : Nat := oRchCount (p * 32 + c)

/-- The channels that the schedule of partition p describes. -/
def State.chansOf (s : State) (p : Nat) : List Nat := (List.range 32).filter (fun c => (s.chan p c).present)

/-- Channels at the start of a step: nothing started, BUCKETS and RERUN_BLOCKS zero (R345). What other modules have sent for the step is
kept. -/
def State.resetChans (s : State) (p : Nat) : State :=
  (s.chansOf p).foldl (fun v c =>
    ((v.putChan p c { chan0 with desc := (v.chan p c).desc, present := true, held := (v.chan p c).held }).wrF (oRch p c) 0 3 0).wr
      (oRchN p c) 0) s

/-! ### Buckets and shards (R331, R332) -/

/-- The number of buckets. -/
def ChanDesc.buckets (d : ChanDesc) : Nat := cdiv d.len d.bucket

/-- First block of bucket u, and its number of blocks. -/
def ChanDesc.firstOf (d : ChanDesc) (u : Nat) : Nat := u * d.bucket
def ChanDesc.sizeOf (d : ChanDesc) (u : Nat) : Nat := Nat.min d.bucket (d.len - u * d.bucket)

/-- Blocks of a full shard of bucket u, and the shard of block b. -/
def ChanDesc.shardLen (d : ChanDesc) (u : Nat) : Nat := cdiv (d.sizeOf u) d.ring
def ChanDesc.shardOf (d : ChanDesc) (b : Nat) : Nat := (b % d.bucket) / d.shardLen (b / d.bucket)

/-- The blocks of shard x of bucket u, ascending. -/
def ChanDesc.shard (d : ChanDesc) (u x : Nat) : List Nat :=
  ((List.range (d.sizeOf u)).map (· + d.firstOf u)).filter (fun b => d.shardOf b == x)

/-- Flits for a list of blocks: the blocks of one logical link in runs b, b + 8, …, at most 7 (R332, R333). -/
def runsFrom : Nat → List Nat → List (List Nat)
  | 0, _ => []
  | _, [] => []
  | n + 1, b :: r =>
    match runsFrom n r with
    | (x :: xs) :: rest => if x = b + 8 && decide (xs.length < 6) then (b :: x :: xs) :: rest else [b] :: (x :: xs) :: rest
    | l => [b] :: l
def flitRuns (bs : List Nat) : List (List Nat) :=
  (List.range 8).flatMap (fun k => let l := bs.filter (fun b => b % 8 == k); runsFrom l.length l)

/-! ### Memory as a channel sees it -/

/-- The shadow address of a name-range offset (R299). -/
def State.shadowOf (s : State) (o : Nat) : Nat :=
  match s.regionAt o with
  | some (_, r) => if r.staged && inUnits r.base r.len o then r.alt * unit16 + (o - r.base * unit16) else o
  | none => o

/-- Nibbles stored for a channel at a local offset, line by line (DEDUCED, log 64). -/
def State.chanStore (s : State) (u : Upsets) (o : Nat) (l : List Nib) (bad : Bool) : State :=
  let k := 256 - o % 256
  let s1 := (s.accessNow u (s.dmaAccess none false o (.store (l.take k)) bad)).1
  if l.length ≤ k then s1 else (s1.accessNow u (s1.dmaAccess none false (o + k) (.store (l.drop k)) bad)).1

/-- The elements of a block of 32 B16 codes at an offset: a code that reads poisoned is free (DESIGN CHOICE, log 10). -/
def State.chanLoad (s : State) (u : Upsets) (o k : Nat) : State × List (Nat × Bool) :=
  let (s1, l, _) := s.readUnits u none false 4 32 o
  (s1, (List.range 32).map (fun j =>
    let e := (l.drop (4 * j)).take 4
    if e.any (·.2) then (fld (s.free (k + j)) 0 16, true) else (ofNibs (e.map (·.1)), false)))

/-- The lines that n nibbles at an offset lie in, by one offset in each. -/
def spanLines (o n : Nat) : List Nat := (List.range ((o + n + 255) / 256 - o / 256)).map (fun i => Nat.max o ((o / 256 + i) * 256))

/-- A channel's access to n nibbles at an offset waits: the port of one of its lines is held, or that of a line that it would evict
(R253, R258, R262). -/
def State.chanWaits (s : State) (o n : Nat) : Bool :=
  (spanLines o n).any (fun a =>
    let x := s.physAt a
    if s.cachedOff a then (s.findWay (halfOf x) (x / 256)).isNone && (s.portHeld x || s.evictHeld x) else s.portHeld x)

/-- The memory of blocks of a channel waits. -/
def State.blocksWait (s : State) (d : ChanDesc) (bs : List Nat) : Bool :=
  bs.any (fun b => s.chanWaits (d.grad + 128 * b) 128 || s.chanWaits (d.resid + 128 * b) 128 ||
    s.chanWaits (s.shadowOf (d.resid + 128 * b)) 128 || s.chanWaits (d.out + 128 * b) 128)

/-- The trailer of a channel waits (R336). -/
def State.trailerWaits (s : State) (d : ChanDesc) : Bool :=
  d.track && (s.chanWaits (d.resid + 128 * d.len) 16 || s.chanWaits (s.shadowOf (d.resid + 128 * d.len)) 16)

/-- Seed and epoch of every tile under the shadow of a channel's residuals (R84; DEDUCED, log 63). -/
def State.chanRnd (s : State) (d : ChanDesc) : List (Nat × Long × Nat) :=
  let a := tileOfOff (s.shadowOf d.resid)
  (List.range (tileOfOff (s.shadowOf (d.resid + 128 * (d.len - 1))) - a + 1)).map (fun i => (a + i, s.seed (a + i), s.epoch (a + i)))

/-! ### Contributions (R334, R337) -/

/-- The block slot that no module has added to. -/
def block0 : WireBlock := { maxExp := 0, ovf := false, nonfin := false, poison := false, sel := false, elems := List.replicate 32 0 }

/-- MAXEXP of a block of finite values (R334). -/
def blockExp (vs : List Val) : Nat :=
  vs.foldl (fun m v =>
    match v with
    | .fin _ x => if x.m = 0 then m else Nat.max m (Int.toNat (min 254 (max 0 (ceilLog x ⟨1, 0⟩ + 127))))
    | _ => m) 0

/-- q of one element, saturated, and whether it saturated (R334). -/
def quantize (scale : Nat) (rm : Rnd) (v : Val) : Int × Bool :=
  match v with
  | .fin _ x =>
    let y := dyScale x (127 - (scale : Int))
    let n := roundGrid y.m.natAbs y.e 0 rm
    let m : Int := Nat.min n 127
    (if y.m < 0 then -m else m, decide (127 < n))
  | _ => (0, false)

/-- e′ of one element (R334, R337). -/
def carried (scale : Nat) (q : Int) (v : Val) : Nat :=
  match v with
  | .fin _ x =>
    let r := dySub x ⟨q, (scale : Int) - 127⟩
    encElem .b16 false .rne (valOf false r)
  | _ => 0

/-- The module adds its contribution to block b under a scale, and writes its carried errors (R334, R335, R337; DEDUCED, log 63). -/
def State.contribute (s : State) (u : Upsets) (rnd : List (Nat × Long × Nat)) (d : ChanDesc) (b scale : Nat) (w : WireBlock) :
    State × WireBlock :=
  let (s1, gs) := s.chanLoad u (d.grad + 128 * b) 0
  let (s2, es) := s1.chanLoad u (d.resid + 128 * b) 32
  let sh := s2.shadowOf (d.resid + 128 * b)
  let (seed, epoch) := ((rnd.find? (fun e => e.1 == tileOfOff sh)).map (·.2)).getD (0, 0)
  let vs := (List.zip gs es).map (fun x => vAdd (elemVal .b16 x.1.1) (elemVal .b16 x.2.1))
  let qs := (List.zip (List.range 32) vs).map (fun x =>
    quantize scale (if d.sr then .sr (randBits seed (randIndex epoch (sh + 4 * x.1))) else .rne) x.2)
  let bad := (gs ++ es).any (·.2)
  let sums := List.zipWith (fun (a : Int) (q : Int × Bool) => a + q.1) w.elems qs
  let w1 : WireBlock :=
    { maxExp := Nat.max w.maxExp (blockExp vs),
      ovf := w.ovf || qs.any (·.2) || sums.any (fun x => decide (x < -127) || decide (127 < x)),
      nonfin := w.nonfin || vs.any Val.special, poison := w.poison || bad, sel := w.sel,
      elems := sums.map (fun x => max (-127) (min 127 x)) }
  let e' := (List.zip qs vs).flatMap (fun x => nibsOf (carried scale x.1.1 x.2) 4)
  ((s2.chanStore u sh e' bad).tock, w1)

/-- The adder of a physical link has handled one block (R346). -/
def State.countAdd (s : State) (k : Nat) (ovf : Bool) : State :=
  let l := s.link k
  let s1 := s.putLink k { l with added := l.added + 1 }
  let s2 := if (l.added + 1) % 65536 = 0 then s1.bumpWrap (oLinkAdd k) 16 16 1 else s1
  if ovf then s2.bump (oLinkAdd k) 0 16 1 else s2

/-- The physical link of logical link j of group g (R294). -/
def State.groupLink (s : State) (g j : Nat) : Nat := 8 * g + s.rdF (oLinkRemap g) (3 * j) 3

/-- A body sent to the next module of a ring, on the logical link of a block (R332). -/
def State.sendRing (s : State) (p g j : Nat) (body : Body) : State :=
  s.enqueue (s.groupLink g (j % 8))
    { module := s.moduleId, part := p, runtime := false, poison := false, via := j % 8, body := body }

/-! ### Results (R335 to R338, R342) -/

/-- c_P = ⌈log₂ P⌉. -/
def ceilLog2 (n : Nat) : Nat := if n ≤ 1 then 0 else Nat.log2 (n - 1) + 1

/-- A scale code from an exponent code M (R336, R338). -/
def scaleFrom (m ring trim : Nat) : Nat := Int.toNat (min 254 (max 0 ((m : Int) + ceilLog2 ring - 6 - trim)))

/-- A block's result written to OUT (R335, R337; DEDUCED, log 62). -/
def State.writeOut (s : State) (u : Upsets) (d : ChanDesc) (b scale : Nat) (w : WireBlock) : State :=
  let cs := if w.nonfin then List.replicate 32 0x7FC0
    else w.elems.map (fun x => encElem .b16 false .rne (valOf false ⟨x, (scale : Int) - 127⟩))
  let s1 := s.chanStore u (d.out + 128 * b) (cs.flatMap (fun c => nibsOf c 4)) w.poison
  if w.poison then
    let sh := s1.shadowOf (d.resid + 128 * b)
    let (s2, l, _) := s1.readUnits u none false 4 32 sh
    s2.chanStore u sh (l.map (·.1)) true
  else s1

/-- The status that a channel completes with (R342). -/
def Chan.result (x : Chan) : Status := if x.poisoned then .poisoned else if x.rerun.isEmpty then .ok else .scaleRerun

/-- A channel completes: the trailer under TRACK, the status, and the runtime's entry on the partition's completion ring,
whose values the spec does not give (R336, R342, DESIGN CHOICE, log 10). -/
def State.chanComplete (s : State) (u : Upsets) (p c : Nat) (st : Status) : State :=
  let x := s.chan p c
  let d := chanDesc x.desc
  let s1 := if d.track && !d.norm && st != Status.jobTorn then
    s.chanStore u (s.shadowOf (d.resid + 128 * d.len)) (nibsOf (x.maxExp + 2 ^ 63) 16) false else s
  let s2 := (s1.putChan p c { x with complete := true }).wrF (oRch p c) 0 11 (5 + st.code * 8)
  (s2.sendEvent p st.code (s2.free 0).toNat (s2.free 1).toNat).tock

/-- A channel whose last bucket is finished completes, unless its trailer waits (R342, R253). -/
def State.chanEnd (s : State) (u : Upsets) (p c : Nat) : State :=
  let x := s.chan p c
  let d := chanDesc x.desc
  if d.norm || x.complete || x.finished < d.buckets || s.trailerWaits d then s else s.chanComplete u p c x.result

/-- Blocks have reached OUT: a bucket with all its blocks there is finished, and the channel with its last bucket
(R331, R342). -/
def State.blocksDone (s : State) (u : Upsets) (p c : Nat) (bs : List Nat) : State :=
  let x := s.chan p c
  let d := chanDesc x.desc
  let y := { x with done := x.done ++ bs.filter (fun b => !x.done.contains b) }
  if x.finished < x.started && d.sizeOf x.finished ≤ y.done.length then
    ((s.putChan p c { y with done := [], finished := y.finished + 1 }).bump (oRchN p c) 0 16 1).chanEnd u p c
  else s.putChan p c y

/-- Final blocks of a flit: MAXEXP and POISON are noted, OUT is written (R336, R337). -/
def State.finalBlocks (s : State) (u : Upsets) (p c scale : Nat) (l : List (Nat × WireBlock)) : State :=
  let x := s.chan p c
  let d := chanDesc x.desc
  let s1 := l.foldl (fun v e => v.writeOut u d e.1 scale e.2) s
  let y := { x with maxExp := l.foldl (fun m e => Nat.max m e.2.maxExp) x.maxExp, poisoned := x.poisoned || l.any (·.2.poison) }
  ((s1.putChan p c y).wrF (oRch p c) 0 3 3).blocksDone u p c (l.map (·.1))

/-- Flits of one pass for blocks listed with their numbers. -/
def passFlits (c : Nat) (pass : Pass) (scale : Nat) (l : List (Nat × WireBlock)) : List ReduceBody :=
  (flitRuns (l.map (·.1))).map (fun run =>
    { chan := c, pass := pass, scale := scale, first := nth 0 run 0,
      blocks := run.map (fun b => ((l.find? (fun e => e.1 == b)).map (·.2)).getD block0) })

/-- Bodies sent on toward position + 1. -/
def State.sendAll (s : State) (p g : Nat) (bs : List ReduceBody) : State :=
  bs.foldl (fun v b => v.sendRing p g b.first (.reduce b)) s

/-- The owner completes blocks of a pass: flagged blocks of a first scatter are rerun, the others are written and gathered
(R332, R338). -/
def State.ownBlocks (s : State) (u : Upsets) (p c : Nat) (b : ReduceBody) (l : List (Nat × WireBlock)) : State :=
  let x := s.chan p c
  let d := chanDesc x.desc
  let flagged := if b.pass = .scatter then l.filter (·.2.ovf) else []
  let good := l.filter (fun e => !flagged.any (fun o => o.1 == e.1))
  let s1 := (s.finalBlocks u p c b.scale good).sendAll p d.outGroup (passFlits c .gather b.scale good)
  if flagged.isEmpty then s1
  else
    let m := flagged.foldl (fun m e => Nat.max m e.2.maxExp) 0
    let scale := scaleFrom m d.ring 0
    let req : ReduceBody := { b with pass := .rerunRequest, scale := scale,
                                     blocks := l.map (fun e => { block0 with sel := flagged.any (fun o => o.1 == e.1) }) }
    let y := s1.chan p c
    let s2 := s1.putChan p c { y with rerun := y.rerun ++ flagged.map (·.1) }
    (((s2.bump (oRchN p c) 16 16 flagged.length).wrF (oRch p c) 0 3 4).wrF (oRch p c) 11 8 scale).sendRing p d.outGroup b.first
      (.reduce req)

/-- The adder of link k handles one block of a flit (R332, R335, R338): in a rerun only a selected one. -/
def State.addBlock (u : Upsets) (rnd : List (Nat × Long × Nat)) (d : ChanDesc) (b : ReduceBody) (k : Nat) (acc : State × List (Nat × WireBlock)) (e : Nat × WireBlock) :
    State × List (Nat × WireBlock) :=
  if (b.pass = .rerunScatter || b.pass = .rerunRequest) && !e.2.sel then (acc.1, acc.2 ++ [e])
  else
    let r := acc.1.contribute u rnd d e.1 b.scale (if b.pass = .rerunRequest then { block0 with sel := true } else e.2)
    (r.1.countAdd k (r.2.ovf && !e.2.ovf), acc.2 ++ [(e.1, r.2)])

/-- The adder handles the blocks of a scatter flit (R332, R335, R338): in a rerun only the selected ones. -/
def State.addFlit (s : State) (u : Upsets) (p c : Nat) (b : ReduceBody) : State :=
  let x := s.chan p c
  let d := chanDesc x.desc
  let rerun := b.pass = .rerunScatter || b.pass = .rerunRequest
  let k := s.groupLink d.outGroup (b.first % 8)
  let q := b.numbered.foldl (State.addBlock u x.rnd d b k) (s, [])
  let s1 := q.1
  let out := q.2
  let sel := if rerun then out.filter (·.2.sel) else out
  let s2 := if rerun then
    let y := s1.chan p c
    let fresh := (sel.map (·.1)).filter (fun n => !y.rerun.contains n)
    ((s1.putChan p c { y with rerun := y.rerun ++ fresh }).bump (oRchN p c) 16 16 fresh.length).wrF (oRch p c) 0 3 4
    else s1
  if d.shardOf b.first = d.pos then s2.ownBlocks u p c { b with pass := if rerun then .rerunScatter else .scatter } sel
  else s2.sendRing p d.outGroup b.first
    (.reduce { b with pass := if rerun then .rerunScatter else .scatter, blocks := out.map (·.2) })

/-- A body kept until the module's own part of it can be done (R342). -/
def State.holdBody (s : State) (p c : Nat) (b : Body) : State :=
  s.putChan p c { s.chan p c with held := (s.chan p c).held ++ [b] }

/-- A REDUCE body arrives at a channel (R332, R338, R342): it waits until its bucket has started here, and while the memory of its
blocks waits. -/
def State.reduceAt (s : State) (u : Upsets) (p c : Nat) (b : ReduceBody) : State :=
  let x := s.chan p c
  let d := chanDesc x.desc
  if !x.present || d.norm then s
  else if x.complete || x.started ≤ b.first / d.bucket || s.blocksWait d (b.numbered.map (·.1)) then s.holdBody p c (.reduce b)
  else if b.pass = .gather then
    let s1 := s.finalBlocks u p c b.scale b.numbered
    if d.shardOf b.first = (d.pos + 1) % d.ring then s1 else s1.sendRing p d.outGroup b.first (.reduce b)
  else s.addFlit u p c b

/-- What a channel holds is taken up again, oldest first (R342). -/
def State.retryReduce (s : State) (u : Upsets) (p c : Nat) : State :=
  let x := s.chan p c
  x.held.foldl (fun v b =>
    match b with
    | .reduce r => v.reduceAt u p c r
    | _ => v) (s.putChan p c { x with held := [], stalled := false })

/-! ### Starting a bucket (R216, R331, R336) -/

/-- The gradient of a tied tensor lies in the channel's array, and its tie-sum has not run (R216). -/
def State.tieHolds (s : State) (p : Nat) (d : ChanDesc) : Bool :=
  !(s.part p).step.tieDone && (s.part p).ties.any (fun x =>
    let a := storeBase x.tile + x.grad
    decide (a < d.grad + 128 * d.len) && decide (d.grad < a + 4 * x.elems))

/-- The trailer of a channel (R336): M and whether it is valid (DEDUCED, log 61). -/
def State.trailer (s : State) (u : Upsets) (d : ChanDesc) : State × Nat × Bool :=
  let (s1, l, _) := s.readUnits u none false 16 1 (d.resid + 128 * d.len)
  let v := ofNibs (l.map (·.1))
  (s1, v % 256, v.testBit 63 && l.all (fun e => !e.2))

/-- Bucket u of a channel starts: the scatter of the shard before this module's position (R332, R336). -/
def State.startBucket (s : State) (us : Upsets) (p c : Nat) : State :=
  let x := s.chan p c
  let d := chanDesc x.desc
  let u := x.started
  let rnd := if u = 0 then s.chanRnd d else x.rnd
  let (s1, m, ok) := if d.track then s.trailer us d else (s, 0, false)
  let scale := if d.track && ok then scaleFrom m d.ring d.trim else d.scale0
  let s2 := if d.track then ((s1.wrF (oRch p c) 19 8 m).wrF (oRch p c) 27 1 (b2n ok)) else s1
  let s3 := ((s2.putChan p c { s2.chan p c with started := u + 1, rnd := rnd }).wrF (oRch p c) 0 3 2).wrF (oRch p c) 11 8 scale
  let mine := d.shard u ((d.pos + d.ring - 1) % d.ring)
  ((passFlits c .scatter scale (mine.map (fun b => (b, block0)))).foldl (fun v b => v.reduceAt us p c b) s3).retryReduce us p c

/-- BUCKET_START (R331): an ordinary channel in REDUCE; an early channel that has taken a post for the bucket. -/
def State.bucketStart (s : State) (u : Upsets) (p c : Nat) : State :=
  let x := s.chan p c
  let d := chanDesc x.desc
  let ph := s.phase p
  if !x.present || d.norm || x.complete || x.started != x.finished || d.buckets ≤ x.started || s.trailerWaits d then s
  else if !d.early then (if ph = phReduce then s.startBucket u p c else s)
  else if ph != phBwd && ph != phReduce then s
  else
    let takes := decide (x.posts ≤ x.started) && decide (1 ≤ (s.cell d.tile d.cell).toNat)
    let s1 := if takes then (s.putCell d.tile d.cell (s.cell d.tile d.cell - 1)).putChan p c { x with posts := x.posts + 1 } else s
    if (s1.chan p c).posts ≤ x.started || s1.tieHolds p d then s1 else s1.startBucket u p c

/-- BUCKET_START. -/
def execBucketStart (p c : Nat) (s : State) (u : Upsets := []) : Out := ranCore (.bucketStart p c u) s (s.bucketStart u p c)

/-! ### The exact norm path (R339 to R341) -/

/-- An exact finite value in units of 2^-149. -/
def units149 (x : Dy) : Int := if 0 ≤ x.e + 149 then x.m * 2 ^ (x.e + 149).toNat else x.m / 2 ^ (-(x.e + 149)).toNat

/-- The norm table of a channel as it reads: offset and total index of each entry (R339). In global-norm mode every contribution is
summed into one total, index 0 (R221; DEDUCED, log 138). An entry that reads poisoned is free (DESIGN CHOICE, log 10). -/
def State.normTable (s : State) (u : Upsets) (p : Nat) (d : ChanDesc) : State × List (Nat × Nat) :=
  (List.range d.len).foldl (fun acc i =>
    let (v, l, _) := acc.1.readUnits u none false 16 1 (d.grad + 16 * i)
    let x := if l.any (·.2) then (v.free 1).toNat * 2 ^ 32 + (v.free 0).toNat else ofNibs (l.map (·.1))
    (if l.any (·.2) then v.tock else v,
     acc.2 ++ [(x % 2 ^ 44, if (s.part p).clip.mode = 1 then 0 else x / 2 ^ 44 % 2 ^ 20)])) (s, [])

/-- The number of totals: one more than the largest total index (R222). -/
def normCount (l : List (Nat × Nat)) : Nat := l.foldl (fun m e => Nat.max m (e.2 + 1)) 0

/-- The module's own totals (R339). -/
def State.ownTotals (s : State) (u : Upsets) (l : List (Nat × Nat)) : State × Tab (Int × Bool) × Bool :=
  l.foldl (fun acc e =>
    let (v, tab, bad) := acc
    let (v1, l, _) := v.readUnits u none false 16 1 e.1
    let (sum, nf) := tget (0, false) tab e.2
    let dead := l.any (·.2)
    match elemVal .p32 (ofNibs (l.map (·.1))) with
    | .fin _ x => (v1, tput tab e.2 (if dead then sum else sum + units149 x, nf || dead), bad || dead)
    | _ => (v1, tput tab e.2 (sum, true), bad || dead)) (s, [], false)

/-- κ of a total under a threshold (R222; DEDUCED, log 60). -/
def kappaOf (tau : Option Word) (total : Val) : Word :=
  match tau with
  | none => 0x3F800000#32
  | some t =>
    match total with
    | .fin _ x =>
      let q := sqrt32 x
      if !dyLt (f32Dy t) (f32Dy q) then 0x3F800000#32 else div32 (f32Dy t) (f32Dy q)
    | .inf _ => 0
    | .nan => 0x7FC00000#32

/-- The P32 code of an exact total (R340). -/
def totalOf (sum : Int) (nf : Bool) : BitVec 64 :=
  if nf then 0x7FC00000#32 ++ 0#32
  else
    let (hi, lo) := toP32 false (valOf false ⟨sum, -149⟩)
    hi ++ lo

/-- The value of a P32 code. -/
def p32Of (v : BitVec 64) : Val := elemVal .p32 v.toNat

/-- The clip words of a partition wait. -/
def State.clipWaits (s : State) (p n : Nat) : Bool :=
  match (s.part p).table with
  | some t => s.chanWaits t.clipWord (8 * n)
  | none => false

/-- Every total has arrived in CLIP: the channel completes, the runtime writes the factors, and UPDATE begins (R197, R222,
R223, R341). -/
def State.normSettle (s : State) (u : Upsets) (p c : Nat) : State :=
  let x := s.chan p c
  let n := normCount x.norms
  if s.phase p != phClip || x.started = 0 || x.complete || !(List.range n).all (fun t => (tfind x.final t).isSome) ||
      s.clipWaits p n then s
  else
    let skip := x.final.any (fun e => (p32Of e.2.1).special)
    let k (t : Nat) : Word := ((tfind x.final t).map (·.2)).getD 0x3F800000#32
    let word := match (s.part p).table with
      | some tb => tb.clipWord
      | none => 0
    let has := (s.part p).table.isSome
    let s1 := s.chanComplete u p c (if x.poisoned then .poisoned else .ok)
    let s2 := if (s.part p).clip.mode = 1 then
        ((if has then s1.chanStore u word (nibsOf (k 0).toNat 8) false else s1).wr (oStepClip p) (k 0))
      else ((List.range n).foldl (fun v t => if has then v.chanStore u (word + 8 * t) (nibsOf (k t).toNat 8) false else v) s1).wr
        (oStepClip p) 0x3F800000#32
    let s3 := s2.putPart p { s2.part p with step := { (s2.part p).step with skip := skip } }
    (s3.wrF (oStepPhase p) 5 1 (b2n skip)).setPhase p phUpdate

/-- A total and its factor are written on this module (R341). -/
def State.writeTotal (s : State) (u : Upsets) (p c t : Nat) (v : BitVec 64) (k : Word) : State :=
  let x := s.chan p c
  let d := chanDesc x.desc
  let s1 := (s.chanStore u (d.out + 32 * t) (nibsOf v.toNat 16) false).chanStore u (d.out + 32 * t + 16) (nibsOf k.toNat 8) false
  (s1.putChan p c { s1.chan p c with final := tput x.final t (v, k) }).wrF (oRch p c) 0 3 3

/-- One sum of a NORM body at this module (R339, R340). -/
def State.normSum (s : State) (u : Upsets) (p c t : Nat) (sum : Int) (nf : Bool) : State :=
  let x := s.chan p c
  let d := chanDesc x.desc
  let (own, onf) := tget (0, false) x.totals t
  let z := sum + own
  let f := nf || onf
  if t % d.ring = d.pos then
    let v := totalOf z f
    let k := kappaOf ((s.part p).clip.tauOf t) (p32Of v)
    (s.writeTotal u p c t v k).sendRing p d.outGroup t (.normResult { first := t, entries := [(v, k)] })
  else s.sendRing p d.outGroup t (.norm { first := t, sums := [(z, f)] })

/-- The result table of a norm channel waits. -/
def State.totalsWait (s : State) (x : Chan) : Bool := s.chanWaits (chanDesc x.desc).out (32 * normCount x.norms)

/-- A NORM body arrives: its sums wait until this module has formed its own totals (R339). -/
def State.normAt (s : State) (u : Upsets) (p c : Nat) (b : NormBody) : State :=
  let x := s.chan p c
  if !x.present || !(chanDesc x.desc).norm then s
  else if x.started = 0 || x.complete || s.totalsWait x then s.holdBody p c (.norm b)
  else ((List.zip (List.range b.sums.length) b.sums).foldl (fun v e => v.normSum u p c (b.first + e.1) e.2.1 e.2.2) s).normSettle u p c

/-- A NORM_RESULT body arrives: its totals are written, and go on but from the position before their owner (R341). -/
def State.normResultAt (s : State) (u : Upsets) (p c : Nat) (b : NormResultBody) : State :=
  let x := s.chan p c
  let d := chanDesc x.desc
  if !x.present || !d.norm then s
  else if x.started = 0 || x.complete || s.totalsWait x then s.holdBody p c (.normResult b)
  else
    ((List.zip (List.range b.entries.length) b.entries).foldl (fun v e =>
      let t := b.first + e.1
      let v1 := v.writeTotal u p c t e.2.1 e.2.2
      if (d.pos + 1) % d.ring = t % d.ring then v1
      else v1.sendRing p d.outGroup t (.normResult { first := t, entries := [e.2] })) s).normSettle u p c

/-- A body of a ring reaches the channel's adder (R332, R339, R341). -/
def State.ringAt (s : State) (u : Upsets) (p c : Nat) : Body → State
  | .reduce b => s.reduceAt u p c b
  | .norm b => s.normAt u p c b
  | .normResult b => s.normResultAt u p c b
  | _ => s

/-- The norm channel of a partition. -/
def State.normChan (s : State) (p : Nat) : Option Nat := (s.chansOf p).find? (fun c => (chanDesc (s.chan p c).desc).norm)

/-- The norm table of a channel, a contribution or a total waits (R253). -/
def State.normWaits (s : State) (u : Upsets) (p : Nat) (d : ChanDesc) : Bool :=
  let l := (s.normTable u p d).2
  s.chanWaits d.grad (16 * d.len) || l.any (fun e => s.chanWaits e.1 16) || s.chanWaits d.out (32 * normCount l)

/-- The norm channel starts in CLIP, once its memory does not wait: own totals are formed, and those that start here are sent (R339;
DEDUCED, log 59). -/
def State.startNorm (s : State) (u : Upsets) (p c : Nat) : State :=
  let x := s.chan p c
  let d := chanDesc x.desc
  if x.started != 0 || s.phase p != phClip || s.normWaits u p d then s else
  let (s0, l) := s.normTable u p d
  let (s1, tab, bad) := s0.ownTotals u l
  let s2 := (s1.putChan p c { s1.chan p c with totals := tab, norms := l, started := 1, poisoned := bad, held := [] }).wrF
    (oRch p c) 0 3 2
  let s3 := (List.range (normCount l)).foldl (fun v t =>
    if (t % d.ring + 1) % d.ring = d.pos then
      let (z, f) := tget (0, false) tab t
      v.sendRing p d.outGroup t (.norm { first := t, sums := [(z, f)] })
    else v) s2
  (x.held.foldl (fun v b => v.ringAt u p c b) s3).normSettle u p c

/-- What a channel waits for is tried again, after a hold, a repair or a slot move has ended at a port (R253, R258, R262). -/
def State.wakeChan (s : State) (u : Upsets) (p c : Nat) : State :=
  let x := s.chan p c
  if !x.present then s
  else if !(chanDesc x.desc).norm then (if x.started = 0 then s else (s.retryReduce u p c).chanEnd u p c)
  else if x.started = 0 then s.startNorm u p c
  else (x.held.foldl (fun v b => v.ringAt u p c b) (s.putChan p c { x with held := [] })).normSettle u p c
def State.wakeChans (s : State) (u : Upsets) : State :=
  (List.range 16).foldl (fun v p => (v.chansOf p).foldl (fun w c => w.wakeChan u p c) v) s

/-! ### Stall events (R56, R342) -/

/-- The adder of a channel has waited longer than `CHK_STALL.LIMIT` for its local contribution: its link reports it once, and a repeat is
counted (R56, R342). -/
def State.adderStall (s : State) (p c : Nat) : State :=
  let x := s.chan p c
  match x.held with
  | [] => s
  | b :: _ =>
    let first := match b with
      | .reduce r => r.first
      | .norm r => r.first
      | .normResult r => r.first
      | _ => 0
    let src : Src := { kind := 2, index := s.groupLink (chanDesc x.desc).outGroup (first % 8) }
    if x.stalled then s.repeatStall src else (s.putChan p c { x with stalled := true }).raisePart .sync .ok src p

/-- STALL_EVENT (R53, R56, R117, R342): what waits is group slot n of tile t, or the adder of channel n of partition t. The wait goes on;
a limit of 0 disables stall events. -/
def execStallEvent (t n : Nat) (s : State) (adder : Bool := false) : Out :=
  ranCore (.stallEvent t n adder) s
    (if s.rd oChkStall = 0 then s else if adder then s.adderStall t n else s.groupStall t n)

/-! ### Teardown (R342) -/

/-- Nibbles written in the place of an offset, line by line, through the slice of a cached region (R271). -/
def State.ownStore (s : State) (u : Upsets) (o : Nat) (l : List Nib) (bad : Bool) : State :=
  let at' (v : State) (a : Nat) (x : List Nib) : State :=
    if v.cachedOff a then (v.cacheNow u (.store x) (v.physAt a) bad).1 else (v.applyAt u (.store x) (v.physAt a) bad).1
  let k := 256 - o % 256
  let s1 := at' s o (l.take k)
  if l.length ≤ k then s1 else at' s1 (o + k) (l.drop k)

/-- n units of 16 nibbles read in the place of an offset, each nibble with a mark where its unit reads poisoned, through the slice of a
cached region (R271). -/
def State.ownLoad (s : State) (u : Upsets) : Nat → Nat → State × List (Nib × Bool)
  | 0, _ => (s, [])
  | n + 1, o =>
    let (s1, r) := if s.cachedOff o then s.cacheNow u (.load 16) (s.physAt o) false else s.applyAt u (.load 16) (s.physAt o) false
    let (s2, l) := State.ownLoad s1 u n (o + 16)
    (s2, (if r.st = .poisoned then List.replicate 16 (0#4, true) else r.data.map (fun x => (x, false))) ++ l)

/-- Teardown stops the channels of a partition: those under way complete with JOB_TORN, and OUT and the residuals of their
unfinished blocks hold undefined values, which are free (R342, DESIGN CHOICE, log 10). -/
def State.tearChan (s : State) (p c : Nat) : State :=
  let x := s.chan p c
  let d := chanDesc x.desc
  if x.started = 0 || x.complete then s
  else
    let from' := d.firstOf x.finished
    let open' := if d.norm then [] else (List.range (d.len - from')).map (· + from') |>.filter (fun b => !x.done.contains b)
    let wipe (v : State) (a k : Nat) : State :=
      v.ownStore [] a ((List.range 128).map (fun i => (s.free (k + i)).truncate 4)) ((s.free k).getLsbD 31)
    let s1 := open'.foldl (fun v b => wipe (wipe v (d.out + 128 * b) (256 * b)) (v.shadowOf (d.resid + 128 * b)) (256 * b + 128)) s
    (s1.putChan p c { x with held := [] }).tock.chanComplete [] p c .jobTorn

/-- The channels of a partition stop; no body stays held. -/
def State.tearChans (s : State) (p : Nat) : State :=
  (s.chansOf p).foldl (fun v c => let w := v.tearChan p c; w.putChan p c { w.chan p c with held := [] }) s

end Sys2Proof.Machine
end

