-- ==== Sys2Proof/Machine/Holds.lean ====
section
/-! DEFINITION. What ends a hold at a vault channel port, a short repair or a slot move: accesses that waited there are served again (R253, R258, R261, R262, R439). -/

namespace Sys2Proof.Machine

/-- PROTECTIVE_HOLD_EXIT (R439). -/
def execProtectiveHoldExit (f junction : Nat) (bad : Bool) (s : State) (u : Upsets := []) : Out :=
  ran (.protectiveHoldExit f junction bad u)
    (let s1 := s.noteJunction f junction bad
     if s1.mayLeaveHold f then (s1.leaveHold f).wakeChans u else s1)

/-- SHORT_REPAIR_DONE (R258): the channel serves again. -/
def execShortRepairDone (f site ch : Nat) (s : State) (u : Upsets := []) : Out :=
  ranCore (.shortRepairDone f site ch u) s
    (let v := s.vault f site
     ((s.putVault f site { v with short := setAt v.short ch false }).wrF (oVltRepairCh f site ch) 11 1 0).wakeChans u)

/-- SLOT_COPY_DONE (R261): the slot has been copied, the entry switches and BUSY clears. -/
def execSlotCopyDone (f site : Nat) (s : State) (u : Upsets := []) : Out :=
  ranCore (.slotCopyDone f site u) s
    (match (s.vault f site).copy with
     | some c =>
       let s1 := s.copySlot u f site c.slot
       ((s1.putVault f site { s1.vault f site with copy := none }).switchSlot f site c.slot c.dest).wakeAll.wakeChans u
     | none => s)

end Sys2Proof.Machine
end

