-- ==== Sys2Proof/Machine/Keeper.lean ====
section
/-! DEFINITION. The keeper area, liveness, teardown and what the keeper decides (R306 to R311, R226, R227, R229). -/

namespace Sys2Proof.Machine

/-! ### The keeper area (R307) -/

/-- Offsets in the keeper area: commit slot of partition p, takeover word, liveness counter, keeper commit slot and claim word
of job slot j, report entry of module m. -/
def oCommitSlot (p : Nat) : Nat := keeperBase + 128 * p
def oTakeover : Nat := 0xBFFFF000800
def oLiveness : Nat := 0xBFFFF000810
def oKeeperSlot (j : Nat) : Nat := keeperBase + 0x1000 + 128 * j
def oReport (j m : Nat) : Nat := keeperBase + 0x10000 + (j * 1024 + m) * 16
def oClaim (j : Nat) : Nat := keeperBase + 0x110000 + 8 * j

/-- The keeper job directory: the entry of job slot j, and the word in which a module finds the keeper's order for the job of slot j
(R200, R202; DESIGN CHOICE, log 70; DESIGN CHOICE, log 71). -/
def oDirectory (j : Nat) : Nat := keeperBase + 0x110200 + 0x2000 * j
def oOrder (j : Nat) : Nat := keeperBase + 0x1A0000 + 16 * j

/-- A global address of a class, module and offset (R290). -/
def globalAddr (cls m o : Nat) : Long := BitVec.ofNat 64 (cls * 2 ^ 62 + m % 1024 * 2 ^ 52 + o % 2 ^ 44)

/-- The nibbles of a store to an offset, line by line (R302). -/
def lineStores (m o : Nat) (l : List Nib) : List (Nat × Nat × List Nib) :=
  (List.range (cdiv l.length 256)).map (fun i => (m, o + 256 * i, (l.drop (256 * i)).take 256))

/-- Nibbles that the runtime stores at an offset of a module: here at once, elsewhere by an operation with the runtime
credential (DEDUCED, log 84). -/
def State.storeOn (s : State) (m o : Nat) (l : List Nib) : State :=
  if m = s.moduleId then s.merge [] o l else if !(s.route m).valid then s else s.sendOp .runtime 0 0 true false (globalAddr 1 m o) (.store l)

/-- A guarded pair on a register of another module through class b11 (R291, R306, R404). -/
def State.pairOn (s : State) (m o : Nat) (v : Word) : State :=
  if !(s.route m).valid then s
  else (s.sendOp .order 0 0 true false (globalAddr 3 m o) (.store (nibsOf v.toNat 8))).sendOp .order 0 0 true false
    (globalAddr 3 m (o + 0x80000000)) (.store (nibsOf (~~~ v).toNat 8))

/-- Keeper and standby of this module's `FAB_KEEPER` (R306). A module whose class b11 write was refused no longer acts as keeper
(R309). -/
def State.keeperId (s : State) : Nat := s.rdF oFabKeeper 0 10
def State.standbyId (s : State) : Nat := s.rdF oFabKeeper 10 10
def State.hasStandby (s : State) : Bool := s.rdF oFabKeeper 20 1 == 0
def State.isKeeper (s : State) : Bool := s.keeperId == s.moduleId && !s.keeper.deposed
def State.isStandby (s : State) : Bool := s.hasStandby && s.standbyId == s.moduleId

/-! ### The keeper job directory (R202, R307) -/

/-- The nibbles of a step table as R202 lays it out. -/
def StepTable.nibs (t : StepTable) : List Nib :=
  nibsOf t.format 8 ++ nibsOf t.job 4 ++ nibsOf t.jobSlot 4 ++ nibsOf t.modules 4 ++ nibsOf t.entries 4 ++ nibsOf t.index 8 ++
    nibsOf t.interval 8 ++ nibsOf t.clipWord 24 ++ t.list.flatMap (fun e => nibsOf (e.1 % 1024 + b2n e.2 * 2 ^ 15) 4)

/-- The claim word of a job slot names the job (R202, R307). -/
def State.claimed (s : State) (j job : Nat) : Bool :=
  let w := s.load (oClaim j) 8
  w.testBit 31 && w % 65536 == job

/-- The table in the directory entry of job slot j of this module, while its claim stands. -/
def State.dirAt (s : State) (j : Nat) : Option StepTable :=
  let f (o n : Nat) : Nat := s.load (oDirectory j + o) n
  let e := f 20 4
  if f 0 8 != 5 || !s.claimed j (f 8 4) || decide (1024 < e) || s.anyPoison (oDirectory j) (64 + 4 * e) then none
  else some { format := 5, job := f 8 4, jobSlot := f 12 4, modules := f 16 4, entries := e, index := f 24 8, interval := f 32 8,
              clipWord := f 40 24, reservedZero := true, length := 32 + 2 * e,
              list := (List.range e).map (fun i => let w := f (64 + 4 * i) 4; (w % 1024, w.testBit 15)) }

/-- The job slots that have a table in this module's directory. -/
def State.dirSlots (s : State) : List (Nat × StepTable) :=
  (List.range 64).filterMap (fun j => (s.dirAt j).map (fun t => (j, t)))

/-- The stores that put a table into the directory of module m. -/
def dirStores (m : Nat) (t : StepTable) : List (Nat × Nat × List Nib) := lineStores m (oDirectory t.jobSlot) (StepTable.nibs t)

/-- The value that claims a job slot (R307). -/
def claimVal (job : Nat) : Nat := job % 65536 + 2 ^ 31

/-! ### Tasks of the runtime (R202, R226) -/

/-- A task has ended without its last order: the STEP_TABLE that waits for it completes with the status met (DESIGN CHOICE, log 140). -/
def State.failTask (s : State) (id : Nat) (after : After) (st : Status) : State :=
  match after with
  | .claim p _ => s.ringDoneOp p (.table id) st 0 0
  | .table p _ => s.ringDoneOp p (.table id) st 0 0
  | _ => s

/-- The orders of a task: one on this module at once, one on another once the one before it has completed at its home (R226); then what
follows. -/
def State.runTask (fin : State → Nat → After → State) (id : Nat) (after : After) : List (Nat × Nat × List Nib) → State → State
  | [], s => fin s id after
  | (m, o, l) :: r, s =>
    if m = s.moduleId then State.runTask fin id after r (s.merge [] o l)
    else if !(s.route m).valid then s.failTask id after .badDescriptor
    else ({ s with keeper := { s.keeper with tasks := tput s.keeper.tasks id { todo := r, after := after } } } : State).sendOp
      (.task id) 0 0 true false (globalAddr 1 m o) (.store l)

/-- A task begins. -/
def State.startTask (s : State) (fin : State → Nat → After → State) (after : After) (todo : List (Nat × Nat × List Nib)) : State :=
  State.runTask fin s.keeper.nextTask after todo { s with keeper := { s.keeper with nextTask := s.keeper.nextTask + 1 } }

/-- A task that nothing follows. -/
def State.inTurn (s : State) (todo : List (Nat × Nat × List Nib)) : State := s.startTask (fun v _ _ => v) .nothing todo

/-! ### Reports (R307) -/

/-- The runtime writes the report of partition p to its slot of the keeper's report table (R201, R226, R310). -/
def State.reportStep (s : State) (p kind : Nat) : State :=
  match (s.part p).table with
  | none => s
  | some tb =>
    s.storeOn s.keeperId (oReport tb.jobSlot s.moduleId)
      (nibsOf ((s.rd (oStepIndex p)).toNat + kind * 2 ^ 32 + p * 2 ^ 40 + 2 ^ 63) 16)

/-- A report entry of this module's table, if valid: step, kind, partition. -/
def State.reportAt (s : State) (j m : Nat) : Option (Nat × Nat × Nat) :=
  let v := s.load (oReport j m) 16
  if v.testBit 63 && !s.anyPoison (oReport j m) 16 then some (bits v 0 32, bits v 32 8, bits v 40 4) else none

/-! ### Teardown on a module (R310, R311) -/

/-- Partitions of a job that are not yet HELD, and the region entries that its teardown revokes. -/
def State.jobParts (s : State) (job : Nat) : List Nat :=
  (List.range 16).filter (fun p => (s.part p).ready && s.jobOf p == job && s.phase p != phHeld)
def State.jobRegions (s : State) (job : Nat) : List Nat :=
  (s.regions.filter (fun e => e.2.valid && e.2.job == job && !e.2.origin && e.1 != 4095)).map (·.1)

/-- A partition enters HELD: STEP_BEGIN completes as torn, a STEP_TABLE that waits completes with JOB_TORN, and TORN is reported (R197, R310, R378; DEDUCED, log 82). -/
def State.holdPart (s : State) (p : Nat) : State :=
  let x := s.part p
  let s0 := if x.step.begun then s.consume p 1 else s
  let s1 := (s0.putPart p { x with copying := none, step := { x.step with begun := false } }).setPhase p phHeld
  let tables := (s1.ring p).live.filterMap (fun c => match c.op with
    | .table id => some id
    | _ => none)
  let s2 := tables.foldl (fun v id => ({ v with keeper := { v.keeper with tasks := tdel v.keeper.tasks id } } : State).ringDoneOp p
    (.table id) .jobTorn 0 0) s1
  (s2.ringDoneOp p .step .jobTorn 4 0).reportStep p 4

/-- A teardown order for a job (R310, R311): nothing where the job is absent or torn already. -/
def State.tearJob (s : State) (job : Nat) : State :=
  let ps := s.jobParts job
  let rs := s.jobRegions job
  if ps.isEmpty && rs.isEmpty then s
  else
    let s1 := rs.foldl (fun v e => v.putRegion e { v.region e with valid := false, torn := true }) s
    let s2 := ps.foldl (fun v p => (v.tearPart p).tearChans p) s1
    let s3 := ps.foldl (fun v p => v.holdPart p) s2
    ((s3.bump oFabErr 24 7 1).wrF oFabErr 31 1 1).raise .teardown .jobTorn (srcCentral 5) (16 :: ps)

/-- The pair of `FAB_TEARDOWN` completes (R310, R312). -/
def State.tearPair (s : State) (v : Word) : State := (s.wr oFabTeardown (v &&& 0xFFFF#32)).tearJob (fld v 0 16)

/-! ### Commit records (R227) -/

/-- The fields of a commit record below VALID. -/
def recordVal (kind job step modules keeper standby epoch : Nat) : Nat :=
  kind + job * 2 ^ 8 + step * 2 ^ 24 + modules * 2 ^ 56 + keeper * 2 ^ 67 + standby * 2 ^ 77 + epoch * 2 ^ 87

/-- The mark of a valid record. -/
def recordMark : List Nib := nibsOf 0x600D0001 8

/-- The stores that put a record into a slot, VALID last and in a store of its own (R227). -/
def recordStores (m o rec : Nat) : List (Nat × Nat × List Nib) := [(m, o, nibsOf rec 120), (m, o + 120, recordMark)]

/-- The same over a slot that may hold an earlier record: its mark is cleared first, so that the new fields are no record before theirs
(R226; DEDUCED, log 72). -/
def freshStores (m o rec : Nat) : List (Nat × Nat × List Nib) := (m, o + 120, nibsOf 0 8) :: recordStores m o rec

/-- The record in a slot of this module that is present for a step, as its KIND (R227). -/
def State.presentAt (s : State) (o step : Nat) : Option Nat :=
  let v := s.load o 128
  let k := bits v 0 8
  if bits v 480 32 = 0x600D0001 && bits v 24 32 = step && (k = 1 || k = 2) && !s.anyPoison o 128 then some k else none

/-- The modules of a job that hold a partition (R202). -/
def StepTable.members (t : StepTable) : List Nat := (t.list.filter (fun e => !e.2)).map (·.1)

/-- What the keeper has decided for a step of a job slot, if anything. -/
def State.decided (s : State) (j step : Nat) : Option Nat :=
  (s.keeper.decided.find? (fun x => x.1 == j && x.2.1 == step)).map (·.2.2)

/-- A decision kept, and one that is over. -/
def State.forget (s : State) (j step : Nat) : State :=
  { s with keeper := { s.keeper with
      decided := s.keeper.decided.filter (fun x => !(x.1 == j && x.2.1 == step)),
      applied := s.keeper.applied.filter (fun x => !(x.1 == j && x.2.1 == step)) } }
def State.noteDecision (s : State) (j step code : Nat) : State :=
  let s1 := s.forget j step
  { s1 with keeper := { s1.keeper with decided := s1.keeper.decided ++ [(j, step, code)] } }

/-- Orders 4 and 5 of R226: the mark stands at the standby, and the keeper writes the record into its own slot and then, on every module,
into the slot of the partition that the module's report for the step names, each module's VALID after its other fields. -/
def State.commitOn (s : State) (j step rec : Nat) (t : StepTable) : State :=
  let s1 := s.inTurn (freshStores s.moduleId (oKeeperSlot j) rec)
  (StepTable.members t).foldl (fun v m =>
    match v.reportAt j m with
    | some (st, _, p) => if st = step then v.inTurn (recordStores m (oCommitSlot p) rec) else v
    | none => v) s1

/-- The keeper writes the record of a step (R226 order 3): at the standby first, where there is one; NO_STANDBY = 1 and a standby that is
lost leave that order out (DEDUCED, log 72). -/
def State.writeCommit (s : State) (j step kind : Nat) (t : StepTable) : State :=
  let rec' := recordVal kind t.job step t.modules s.keeperId s.standbyId (s.rd oEvrEpoch).toNat
  let s1 := s.noteDecision j step kind
  if s.hasStandby && !s.keeper.lost.contains s.standbyId && s.standbyId != s.moduleId then
    s1.startTask (fun v _ _ => v.commitOn j step rec' t) (.commit j step rec') (freshStores s.standbyId (oKeeperSlot j) rec')
  else s1.commitOn j step rec' t

/-- An order of the keeper for a step of a job slot: x05 DISCARD, x06 roll-back to the step named (R200, R443; DESIGN CHOICE, log 71). -/
def State.sendOrder (s : State) (j code step : Nat) (ms : List Nat) : State :=
  ms.foldl (fun v m => v.storeOn m (oOrder j) (nibsOf (step % 2 ^ 32 + code * 2 ^ 32 + 2 ^ 63) 16)) s

/-- The reports of a step leave the keeper's table (DEDUCED, log 73). -/
def State.dropReports (s : State) (j step : Nat) (ms : List Nat) : State :=
  ms.foldl (fun v m => match v.reportAt j m with
    | some (st, _, _) => if st = step then v.merge [] (oReport j m) (nibsOf 0 16) else v
    | none => v) s

/-- The keeper discards a step: its reports are dropped, nothing stays decided, so that the rerun can be decided again (R230), and the
modules are ordered to discard. -/
def State.discardStep (s : State) (j step : Nat) (t : StepTable) : State :=
  let ms := (StepTable.members t).filter (fun m => !s.keeper.lost.contains m)
  ((s.dropReports j step ms).forget j step).sendOrder j 5 step ms

/-- Every module of a job holds a report of one of some kinds for a step. -/
def State.allReported (s : State) (j step : Nat) (kinds : List Nat) (ms : List Nat) : Bool :=
  ms.all (fun m => match s.reportAt j m with
    | some (st, k, _) => st == step && kinds.contains k
    | none => false)

/-! ### Groups of the peer checkpoint (R440, R443) -/

/-- The group of list entry `index` in a job of n modules: its first entry and its size. -/
def ckptGroup (n index : Nat) : Nat × Nat :=
  let g := cdiv n 10
  let small := n / g
  let big := n % g
  if index < big * (small + 1) then (index / (small + 1) * (small + 1), small + 1)
  else (big * (small + 1) + (index - big * (small + 1)) / small * small, small)

/-- Every group of a job holds valid headers for step c on all but two of its positions at most (R443). -/
def decodable (t : StepTable) (ckpts : List (Nat × List Nat)) (c : Nat) : Bool :=
  let ids := StepTable.members t
  (List.range t.modules).all (fun i =>
    let (first, k) := ckptGroup t.modules i
    decide (k ≤ (((ids.drop first).take k).filter (fun m => ckpts.any (fun x => x.1 == m && x.2.contains c))).length + 2))

/-- The largest step that the job can return to (R443). -/
def rollStep (t : StepTable) (ckpts : List (Nat × List Nat)) : Option Nat :=
  if t.interval = 0 || t.modules < 3 then none
  else ((ckpts.flatMap (·.2)).filter (decodable t ckpts)).foldl (fun a c => some (Nat.max c (a.getD 0))) none

/-! ### What the keeper decides (R226, R229) -/

/-- The kind with which a step is committed: its record is present in this module's slot, or the keeper has begun to write it. -/
def State.commitKind (s : State) (j step : Nat) : Option Nat :=
  match s.presentAt (oKeeperSlot j) step with
  | some k => some k
  | none => s.decided j step

/-- The steps that some modules report. -/
def State.reportedSteps (s : State) (j : Nat) (ms : List Nat) : List Nat :=
  ms.foldl (fun a m => match s.reportAt j m with
    | some (st, _, _) => sadd a st
    | none => a) []

/-- The keeper decides a torn job once every reachable module has reported TORN (R229, R310): a step is committed where its record stands,
else discarded; where a committed step meets a module whose memory is lost, the job rolls back to the step that R443 chooses, or
the owner is told that there is none. `memLost` and `ckpts` are what the keeper knows of other modules (DESIGN CHOICE, log 141). -/
def State.decideTorn (s : State) (j : Nat) (t : StepTable) (memLost : List Nat) (ckpts : List (Nat × List Nat)) : State :=
  let ms := (StepTable.members t).filter (fun m => !s.keeper.lost.contains m)
  let steps := s.reportedSteps j ms
  let s1 := { s with keeper := { s.keeper with tearing := s.keeper.tearing.filter (fun x => x != j) } }
  let s2 := steps.foldl (fun v st => match v.commitKind j st with
    | some k => v.writeCommit j st k t
    | none => v.discardStep j st t) s1
  if steps.any (fun st => (s.commitKind j st).isSome) && (StepTable.members t).any (fun m => memLost.contains m) then
    match rollStep t ckpts with
    | some c => (steps.foldl (fun v st => v.forget j st) s2).sendOrder j 6 c ms
    | none => s2.raiseOwner .teardown .jobTorn (srcCentral 5)
  else s2

/-- A committed step of a job that not every reachable module has applied. -/
def State.unapplied (s : State) (j : Nat) : Option Nat := (s.keeper.decided.find? (fun x => x.1 == j)).map (·.2.1)

/-- A module has applied a step: it has reported APPLIED, or already reports for the step after it. -/
def State.hasApplied (s : State) (j step m : Nat) : Bool :=
  s.keeper.applied.contains (j, step, m) || (match s.reportAt j m with
    | some (st, k, _) => st == (step + 1) % 2 ^ 32 && (k == 1 || k == 2 || k == 5)
    | none => false)

/-- A takeover settles the open step of a module (R229, R309): the record of the step is written where it is present here, else the
step is discarded. -/
def State.settleOpen (s : State) (j m step p : Nat) : State :=
  let s1 := { s with keeper := { s.keeper with reopened := s.keeper.reopened.filter (fun x => x != (j, m)) } }
  match s1.presentAt (oKeeperSlot j) step with
  | some _ => s1.inTurn (recordStores m (oCommitSlot p) (s1.load (oKeeperSlot j) 120))
  | none => (s1.dropReports j step [m]).sendOrder j 5 step [m]

/-- The keeper acts on the report of a module (R201, R226, R229). No order for a step is started before every module has applied the
committed one before it (R226). -/
def State.actReport (s : State) (t : StepTable) (memLost : List Nat) (ckpts : List (Nat × List Nat)) (j m : Nat) : State :=
  match s.reportAt j m with
  | none => s
  | some (step, kind, p) =>
    let ms := StepTable.members t
    if kind = 4 then
      if s.keeper.tearing.contains j && ms.all (fun x => s.keeper.lost.contains x || (match s.reportAt j x with
          | some (_, k, _) => k == 4
          | none => false)) then s.decideTorn j t memLost ckpts
      else s
    else if !(kind = 1 || kind = 2 || kind = 5) then s
    else if s.keeper.reopened.contains (j, m) then s.settleOpen j m step p
    else if (s.unapplied j).isSome then s
    else if kind = 5 then s.discardStep j step t
    else if s.allReported j step [1, 2] ms then
      s.writeCommit j step (if ms.any (fun x => match s.reportAt j x with
        | some (_, k, _) => k == 2
        | none => false) then 2 else 1) t
    else s

/-- The keeper takes the report of a module (R201, R226, R229; DEDUCED, log 73). With the last APPLIED of a step, reports of the step
after it that wait are acted on. -/
def State.takeReport (s : State) (memLost : List Nat) (ckpts : List (Nat × List Nat)) (j m : Nat) : State :=
  match s.dirAt j, s.reportAt j m with
  | some t, some (step, kind, _) =>
    let ms := (StepTable.members t).filter (fun x => !s.keeper.lost.contains x)
    let s1 := if kind = 3 && s.unapplied j == some step && !s.keeper.applied.contains (j, step, m) then
      { s with keeper := { s.keeper with applied := s.keeper.applied ++ [(j, step, m)] } } else s
    match s1.unapplied j with
    | some st =>
      if ms.all (s1.hasApplied j st) then ms.foldl (fun v x => v.actReport t memLost ckpts j x) (s1.forget j st)
      else s1.actReport t memLost ckpts j m
    | none => s1.actReport t memLost ckpts j m
  | _, _ => s

/-- KEEPER_REPORT (R226). -/
def execKeeperReport (j m : Nat) (s : State) (memLost : List Nat := []) (ckpts : List (Nat × List Nat) := []) : Out :=
  ranCore (.keeperReport j m memLost ckpts) s (if s.isKeeper then s.takeReport memLost ckpts j m else s)

/-! ### What follows a task (R202, R226) -/

/-- A table stands in the directory of another module's keeper: it is in force, and STEP_TABLE completes (R202). -/
def State.tableInForce (s : State) (p : Nat) (t : StepTable) : State :=
  if s.jobOf p = t.job && (s.part p).ready then s.putPart p { s.part p with table := some t } else s

/-- The directory entry and the claim of a job slot are copied to a standby (DESIGN CHOICE, log 70). -/
def State.copyDir (s : State) (m : Nat) (t : StepTable) : State :=
  s.inTurn ((m, oClaim t.jobSlot, nibsOf (claimVal t.job) 8) :: dirStores m t)

/-- The directory of a keeper reaches its standby. -/
def State.copyDirs (s : State) : State :=
  if s.hasStandby && s.standbyId != s.moduleId then s.dirSlots.foldl (fun v e => v.copyDir v.standbyId e.2) s else s

/-- What follows the last order of a task. -/
def State.taskEnd (s : State) (id : Nat) : After → State
  | .nothing => s
  | .claim _ _ => s
  | .table p t =>
    let s1 := (s.tableInForce p t).ringDoneOp p (.table id) .ok 0 0
    if s1.hasStandby then s1.copyDir s1.standbyId t else s1
  | .commit j step rec' => match s.dirAt j with
    | some t => s.commitOn j step rec' t
    | none => s

/-- The operation of a task has completed: the claim of a job slot fails where the word held another job (R202); a status other than OK
ends the task. -/
def State.taskDone (s : State) (id : Nat) (r : Reply) : State :=
  match tfind s.keeper.tasks id with
  | none => s
  | some x =>
    let s1 := { s with keeper := { s.keeper with tasks := tdel s.keeper.tasks id } }
    if r.st != .ok then s1.failTask id x.after r.st
    else match x.after with
      | .claim p t =>
        let w := nth 0#32 r.words 0
        if flag w 31 && fld w 0 16 != t.job then s1.failTask id x.after .wrongState
        else State.runTask State.taskEnd id (.table p t) (dirStores s.keeperId t) s1
      | a => State.runTask State.taskEnd id a x.todo s1

/-! ### Liveness (R308) -/

/-- LIVENESS_INCREMENT (R308). -/
def execLivenessIncrement (s : State) : Out :=
  ranCore .livenessIncrement s (s.merge [] oLiveness (nibsOf (s.load oLiveness 16 + 1) 16))

/-- The keeper orders the teardown of a job slot's job: the standby first, then every reachable module of the set (R310). -/
def State.orderTeardown (s : State) (j : Nat) (t : StepTable) : State :=
  let all := (t.list.map (·.1)).filter (fun m => !s.keeper.lost.contains m)
  let first := if s.hasStandby && !s.keeper.lost.contains s.standbyId then [s.standbyId] else []
  let v := BitVec.ofNat 32 t.job
  let s1 := { s with keeper := { s.keeper with tearing := sadd s.keeper.tearing j } }
  (first ++ all.filter (fun m => !first.contains m)).foldl (fun u m =>
    if m = u.moduleId then u.tearPair v else u.pairOn m oFabTeardown v) s1

/-- The keeper tears down every job whose set meets a test and whose teardown is not under way (R310; DEDUCED, log 74). -/
def State.tearWhere (s : State) (f : List Nat → Bool) : State :=
  if s.isKeeper then
    (s.dirSlots.filter (fun e => f (e.2.list.map (·.1)) && !s.keeper.tearing.contains e.1)).foldl (fun v e => v.orderTeardown e.1 e.2) s
  else s

/-- A module is declared lost: the keeper tears down every job whose set holds it (R308, R310). -/
def State.declareLost (s : State) (m : Nat) : State :=
  ({ s with keeper := { s.keeper with lost := sadd s.keeper.lost m } } : State).tearWhere (fun ms => ms.contains m)

/-- Every link to a module is DOWN: those whose declared peer it is, or else those of the group on its route (R308; DEDUCED, log 74). -/
def State.linksDown (s : State) (m : Nat) : Bool :=
  let direct := (List.range 64).filter (fun k => let v := s.rd (oLinkExpect k); flag v 16 && fld v 0 10 == m)
  if direct.isEmpty then (s.route m).valid && s.downGroups.testBit (s.route m).group
  else direct.all (fun k => s.linkState k == 4)

/-- This module's route to module d passes a down group. -/
def State.routeDown (s : State) (d : Nat) : Bool := d != s.moduleId && (s.route d).valid && s.downGroups.testBit (s.route d).group

/-- A down group lies on a route between two modules of a set (R310): on one of this module's routes, or on one between other modules.
`downs` and `hops` are what the keeper knows of those: a module's groups that are down, and the groups that the route between two modules
passes (DESIGN CHOICE, log 141). -/
def State.setCut (s : State) (downs : List (Nat × Nat)) (hops : List ((Nat × Nat) × (Nat × Nat))) (ms : List Nat) : Bool :=
  (ms.contains s.moduleId && ms.any s.routeDown) ||
  hops.any (fun h => ms.contains h.1.1 && ms.contains h.1.2 && downs.contains h.2)

/-- LIVENESS_ROUND (R308, R310): the keeper's next round for a module, or the standby's for the keeper. The reads of the round before have
shown a change or not; the module is declared lost, or its counter is read again. -/
def execLivenessRound (m : Nat) (downs : List (Nat × Nat)) (hops : List ((Nat × Nat) × (Nat × Nat))) (s : State) : Out :=
  ranCore (.livenessRound m downs hops) s
    (if m != s.moduleId && (s.isKeeper || (s.isStandby && m == s.keeperId)) then
       let w := (tfind s.keeper.rounds m).getD { counter := none, misses := 0, moved := true }
       let n := if w.moved then 0 else w.misses + 1
       let s1 := { s with keeper := { s.keeper with rounds := tput s.keeper.rounds m { w with misses := n, moved := false } } }
       let s2 := if (decide (s.rdF oFabLiveCfg 16 4 ≤ n) || s.linksDown m) && !s1.keeper.lost.contains m then s1.declareLost m
         else if !(s.route m).valid || s1.ops.any (fun o => o.origin == .live m) then s1
         else s1.sendOp (.live m) 0 0 true false (globalAddr 1 m oLiveness) (.load 16)
       s2.tearWhere (s2.setCut downs hops)
     else s)

/-- The liveness counter of a module has been read (R308). -/
def State.liveRead (s : State) (m : Nat) (r : Reply) : State :=
  match tfind s.keeper.rounds m with
  | some w =>
    let c := ofNibs r.data
    if r.st != .ok || w.counter == some c then s
    else { s with keeper := { s.keeper with rounds := tput s.keeper.rounds m { w with counter := some c, moved := true } } }
  | none => s

/-- An operation of the runtime or the keeper role has completed: a refused class b11 write ends the role (R309). -/
def State.runtimeDone (s : State) (o : Origin) (r : Reply) : State :=
  match o with
  | .live m => s.liveRead m r
  | .order => if r.st = .notAuthorized then { s with keeper := { s.keeper with deposed := true } } else s
  | .task id => s.taskDone id r
  | _ => s

/-! ### Takeover (R309) -/

/-- The report that a partition of this module has last made for a step that is still open (R201, R226, R310). -/
def State.lastReport (s : State) (p : Nat) : Option Nat :=
  let x := s.part p
  let ph := s.phase p
  let open' := s.rdF (oStepPhase p) 4 1 == 0
  if x.table.isNone then none
  else if ph = phHeld then some 4
  else if x.step.noStaged && decide (phFwd ≤ ph) && decide (ph ≤ phCommit) && open' then some 5
  else if ph = phCommit && open' && x.copying.isNone then some (if x.step.skip then 2 else 1)
  else none

/-- The pair of `FAB_KEEPER` completes (R306, R309): the reports of open steps go to a new keeper, and the keeper's directory to the
standby named (DESIGN CHOICE, log 70). -/
def State.keeperNamed (s : State) (v : Word) : State :=
  let s1 := { (s.wr oFabKeeper (v &&& 0x1FFFFF#32)) with keeper := { s.keeper with deposed := false } }
  let s2 := if s1.keeperId = s.keeperId then s1 else (List.range 16).foldl (fun u p => match u.lastReport p with
    | some k => u.reportStep p k
    | none => u) s1
  if s2.isKeeper then s2.copyDirs else s2

/-- Each open step is completed from the standby's own keeper commit slot (R229, R309): the step after the one recorded there is
discarded, and what modules report of a step that was open is settled by the record (DEDUCED, log 139). -/
def State.completeOpen (s : State) : State :=
  s.dirSlots.foldl (fun v e =>
    let ms := (StepTable.members e.2).filter (fun m => !v.keeper.lost.contains m)
    let step := bits (v.load (oKeeperSlot e.1) 128) 24 32
    let next := if (v.presentAt (oKeeperSlot e.1) step).isSome then (step + 1) % 2 ^ 32 else 0
    ({ v with keeper := { v.keeper with reopened := v.keeper.reopened ++ ms.map (fun m => (e.1, m)) } } : State).sendOrder e.1 5 next ms) s

/-- KEEPER_TAKEOVER (R309): the standby has declared the keeper lost. The STANDBY field that goes with NO_STANDBY = 1 is not
given: it is free (DESIGN CHOICE, log 10). -/
def State.takeOver (s : State) (reachable : List Nat) : State :=
  let old := s.load oTakeover 16
  let sb := fld (s.free 0) 0 10
  let word := s.moduleId + sb * 2 ^ 10 + (bits old 20 32 + 1) % 2 ^ 32 * 2 ^ 20 + 2 ^ 63
  let v := BitVec.ofNat 32 (s.moduleId + sb * 2 ^ 10 + 2 ^ 20)
  let ms := reachable.filter (fun m => m != s.moduleId)
  let s1 := ms.foldl (fun u m => u.storeOn m oTakeover (nibsOf word 16)) (s.merge [] oTakeover (nibsOf word 16))
  let s2 := ms.foldl (fun u m => u.pairOn m oFabKeeper v) (s1.keeperNamed v)
  (s2.completeOpen).tock

def execKeeperTakeover (reachable : List Nat) (s : State) : Out :=
  ranCore (.keeperTakeover reachable) s
    (if s.isStandby && !s.isKeeper && s.keeper.lost.contains s.keeperId then s.takeOver reachable else s)

end Sys2Proof.Machine
end

