-- ==== Sys2Proof/Machine/Bus.lean ====
section
/-! DEFINITION. The register interface (14_register_interface.md): who writes what (R395, R498, R499), strobed registers and UPDATE (R398 to R401), bit aliases (R402, R403), guarded pairs (R404 to R406), and what a write does beyond storing its value. -/

namespace Sys2Proof

/-- The requester is a control core: the resident runtime (R395). -/
def Req.isRuntime (r : Req) : Bool := decide (r.id < 0x20)

/-- The requester is a host or management requester. -/
def Req.isHost (r : Req) : Bool := decide (0x20 ≤ r.id) && decide (r.id ≤ 0x31)

end Sys2Proof

namespace Sys2Proof.Machine

/-! ### Link states (R324, R325) -/

/-- Codes of `LINK_STATUS.STATE` (R324). -/
def lkOff : Nat := 0
def lkTraining : Nat := 1
def lkUp : Nat := 2
def lkRetrain : Nat := 3
def lkDown : Nat := 4

/-- A link as a report source (R474). -/
def srcLink (k : Nat) : Src := { kind := 2, index := k }

/-- A link changes state, and the change is logged (R325). -/
def State.setLinkState (s : State) (k st : Nat) : State :=
  if s.linkState k = st then s else (s.wrF (oLinkStatus k) 0 3 st).raiseOwner .link .ok (srcLink k)

/-- A link leaves UP for RETRAIN, and a new window begins (R325, R346; DEDUCED, log 57). -/
def State.enterRetrain (s : State) (k : Nat) : State :=
  if s.linkState k = lkUp then
    let s1 := (s.bump (oLinkReplay k) 16 8 1).wrF (oLinkReplay k) 31 1 1
    (s1.putLink k { s1.link k with winUncorr := 0, winReplay := 0, fails := 0 }).setLinkState k lkRetrain
  else s

/-- `LINK_CTRL` written (R346): ENABLE = 0 puts the link OFF; ENABLE = 1 starts TRAINING from DOWN or OFF where a peer is
declared (R324); RETRAIN = 1 retrains an UP link. -/
def State.linkCtrl (s : State) (k : Nat) (v : Word) : State :=
  if !flag v 0 then s.setLinkState k lkOff
  else
    let st := s.linkState k
    if (st = lkDown || st = lkOff) && flag (s.rd (oLinkExpect k)) 16 then
      (s.putLink k { s.link k with fails := 0 }).setLinkState k lkTraining
    else if flag v 1 then s.enterRetrain k
    else s

/-! ### Authority (R395, R498, R499, R460) -/

/-- The debug level in force (R466). -/
def State.debugLevel (s : State) : Nat := s.rdF oSecStatus 2 2

/-- The requester has the owner's authority: the two owner requesters, the runtime while it carries out an owner command
(R498), and the TAP at level D2 (R499). -/
def State.isOwner (s : State) (r : Req) : Bool :=
  r.id == 0x20 || r.id == 0x31 || (r.isRuntime && r.ownerCmd) || (r.id == 0x32 && s.debugLevel == 2)

/-- The requester is a class b11 write of the keeper or the standby (R291). -/
def State.isKeeperReq (s : State) (r : Req) : Bool :=
  decide (0x400 ≤ r.id) && (r.id - 0x400 == s.keeperId || (s.hasStandby && r.id - 0x400 == s.standbyId))

/-- The requester may write registers of a row. -/
def State.mayWrite (s : State) (r : Req) : By → Bool
  | .both => s.isOwner r || r.isRuntime
  | .runtime => r.isRuntime
  | .owner => s.isOwner r
  | .nobody => false
  | .ownerKeeper => s.isOwner r || s.isKeeperReq r
  | .keeper => s.isKeeperReq r
  | .refused => false

/-- Neither PCI Express nor the management interface answers: OFF, and BEACON of class x1 with a north-crescent rail (R419,
R463, DESIGN CHOICE, log 20). -/
def State.hostDead (s : State) : Bool :=
  s.power.off || match s.startup.beacon with
  | some (1, d) => s.modState == stBeacon && Config.northRail d
  | _ => false

/-- An access of the requester comes to the module at all: not where it is OFF, or where the way in is dead (R394, R419, R433). -/
def State.hears (s : State) (r : Req) : Bool :=
  !(s.power.off || (r.isHost && s.hostDead) || (r.id == 0x20 && !s.host.linkUp) ||
    (decide (0x21 ≤ r.id) && decide (r.id ≤ 0x30) && !(s.host.linkUp && s.host.sriov)))

/-- Blocks that a host or management access reaches in the state the module is in (R411, R418, R419, R430). -/
def State.reaches (s : State) (r : Req) (b : Blk) : Bool :=
  let c := s.modState
  let host := r.isHost
  let three := b == .mc || b == .evr || b == .sec
  if !s.hears r then false
  else if host && (c == stStartup || c == stBeacon) then three
  else if host && c == stStrike then three || b == .pwr
  else true

/-- The block's logic answers (R14, R393): site status registers always; the other registers of a field while its logic is
powered, and those of a tile block on logical-tile sites alone (DEDUCED, log 33). -/
def State.answers (s : State) (b : Blk) (l : Nat) : Bool :=
  let core := s.corePowered
  match b with
  | .tile f site => decide (l < 0x100) || (core && (s.tileAt f site).isSome)
  | .fdma _ _ => core
  | .field _ => core
  | _ => true

/-- A block's register as a report source (R474). -/
def blkSrc (b : Blk) (l : Nat) : Src :=
  match b with
  | .mc => srcCentral 0 | .pwr => srcCentral 1 | .sec => srcCentral 2 | .evr => srcCentral 3
  | .hst => if l < 0x1100 then { kind := 7, index := l / 0x100 } else srcCentral 4
  | .fab => srcCentral 5
  | .sc => if l < 0x8000 then { kind := 3, index := l / 0x4000 } else srcCentral 6
  | .chk => srcCentral 7
  | .link k => srcLink k
  | .field f => srcSite f 0
  | .fdma f c => { kind := 1, index := f * 256 + c }
  | .hdma h => { kind := 6, index := h }
  | .tile f site => srcSite f site

/-! ### Rings (R374) -/

/-- `RING_CTRL.ENABLE` = 0: the ring is DISABLED and its indices are zero (R374). -/
def State.disableRing (s : State) (r : Nat) : State :=
  let s1 := ((s.wrF (oRingStatus r) 0 2 rgDisabled).wr (oRingCmdCons r) 0).wr (oRingCplProd r) 0
  s1.putRing r { s1.ring r with cmdProd := 0, cplCons := 0 }

/-! ### The recorder's registers (R477, R485) -/

/-- The oldest n records are released (R477). -/
def State.releaseRecords (s : State) (n : Nat) : State :=
  let m := Nat.min n s.recorder.log.length
  ({ s with recorder := { s.recorder with log := s.recorder.log.drop m } }).wr oEvrFirst
    (s.rd oEvrFirst + BitVec.ofNat 32 m)

/-- The pair of `REP_COMMIT` completes: entry x000 is no entry (R485). -/
def State.repPair (s : State) (v : Word) : State :=
  let e := s.rdF oRepSel 0 12
  let d := s.rd oRepData0
  let x : Replica := { kind := fld d 0 2, module := fld d 2 10, hostch := fld d 12 4, key := fld d 16 16,
                       addr := (s.rd oRepData1).toNat + (s.rd oRepData2).toNat * 2 ^ 32, valid := flag v 0 }
  let rep0 : Replica := { kind := 0, module := 0, hostch := 0, key := 0, addr := 0, valid := false }
  let s1 := s.wr oRepCommit (v &&& 1#32)
  if e = 0 then s1 else { s1 with replicas := tset rep0 s1.replicas e x }

/-! ### Plain writes -/

/-- Count fields that a write of 1 to a W1C bit zeroes beside the bit itself, by block and offset (R137, R266, R289, R312,
R346, R408, R485): offset, lowest bit, width. -/
def w1cZeroes (b : Blk) (l : Nat) : List (Nat × Nat × Nat) :=
  match b with
  | .mc => if l = 0x110 then [(0x110, 0, 16)] else []
  | .evr => if l = 0x18 then [(0x18, 0, 31)] else []
  | .fab => if l = 0x300 then [(0x300, 0, 31)] else []
  | .sc => if l % 0x4000 = 0x28 then [(l, 0, 31)] else []
  | .link _ => if l = 0x30 then [(0x20, 0, 32), (0x28, 0, 32), (0x30, 0, 24)] else []
  | .tile _ _ =>
    if 0x18 ≤ l && l < 0x38 then [(l, 0, 31)] else if l = 0x70 then [(l, 0, 31)]
    else if l = 0xC08 then [(l, 12, 16)] else []
  | _ => []

/-- Bits written 1 to a W1C field are cleared, with the counts they stand for (R7). -/
def State.clearW1c (s : State) (b : Blk) (l : Nat) (bits1 : Word) : State :=
  if bits1 = 0 then s
  else (w1cZeroes b l).foldl (fun v z => v.wrF (b.base + z.1) z.2.1 z.2.2 0)
    (s.wr (b.base + l) (s.rd (b.base + l) &&& ~~~ bits1))

/-- `UPDATE` takes effect (R400, R401): every block of a masked group that has a pending value is told to apply. -/
def State.updateWrite (s : State) (v : Word) : State :=
  let told := ((s.strobed.map (·.1)).filter (fun o => v.getLsbD (s.groupOfOff o))).filterMap (fun o =>
    (blkOf o).map (fun x => x.1.base))
  let s1 := { s with applying := told.foldl sadd s.applying }
  s1.bumpWrap oUpdPending 16 16 1

/-- A block applies: every pending value it has becomes active at once (R400, R401; DEDUCED, log 32). -/
def State.applyBlock (s : State) (base : Nat) : State :=
  let mine (o : Nat) : Bool := match blkOf o with
    | some (b, _) => b.base == base
    | none => false
  let s1 := (s.strobed.filter (fun e => mine e.1)).foldl (fun v e => v.wr e.1 e.2) s
  { s1 with strobed := s1.strobed.filter (fun e => !mine e.1), applying := sdel s1.applying base }

/-- The W1C, S and RW fields of a register take the bits written to them. -/
def State.storeFields (s : State) (b : Blk) (l : Nat) (row : Row) (v : Word) : State :=
  let o := b.base + l
  let rw := row.mask .rw
  let sm := row.mask .s
  let s1 := s.clearW1c b l (v &&& row.mask .w1c)
  let s2 := if sm = 0 then s1
    else { s1 with strobed := tput s1.strobed o (((tfind s1.strobed o).getD (s1.rd o) &&& ~~~ sm) ||| (v &&& sm)) }
  if rw = 0 then s2 else s2.wr o ((s2.rd o &&& ~~~ rw) ||| (v &&& rw))

/-- What a write with value v does after its fields are stored, `old` being the register's value before. -/
def State.writeHook (s : State) (b : Blk) (l : Nat) (old v : Word) : State :=
  match b with
  | .mc => if l = 0 then s.updateWrite v else s
  | .evr =>
    let r := s.recorder
    let c := s.rdF oEvrClassSel 0 5
    if l = 0x110 then { s with recorder := { r with cfg := tset 3 r.cfg c (fld v 0 2) } }
    else if 0x140 ≤ l && l < 0x1A0 then
      { s with recorder := { r with snaps := tset 0#32 r.snaps ((c * 16 + s.rdF oEvrClassSel 5 4) * 12 + (l - 0x140) / 8)
                                      (v &&& 0x801FFFFF#32) } }
    else s
  | .sc =>
    let h := l / 0x4000
    if l % 0x4000 = 0x68 then
      (s.startCacheOp h (s.rd (oScOpBase h)).toNat (fld v 0 17) (fld v 17 2) none).1
    else s
  | .link k => if l = 0x18 then s.linkCtrl k v else s
  | .fdma f c => if l = 0x78 && flag v 31 then s.dmaStart (dmaKey (.field f c)) none none else s
  | .hdma h => if l = 0x78 && flag v 31 then s.dmaStart (dmaKey (.host h)) none none else s
  | .pwr =>
    if l = 0x28 && flag v 0 && s.modState == stStrike && s.rdF oPwrState 12 1 == 1 then
      { s with power := { s.power with wake := true } }
    else s
  | .hst => if l < 0x1100 && l % 0x100 = 0x38 && flag old 0 && !flag v 0 then s.disableRing (l / 0x100) else s
  | _ => s

/-- Registers that a block keeps in a table of its own, not at their offset (R485). -/
def tabled (b : Blk) (l : Nat) : Bool := b == .evr && (l == 0x110 || (decide (0x140 ≤ l) && decide (l < 0x1A0)))

/-- A write that its state forbids, logged as WRONG_STATE (R357, R390): registers x00 to x78 of a busy channel, and the set-up
registers of an enabled ring. -/
def State.writeBarred (s : State) (b : Blk) (l : Nat) : Bool :=
  match b with
  | .fdma f c => decide (l < 0x80) && s.dmaBusy (dmaKey (.field f c))
  | .hdma h => decide (l < 0x80) && s.dmaBusy (dmaKey (.host h))
  | .hst => decide (l < 0x1100) && decide (l % 0x100 < 0x38) && s.rdF (oRingCtrl (l / 0x100)) 0 1 == 1
  | _ => false

/-- A write of a register that holds no G field, authority and state checked. -/
def State.plainWrite (s : State) (b : Blk) (l : Nat) (row : Row) (v : Word) : State :=
  let old := s.rd (b.base + l)
  (if tabled b l then s else s.storeFields b l row v).writeHook b l old v

/-! ### Guarded pairs (R404 to R406) -/

/-- GUARD_FAULT: counted, captured and reported (R406, R408). -/
def State.guardFault (s : State) (id off : Nat) : State :=
  (((s.bump oMcGuard 0 16 1).wrF oMcGuard 16 11 id |>.wrF oMcGuard 31 1 1).wr oMcGuardAddr
    (BitVec.ofNat 32 off)).raiseOwner .guard .guardFault (srcCentral 0)

/-- The pending pair of a requester: offset and value (R404). -/
def State.pairOf (s : State) (id : Nat) : Option (Nat × Word) := (s.pairs.find? (fun p => p.1 == id)).map (·.2)

/-- The requester holds no pending pair. -/
def State.dropPair (s : State) (id : Nat) : State := { s with pairs := s.pairs.filter (fun p => p.1 != id) }

/-- A register write of a requester at an offset as written breaks its pending pair (R405). -/
def State.breakPair (s : State) (id off : Nat) : State :=
  match s.pairOf id with
  | some _ => (s.dropPair id).guardFault id off
  | none => s

/-- The G fields of a register stored. -/
def State.storeGuarded (s : State) (o : Nat) (row : Row) (v : Word) : State :=
  s.wr o ((s.rd o &&& ~~~ row.mask .g) ||| (v &&& row.mask .g))

/-- A host channel is busy (R349). -/
def State.hostDmaBusy (s : State) : Bool := (List.range 16).any (fun h => s.dmaBusy (512 + h))

/-- A pin write of the pair of `SC_PIN_CTRL`: outcomes in the order of R281's table, NOT_AUTHORIZED for a writer other than
the runtime (DEDUCED, log 34). -/
def State.pinPair (s : State) (r : Req) (h : Nat) (v : Word) : State :=
  let e := s.rdF (oScPinSel h) 0 3
  let base := (s.rd (oScPinBase h)).toNat
  if r.isRuntime || s.pinCheck h e (fld v 18 4) base (fld v 0 17) != .ok then
    (s.pinWrite h e (fld v 18 4) base (fld v 0 17) (flag v 17)).1
  else s.putPin h e { tget pin0 (s.half h).pins e with result := .notAuthorized }

/-- A guarded pair completes with value v at a register that its requester may write (DEDUCED, log 35). -/
def State.guardedApply (s : State) (r : Req) (b : Blk) (l : Nat) (row : Row) (v : Word) : State :=
  match b with
  | .fab =>
    if l = 0x120 then s.rgnPair v
    else if l = 0x128 then s.flipPair v
    else if l = 0x218 then s.kmapPair v
    else if l = 0x48 then s.routePair v
    else if 0x80 ≤ l && l < 0xC0 then s.remapPair ((l - 0x80) / 8) v
    else if l = 0x08 then s.keeperNamed v
    else if l = 0x18 then s.tearPair v
    else s.storeGuarded (b.base + l) row v
  | .tile f site => if l = 0x108 then s.slotPair f site v else s.storeGuarded (b.base + l) row v
  | .evr =>
    if l = 0x30 then (s.storeGuarded (b.base + l) row v).releaseRecords (fld v 0 13)
    else if l = 0x820 then s.repPair v
    else s.storeGuarded (b.base + l) row v
  | .sc => if l % 0x4000 = 0x50 then s.pinPair r (l / 0x4000) v else s.storeGuarded (b.base + l) row v
  | .hst =>
    if (l = 0x9020 || l = 0x9028) && s.hostDmaBusy then s.raiseOwner .accessDenied .wrongState (blkSrc b l)
    else s.storeGuarded (b.base + l) row v
  | _ => s.storeGuarded (b.base + l) row v

/-! ### One register write -/

/-- What a write at an offset of a block region meets before it takes effect: `none` where it is ignored silently, the status
it is ignored and logged with, or OK (R8, R393, R395, R499, R357, R390). -/
def State.writeCheck (s : State) (r : Req) (b : Blk) (l : Nat) (row : Row) : Option Status :=
  if !s.reaches r b || !s.answers b l || row.writer == .nobody then none
  else if !s.mayWrite r row.writer then some .notAuthorized
  else if s.writeBarred b l then some .wrongState
  else some .ok

/-- A checked write at a block offset, taken by f where it passes. -/
def State.checked (s : State) (r : Req) (o : Nat) (f : Blk → Nat → Row → State) : State :=
  match blkOf o with
  | none => s
  | some (b, l) =>
    match rowOf b.rows l with
    | none => s
    | some (row, _) =>
      match s.writeCheck r b l row with
      | none => s
      | some .ok => f b l row
      | some st => s.raiseOwner .accessDenied st (blkSrc b l)

/-- A write at an offset of the block regions: the first write of a guarded pair where the register holds a G field, else a
plain write (R404; DEDUCED, log 31). -/
def State.blockWrite (s : State) (r : Req) (o : Nat) (v : Word) : State :=
  s.checked r o (fun b l row =>
    if row.guarded then { s with pairs := s.pairs ++ [(r.id, o, v)] } else s.plainWrite b l row v)

/-- The write that a requester's pending pair (o, v) awaits has come (R404). -/
def State.pairDone (s : State) (r : Req) (o : Nat) (v : Word) : State :=
  s.checked r o (fun b l row => s.guardedApply r b l row v)

/-- A write to the twin of offset o (R404, R405): to another twin it breaks the pair and then acts as a twin write without one. -/
def State.twinWrite (s : State) (r : Req) (o off : Nat) (v : Word) : State :=
  match s.pairOf r.id with
  | some (o', v') =>
    if o' = o then
      (if v = ~~~ v' then (s.dropPair r.id).pairDone r o v' else (s.dropPair r.id).guardFault r.id off)
    else ((s.dropPair r.id).guardFault r.id off).guardFault r.id off
  | none => s.guardFault r.id off

/-- The access code of bit i of a register; `ro` where no field holds it. -/
def Row.accOf (row : Row) (i : Nat) : Acc7 :=
  match row.fields.find? (fun f => decide (f.lo ≤ i) && decide (i < f.lo + f.w)) with
  | some f => f.acc
  | none => .ro

/-- A write of bit x to the alias of bit i of the register at offset o (R403). -/
def State.aliasWrite (s : State) (r : Req) (o i off : Nat) (x : Bool) : State :=
  s.checked r o (fun b l row =>
    let one : Word := BitVec.ofNat 32 (2 ^ i)
    let cur := s.readReg r.id o &&& row.mask .rw
    let pend := (tfind s.strobed o).getD (s.rd o) &&& row.mask .s
    match row.accOf i with
    | .rw => s.plainWrite b l row ((if x then cur ||| one else cur &&& ~~~ one) ||| pend)
    | .s => s.plainWrite b l row (cur ||| (if x then pend ||| one else pend &&& ~~~ one))
    | .w1c => if x then s else s.clearW1c b l one
    | .wo => if x then s.plainWrite b l row (cur ||| one) else s
    | .g => s.guardFault r.id off
    | .ro => s)

/-- The offset of the alias of bit b of the register at offset a (R402). -/
def aliasOff (a b : Nat) : Nat := 0x100000000 + ((a >>> 3) <<< 8) + (b <<< 3)

/-- First offset of the guard twins and of the aliases (R392). -/
def twinBase : Nat := 0x80000000
def aliasBase : Nat := 0x100000000

/-- An offset is aligned and lies in a region of R392 (R393, R394). -/
def offsetOk (off : Nat) : Bool :=
  off % 8 == 0 && ((blkOf off).isSome || (decide (twinBase ≤ off) && decide (off < 0x85000000)) ||
    (decide (aliasBase ≤ off) && decide (off < 0x1A0000000)))

/-- The module's state lets the requester through to the block that an offset names, itself, by a twin or by an alias; an offset
that names no block passes where a block outside the list of R411 does (R411, R430; DEDUCED, log 30). -/
def State.arrives (s : State) (r : Req) (off : Nat) : Bool :=
  let a := if aliasBase ≤ off then ((off - aliasBase) >>> 8) <<< 3 else if twinBase ≤ off then off - twinBase else off
  s.reaches r (match blkOf a with | some (b, _) => b | none => .chk)

/-- One register write of a requester at an offset of the register space (R392 to R405). A write that R393 or R394 refuses or
R411 ignores still breaks the requester's pending pair, and changes nothing else (R7; DEDUCED, log 30). -/
def State.busWrite (s : State) (r : Req) (off : Nat) (v : Word) : State :=
  if !s.hears r then s
  else if !offsetOk off || !s.arrives r off then s.breakPair r.id off
  else if aliasBase ≤ off then
    let a := ((off - aliasBase) >>> 8) <<< 3
    (s.breakPair r.id off).aliasWrite r a (((off - aliasBase) >>> 3) % 32) off (flag v 0)
  else if twinBase ≤ off then s.twinWrite r (off - twinBase) off v
  else (s.breakPair r.id off).blockWrite r off v

/-- A whole guarded pair of one requester: the value, then its complement at the twin. -/
def State.busPair (s : State) (r : Req) (off : Nat) (v : Word) : State :=
  (s.busWrite r off v).busWrite r (off + twinBase) (~~~ v)

/-- A register read of a requester (R393): zero where the access does not reach or the block does not answer. -/
def State.busRead (s : State) (r : Req) (off : Nat) : Word :=
  if aliasBase ≤ off && off < 0x1A0000000 then
    let a := ((off - aliasBase) >>> 8) <<< 3
    match blkOf a with
    | some (b, l) =>
      if s.reaches r b && s.answers b l then
        (if (s.readReg r.id a).getLsbD (((off - aliasBase) >>> 3) % 32) then 1 else 0)
      else 0
    | none => 0
  else
    match blkOf off with
    | some (b, l) => if s.reaches r b && s.answers b l then s.readReg r.id off else 0
    | none => 0

end Sys2Proof.Machine
end

