-- ==== Sys2Proof/Machine/Wire.lean ====
section
/-! DEFINITION. What a link carries bit by bit: the 2,048 bits of a flit and its CRC-32 (R317 to R319, R333, R339, R341), the code RS(544,514) of each codeword (R314), the packing of flits into codewords and their lanes (R315), and which arriving flits it accepts (R316). -/

namespace Sys2Proof.Machine

/-! ### CRC-32 (R317) -/

/-- One bit into the CRC register of IEEE 802.3, whose polynomial x04C1_1DB7 stands reflected, lowest bit first. -/
def crcBit (r : Nat) (b : Bool) : Nat :=
  if (r % 2 == 1) != b then (r / 2) ^^^ 0xEDB88320 else r / 2

/-- The register after the low n bits of a word, lowest first. -/
def crcRun (r x n : Nat) : Nat := (List.range n).foldl (fun a i => crcBit a (x.testBit i)) r

/-- The CRC-32 of the low 2,016 bits of a flit. -/
def crcOf (x : Nat) : Nat := crcRun 0xFFFFFFFF x 2016 ^^^ 0xFFFFFFFF

/-- A pattern of wrong bits in a flit leaves its CRC correct: the code is linear (R316). -/
def crcBlind (x : Nat) : Bool := crcRun 0 x 2016 == bits x 2016 32

/-! ### The bits of a flit (R317, R318) -/

/-- Nibbles, words or numbers of w bits laid one after another, the first lowest. -/
def packed (w : Nat) (l : List Nat) : Nat := l.foldr (fun x a => x % 2 ^ w + a * 2 ^ w) 0

/-- The widest unit of 16, 8, 4, 2 or 1 nibbles that divides n (DESIGN CHOICE, log 142). -/
def unitOf (n : Nat) : Nat := if n % 16 = 0 then 16 else if n % 8 = 0 then 8 else if n % 4 = 0 then 4 else if n % 2 = 0 then 2 else 1

/-- The number of an atomic among the operations. -/
def atomNo : AtomFn → Nat
  | .add => 0 | .sub => 1 | .and => 2 | .or => 3 | .xor => 4 | .min => 5 | .max => 6 | .minu => 7 | .maxu => 8 | .fadd => 9
  | .fmin => 10 | .fmax => 11 | .swap => 12 | .cas => 13

/-- Operation number, nibbles of a unit, units, and operand area of an access (R318, R319; DESIGN CHOICE, log 142): of a flit pair the first
flit holds the compared values and the second the new ones. -/
def ReqBody.content (b : ReqBody) : Nat × Nat × Nat × Nat :=
  match b.kind with
  | .load n => (0, unitOf n, n / unitOf n, 0)
  | .store l => (1, unitOf l.length, l.length / unitOf l.length, ofNibs l)
  | .post _ c n => (2, 8, 1, c + n * 64)
  | .atomic fn ops =>
    let first := ops.map (fun x => x.1.toNat)
    let new := ops.map (fun x => x.2.toNat)
    (3 + atomNo fn, 8, ops.length,
      packed 32 (if fn != .cas || b.pair then first else if b.second then new else first ++ new))

/-- The body of a FABRIC_REQ flit (R318). -/
def ReqBody.bits (b : ReqBody) : Nat :=
  let (op, w, n, area) := ReqBody.content b
  b.addr.toNat + (Config.flitOp op).toNat * 2 ^ 64 + (Config.flitWidth w).toNat * 2 ^ 70 + b2n b.pair * 2 ^ 73 + b.tag % 2 ^ 16 * 2 ^ 74 +
    b.key % 2 ^ 16 * 2 ^ 90 + b.tile % 2 ^ 14 * 2 ^ 106 + n % 2 ^ 8 * 2 ^ 120 + area % 2 ^ 1824 * 2 ^ 128

/-- The body of a FABRIC_RSP flit (R318). -/
def RspBody.bits (b : RspBody) : Nat :=
  b.tag % 2 ^ 16 + b.status.code * 2 ^ 16 +
    (if b.words.isEmpty then ofNibs b.data else packed 32 (b.words.map BitVec.toNat)) % 2 ^ 1920 * 2 ^ 32

/-- A block slot of a REDUCE body (R333). -/
def WireBlock.bits (w : WireBlock) : Nat :=
  w.maxExp % 256 + b2n w.ovf * 2 ^ 8 + b2n w.nonfin * 2 ^ 9 + b2n w.poison * 2 ^ 10 + b2n w.sel * 2 ^ 11 +
    packed 8 (w.elems.map (fun x => (BitVec.ofInt 8 x).toNat)) * 2 ^ 16

/-- The code of a pass (R333). -/
def Pass.code : Pass → Nat
  | .scatter => 0 | .gather => 1 | .rerunScatter => 2 | .rerunRequest => 3

/-- The bodies of REDUCE, NORM and NORM_RESULT flits (R333, R339, R341). -/
def ReduceBody.bits (b : ReduceBody) : Nat :=
  b.chan % 32 + Pass.code b.pass * 2 ^ 5 + b.blocks.length % 8 * 2 ^ 7 + b.scale % 256 * 2 ^ 10 + b.first % 2 ^ 30 * 2 ^ 18 +
    packed 272 (b.blocks.map WireBlock.bits) * 2 ^ 48
def NormBody.bits (b : NormBody) : Nat :=
  b.first % 2 ^ 20 + b.sums.length % 8 * 2 ^ 20 + packed 1 (b.sums.map (fun x => b2n x.2)) * 2 ^ 23 +
    packed 320 (b.sums.map (fun x => (BitVec.ofInt 320 x.1).toNat)) * 2 ^ 32
def NormResultBody.bits (b : NormResultBody) : Nat :=
  b.first % 2 ^ 20 + b.entries.length % 32 * 2 ^ 20 + packed 96 (b.entries.map (fun x => x.1.toNat + x.2.toNat * 2 ^ 64)) * 2 ^ 32

/-- KIND and body bits (R318). -/
def Body.kind : Body → Nat
  | .req _ => 1 | .rsp _ => 2 | .reduce _ => 3 | .norm _ => 4 | .normResult _ => 5
def Body.bits : Body → Nat
  | .req b => ReqBody.bits b
  | .rsp b => RspBody.bits b
  | .reduce b => ReduceBody.bits b
  | .norm b => NormBody.bits b
  | .normResult b => NormResultBody.bits b

/-- The 2,048 bits of a flit as a link of this module sends it (R317). -/
def State.flitBits (s : State) (x : Sent) : Nat :=
  let link := x.seq % 4096 * 2 ^ 4 + x.ack % 4096 * 2 ^ 16 + b2n x.nak * 2 ^ 28 + x.slot % 1024 * 2 ^ 43
  let v := match x.flit with
    | some f => Body.kind f.body + link + f.module % 1024 * 2 ^ 29 + f.part % 16 * 2 ^ 39 + b2n f.runtime * 2 ^ 53 + b2n f.poison * 2 ^ 54 +
        Body.bits f.body % 2 ^ 1952 * 2 ^ 64
    | none => link + s.moduleId * 2 ^ 29
  v + crcOf v * 2 ^ 2016

/-! ### The code of the links (R314) -/

/-- Product in GF(2^10) on x^10 + x^3 + 1, the field of IEEE 802.3 clause 91 (PRESUMED, log 143). -/
def rsMul (a b : Nat) : Nat :=
  ((List.range 10).foldl (fun (acc : Nat × Nat) i =>
    (if b.testBit i then acc.1 ^^^ acc.2 else acc.1, if acc.2.testBit 9 then (acc.2 * 2) ^^^ 0x409 else acc.2 * 2)) (0, a)).1

/-- Power, by the ten low bits of the exponent. -/
def rsPow (a n : Nat) : Nat :=
  ((List.range 10).foldl (fun (acc : Nat × Nat) i =>
    (if n.testBit i then rsMul acc.1 acc.2 else acc.1, rsMul acc.2 acc.2)) (1, a)).1

/-- α to a power, α = x; and the inverse of an element that is not zero. -/
def rsAlpha (n : Nat) : Nat := rsPow 2 (n % 1023)
def rsInv (a : Nat) : Nat := rsPow a 1022

/-- The generator polynomial of clause 91, the product of x + α^j for j from 0 to 29: coefficients of x^29 to x^0, without the leading one
(PRESUMED, log 143). -/
def rsGenerator : List Nat :=
  (((List.range 30).foldl (fun (g : List Nat) j => List.zipWith (fun a b => a ^^^ b) (g ++ [0]) (0 :: g.map (rsMul (rsAlpha j)))) [1])).drop 1

/-- The 30 parity symbols of 514 data symbols: the remainder of the data, the first symbol the highest power, over the generator
(PRESUMED, log 143). -/
def rsParity (d : List Nat) : List Nat :=
  d.foldl (fun r x =>
    let f := x ^^^ nth 0 r 0
    List.zipWith (fun a g => a ^^^ rsMul f g) (r.drop 1 ++ [0]) rsGenerator) (List.replicate 30 0)

/-- The codeword of 514 data symbols. -/
def rsEncode (d : List Nat) : List Nat := d ++ rsParity d

/-- The 30 syndromes of a codeword that arrives with symbol errors: those of the errors alone. -/
def rsSyndromes (e : SymErrs) : List Nat :=
  (List.range 30).map (fun j => e.foldl (fun a x => a ^^^ rsMul x.2 (rsAlpha (j * (543 - x.1)))) 0)

/-- The state of the search for the shortest recurrence of the syndromes. -/
structure RsSearch where
  c : List Nat
  b : List Nat
  len : Nat
  gap : Nat
  last : Nat
  deriving DecidableEq, Repr

/-- Sum of two polynomials, lowest coefficient first. -/
def polyAdd : List Nat → List Nat → List Nat
  | [], y => y
  | x, [] => x
  | a :: x, b :: y => (a ^^^ b) :: polyAdd x y

/-- One syndrome taken into the search. -/
def RsSearch.step (syn : List Nat) (x : RsSearch) (n : Nat) : RsSearch :=
  let d := (List.range (x.len + 1)).foldl (fun a i => a ^^^ rsMul (nth 0 x.c i) (nth 0 syn (n - i))) 0
  if d = 0 then { x with gap := x.gap + 1 }
  else
    let f := rsMul d (rsInv x.last)
    let c := polyAdd x.c (List.replicate x.gap 0 ++ x.b.map (rsMul f))
    if 2 * x.len ≤ n then { c := c, b := x.c, len := n + 1 - x.len, gap := 1, last := d } else { x with c := c, gap := x.gap + 1 }

/-- A polynomial at a point. -/
def polyAt (p : List Nat) (x : Nat) : Nat := p.foldr (fun a r => a ^^^ rsMul r x) 0

/-- What the decoder finds: the errors that it corrects, or none where the codeword is uncorrectable (R314: up to 15 symbols). -/
def rsDecode (e : SymErrs) : Option SymErrs :=
  if e.isEmpty then some []
  else
    let syn := rsSyndromes e
    let s := (List.range 30).foldl (RsSearch.step syn) { c := [1], b := [1], len := 0, gap := 1, last := 1 }
    let at' (i : Nat) : Nat := rsInv (rsAlpha (543 - i))
    let roots := (List.range 544).filter (fun i => polyAt s.c (at' i) == 0)
    if 15 < s.len || roots.length != s.len then none
    else
      let omega := (List.range 30).map (fun i => (List.range (i + 1)).foldl (fun a j => a ^^^ rsMul (nth 0 s.c j) (nth 0 syn (i - j))) 0)
      let slope (x : Nat) : Nat := (List.range s.c.length).foldl (fun a j =>
        if j % 2 = 1 then a ^^^ rsMul (nth 0 s.c j) (rsPow x (j - 1)) else a) 0
      some (roots.map (fun i => (i, rsMul (rsAlpha (543 - i)) (rsMul (polyAt omega (at' i)) (rsInv (slope (at' i)))))))

/-- The symbols that are wrong after correction, where the decoder miscorrects. -/
def rsLeft (e f : SymErrs) : SymErrs :=
  let all := f.foldl (fun (a : SymErrs) x =>
    match a.find? (fun y => y.1 == x.1) with
    | some y => (x.1, x.2 ^^^ y.2) :: a.filter (fun z => z.1 != x.1)
    | none => x :: a) e
  all.filter (fun x => x.2 != 0)

/-! ### Codewords and lanes (R314, R315) -/

/-- The data bits of codeword n since the codeword frame of link k was aligned: the flits sent stand back to back, least significant bit
first. -/
def State.codewordBits (s : State) (k n : Nat) : Nat :=
  let l := s.link k
  let a := 5140 * n
  let i := a / 2048
  packed 2048 (((l.wire.drop (l.aligned + i)).take 4).map s.flitBits) / 2 ^ (a - 2048 * i) % 2 ^ 5140

/-- The 544 symbols of that codeword, and those that lane i carries: symbol j travels on lane j mod 8. -/
def State.codeword (s : State) (k n : Nat) : List Nat :=
  rsEncode ((List.range 514).map (fun i => bits (s.codewordBits k n) (10 * i) 10))
def laneSymbols (cw : List Nat) (i : Nat) : List Nat := ((List.zip (List.range cw.length) cw).filter (fun x => x.1 % 8 == i)).map (·.2)

/-! ### Arrival (R315, R316) -/

/-- Bits of the flit at position p of the frame that errors left in codeword c make wrong. -/
def wrongBits (p c : Nat) (left : SymErrs) : Nat :=
  left.foldl (fun a x =>
    if 514 ≤ x.1 then a
    else
      let o := 5140 * c + 10 * x.1
      a ^^^ ((if 2048 * p ≤ o then x.2 * 2 ^ (o - 2048 * p) else x.2 / 2 ^ (2048 * p - o)) % 2 ^ 2048)) 0

/-- What the receiver makes of the codewords that bring a flit (R315, R316). -/
structure Arrival where
  /-- Symbols corrected and uncorrectable codewords among those that this flit is the first to touch. -/
  corrected : Nat
  uncorrectable : Nat
  /-- Codewords that it is the first to touch. -/
  begun : Nat
  /-- No codeword that carries its bits was uncorrectable, and its CRC-32 is correct. -/
  codeOk : Bool
  crcOk : Bool
  /-- The errors of the codeword that it leaves unfinished. -/
  last : SymErrs
  deriving DecidableEq, Repr

/-- The flit at the link's position of the frame: it lies in one codeword or in two, and the first may have begun with an earlier flit. -/
def Link.arrival (l : Link) (h : RxHdr) : Arrival :=
  let p := l.rxPos
  let c0 := 2048 * p / 5140
  let c1 := (2048 * p + 2047) / 5140
  let fresh := 2048 * p % 5140 == 0
  let e0 := if fresh then h.cw0 else l.rxCw
  let cws := (c0, e0, fresh) :: if c1 = c0 then [] else [(c1, h.cw1, true)]
  let new := (cws.filter (fun x => x.2.2)).map (fun x => rsDecode x.2.1)
  let codeOk := cws.all (fun x => (rsDecode x.2.1).isSome)
  { corrected := new.foldl (fun n x => n + (x.getD []).length) 0, uncorrectable := (new.filter (·.isNone)).length, begun := new.length,
    codeOk := codeOk,
    crcOk := crcBlind (cws.foldl (fun a x => a ^^^ wrongBits p x.1 (rsLeft x.2.1 ((rsDecode x.2.1).getD []))) 0),
    last := if c1 = c0 then e0 else h.cw1 }

end Sys2Proof.Machine
end

