-- ==== Sys2Proof/Machine/Links.lean ====
section
/-! DEFINITION. The Draiz links (11_links_and_reduction.md): acceptance and replay (R315, R316, R320 to R323), bodies and their destinations (R294, R302, R318), states and training (R324 to R327). -/

namespace Sys2Proof.Machine

/-- The sequence numbers that a flit takes as sent: an IDLE flit takes none (DEDUCED, log 24). -/
def sentSeqs (x : Sent) : Nat := b2n x.flit.isSome

/-- A counter of a link raised by n, with NONZERO where it counts anything (R346). -/
def State.countLink (s : State) (k o lo w n : Nat) : State :=
  if n = 0 then s else (s.bump o lo w n).wrF (oLinkReplay k) 31 1 1

/-- Symbols corrected on a link: a report where the count leaves 0 or reaches a multiple of 1,024 (R346, R468). -/
def State.linkCorrected (s : State) (k n : Nat) : State :=
  let old := (s.rd (oLinkFecSym k)).toNat
  let s1 := s.countLink k (oLinkFecSym k) 0 32 n
  let new := (s1.rd (oLinkFecSym k)).toNat
  if old = new then s1 else if old = 0 || old / 1024 != new / 1024 then s1.raiseOwner .corrected .ok (srcLink k) else s1

/-- The sent flits that an ACK covers leave the replay buffer (R322). -/
def ackFlits (ack : Nat) (l : List Sent) : List Sent :=
  match indexOf (fun x => (x.seq + sentSeqs x - 1) % 4096 == ack) l with
  | some i => l.drop (i + 1)
  | none => l

/-- A count of the window has reached its limit: that of the replays, or that of the uncorrectable codewords (R325). -/
def State.limitMet (s : State) (k : Nat) (replays : Bool) : Bool :=
  if replays then decide (s.rdF (oLinkLimits k) 8 8 ≤ (s.link k).winReplay)
  else decide (s.rdF (oLinkLimits k) 0 8 ≤ (s.link k).winUncorr)

/-- The window's counts have reached a limit (R325). -/
def State.windowLimit (s : State) (k : Nat) : Bool := s.limitMet k false || s.limitMet k true

/-- Codewords pass in the window under way; a new window begins where 2^`WINDOW` of them have passed without a limit reached (R325). -/
def State.passWindow (s : State) (k n : Nat) : State :=
  let l := s.link k
  if 2 ^ s.rdF (oLinkLimits k) 16 5 ≤ l.winCws + n && !s.windowLimit k then
    s.putLink k { l with winCws := 0, winUncorr := 0, winReplay := 0 }
  else s.putLink k { l with winCws := l.winCws + n }

/-- What the receiver's code, CRC and the link header do (R315, R316, R322, R325, R346): counters, ACK and NAK. -/
def State.rxHeader (s : State) (k : Nat) (h : RxHdr) (a : Arrival) : State :=
  let s1 := s.linkCorrected k a.corrected
  let s2 := s1.countLink k (oLinkFecCw k) 0 16 a.uncorrectable
  let s3 := if a.codeOk && !a.crcOk then s2.countLink k (oLinkFecCw k) 16 8 1 else s2
  let l := s3.link k
  let l1 := { l with winUncorr := l.winUncorr + a.uncorrectable, rxPos := (l.rxPos + 1) % 1285, rxCw := a.last }
  (s3.putLink k (if a.codeOk && a.crcOk then { l1 with replay := ackFlits h.ack l1.replay, nakIn := l1.nakIn || h.nak } else l1)).passWindow
    k a.begun

/-- The receiver rejects a flit and asks for a replay once; what follows is discarded until the replay comes (R322). -/
def State.rejectFlit (s : State) (k : Nat) : State := 
  let l := s.link k
  if l.nakOut then s else s.putLink k { l with nakOut := true, nakDue := true }

/-- A flit with a sequence number arrives: where it is accepted (R316, R321), the receiver goes on and f acts on its body. -/
def State.receive (s : State) (k : Nat) (h : RxHdr) (f : State → State) : State :=
  if s.linkState k != lkUp then s
  else
    let a := Link.arrival (s.link k) h
    let s1 := s.rxHeader k h a
    let l := s1.link k
    if a.codeOk && a.crcOk && h.seq == l.rxSeq then
      f (s1.putLink k { l with rxSeq := (l.rxSeq + 1) % 4096, nakOut := false, nakDue := false })
    else s1.rejectFlit k

/-- A flit of another module that passes through (R294): by the crescent's link-to-link path, or over the mesh on the row of its line, to
the departing link. -/
def State.forward (s : State) (k d o : Nat) (h : RxHdr) (body : Body) : State :=
  s.sendLink (hopsThrough k (s.route d).group (o / 256 % 112)) (s.linkFor d o)
    { module := h.module, part := h.partition, runtime := h.runtime, poison := h.poison, via := logicalLink d o, body := body }

/-- The access that a request of another module makes at this home (R301, R318). -/
def remoteAccess (h : RxHdr) (b : ReqBody) : Access :=
  { origin := .remote h.module b.tag, part := h.partition, key := b.key, runtime := h.runtime, fabric := true,
    off := addrOff b.addr, kind := b.kind, retire := false, poison := h.poison, waitFill := false }

/-- A class b11 write at this module (R291, R394, R395): a register write of requester x400 + m, from keeper or standby alone. -/
def State.remoteReg (s : State) (h : RxHdr) (b : ReqBody) : State :=
  let a := remoteAccess h b
  let r : Req := { id := 0x400 + h.module % 1024, ownerCmd := false }
  let o := addrOff b.addr
  match b.kind with
  | .store l =>
    if !s.isKeeperReq r || !h.runtime then
      (s.raiseOwner .accessDenied .notAuthorized (srcCentral 5)).respond h.module b.tag a (Reply.only .notAuthorized)
    else if l.length != 8 || o % 8 != 0 || !((blkOf o).isSome || (decide (twinBase ≤ o) && decide (o < 0x85000000)) ||
        (decide (aliasBase ≤ o) && decide (o < 0x1A0000000))) then
      s.respond h.module b.tag a (Reply.only .badDescriptor)
    else (s.busWrite r o (BitVec.ofNat 32 (ofNibs l))).respond h.module b.tag a (Reply.only .ok)
  | _ => s.respond h.module b.tag a (Reply.only .notAuthorized)

/-- The request that two flits of a pair make together: compared values of the first, new values of the second (R319). -/
def joinPair (x y : ReqBody) : ReqBody :=
  match x.kind, y.kind with
  | .atomic fn a, .atomic _ b => { x with kind := .atomic fn (List.zipWith (fun p q => (p.1, q.2)) a b) }
  | _, _ => x

/-- The tile site on whose row a request of another module enters: that of the home of its offset (R46). -/
def State.entrySite (s : State) (o : Nat) : Nat × Nat := s.homePos (s.physAt o)

/-- A whole request of another module goes to its home: a register write to the control network, another access from the edge port of its
row on the arriving link's crescent (R46, R291, R301, R318; DEDUCED, log 56). -/
def State.deliverReq (s : State) (k : Nat) (h : RxHdr) (b : ReqBody) : State :=
  let c := addrClass b.addr
  let a := remoteAccess h b
  if c = 3 then s.remoteReg h b
  else if c != 1 then s.respond h.module b.tag a (Reply.only .notAuthorized)
  else if !addrPlain b.addr || !populated (addrOff b.addr) b.kind.nibs then
    s.respond h.module b.tag a (Reply.only .badDescriptor)
  else
    let (f, site) := s.entrySite (addrOff b.addr)
    s.sendHome (hopsFromLink k f site) a

/-- A request flit has been accepted on link k (R294, R301, R318, R319): forwarded; or the first of a pair, which waits for the second; or
delivered. -/
def State.takeReq (s : State) (k : Nat) (h : RxHdr) (b : ReqBody) : State :=
  let d := addrModule b.addr
  let l := s.link k
  if d != s.moduleId then s.forward k d (addrOff b.addr) h (.req b)
  else if b.pair then s.putLink k { l with firsts := l.firsts ++ [(h.module, b)] }
  else if b.second then
    match l.firsts.find? (fun x => x.1 == h.module && x.2.tag == b.tag) with
    | some x => (s.putLink k { l with firsts := l.firsts.filter (fun y => y != x) }).deliverReq k h (joinPair x.2 b)
    | none => s
  else s.deliverReq k h b

/-- An operation of this module completes with the answer of another module (R302); one whose tag has been retired is past (R311). -/
def State.finishOp (s : State) (u : Upsets) (tag module : Nat) (r : Reply) : State :=
  match s.ops.find? (fun o => o.tag == tag && o.module == module) with
  | none => s
  | some o =>
    let s1 := { s with ops := s.ops.filter (fun x => !(x.tag == tag && x.module == module)) }
    match o.origin with
    | .dma k true run off n => s1.dmaArrive u k run off n r.st r.data
    | .dma k false _ _ n => s1.dmaAck k n r.st
    | .lane _ _ _ _ _ _ _ => s1.finishThread o.origin r
    | .lanes _ _ _ _ _ => s1.finishThread o.origin r
    | .post _ _ _ => s1.finishThread o.origin r
    | .live _ => s1.runtimeDone o.origin r
    | .order => s1.runtimeDone o.origin r
    | .task _ => s1.runtimeDone o.origin r
    | .runtime => s1
    | .tap => s1
    | .remote _ _ => s1

/-- The tile of a thread that waits for an operation. -/
def Origin.tile : Origin → Option Nat
  | .lane t _ _ _ _ _ _ => some t
  | .lanes t _ _ _ _ => some t
  | .post t _ _ => some t
  | _ => none

/-- A response has been accepted on link k (R302, R311): forwarded; else the answer of a thread's operation travels along its tile's row,
that of another operation is there (R46; DESIGN CHOICE, log 27). A response whose tag has been retired is discarded. -/
def State.takeRsp (s : State) (u : Upsets) (k : Nat) (h : RxHdr) (b : RspBody) : State :=
  if b.dest != s.moduleId then s.forward k b.dest b.off h (.rsp b)
  else
    match s.ops.find? (fun o => o.tag == b.tag && o.module == h.module) with
    | none => s
    | some o =>
      let r : Reply := { st := b.status, data := b.data, words := b.words }
      match o.origin.tile with
      | some t =>
        let (f, site) := s.tilePos t
        let hops := hopsFromLink k f site
        if hops.isEmpty then s.finishOp u b.tag h.module r else s.depart hops (.answer b.tag h.module r)
      | none => s.finishOp u b.tag h.module r

/-- A body of a ring has been accepted on link k: at a channel whose departure links lie on the other crescent it crosses the mesh first
(R332). -/
def State.takeRing (s : State) (u : Upsets) (k p c first : Nat) (b : Body) : State :=
  let d := chanDesc (s.chan p c).desc
  let hops := hopsThrough k d.outGroup (14 * (first % 8) + first / 8 % 14)
  if !(s.chan p c).present then s
  else if hops.isEmpty then s.ringAt u p c b else s.depart hops (.ring p c b)

/-- IDLE_FLIT (R318): ACK and NAK alone; it takes no sequence number (DEDUCED, log 24). -/
def execIdleFlit (k : Nat) (h : RxHdr) (s : State) : Out :=
  ran (.idleFlit k h)
    (if s.linkState k != lkUp then s
     else
       let a := Link.arrival (s.link k) h
       let s1 := s.rxHeader k h a
       if a.codeOk && a.crcOk then s1 else s1.rejectFlit k)

/-- FABRIC_REQ (R301, R318). -/
def execFabricReq (k : Nat) (h : RxHdr) (b : ReqBody) (s : State) : Out :=
  ran (.fabricReq k h b) (s.receive k h (fun v => v.takeReq k h b))

/-- FABRIC_RSP (R302). -/
def execFabricRsp (k : Nat) (h : RxHdr) (b : RspBody) (s : State) (u : Upsets := []) : Out :=
  ran (.fabricRsp k h b u) (s.receive k h (fun v => v.takeRsp u k h b))

/-- REDUCE (R335): the channel of the header's partition (DEDUCED, log 25). -/
def execReduce (k : Nat) (h : RxHdr) (b : ReduceBody) (s : State) (u : Upsets := []) : Out :=
  ran (.reduce k h b u) (s.receive k h (fun v => v.takeRing u k (h.partition % 16) (b.chan % 32) b.first (.reduce b)))

/-- A body for the norm channel of the header's partition. -/
def State.takeNorm (s : State) (u : Upsets) (k : Nat) (h : RxHdr) (first : Nat) (b : Body) : State :=
  match s.normChan (h.partition % 16) with
  | some c => s.takeRing u k (h.partition % 16) c first b
  | none => s

/-- NORM (R339). -/
def execNorm (k : Nat) (h : RxHdr) (b : NormBody) (s : State) (u : Upsets := []) : Out :=
  ran (.norm k h b u) (s.receive k h (fun v => v.takeNorm u k h b.first (.norm b)))

/-- NORM_RESULT (R341). -/
def execNormResult (k : Nat) (h : RxHdr) (b : NormResultBody) (s : State) (u : Upsets := []) : Out :=
  ran (.normResult k h b u) (s.receive k h (fun v => v.takeNorm u k h b.first (.normResult b)))

/-- RESERVED_KIND_FLIT (R318): accepted, dropped and counted. -/
def execReservedKindFlit (k : Nat) (h : RxHdr) (kind : Nat) (s : State) : Out :=
  ran (.reservedKindFlit k h kind) (s.receive k h (fun v => v.countLink k (oLinkFecCw k) 24 8 1))

/-! ### The transmitter (R322) -/

/-- The flits that the far end has not accepted are resent (R322). -/
def State.resend (s : State) (k : Nat) : State :=
  let l := s.link k
  s.putLink k { l with wire := l.wire ++ l.replay }

/-- LINK_REPLAY (R322): on NAK. -/
def execLinkReplay (k : Nat) (s : State) : Out :=
  ran (.linkReplay k)
    (let l := s.link k
     if s.linkState k != lkUp || !l.nakIn then s
     else ((s.putLink k { l with nakIn := false, winReplay := l.winReplay + 1 }).resend k).countLink k (oLinkReplay k) 0 16 1)

/-! ### Training (R325 to R327) -/

/-- A training has failed: the third in a row puts the link DOWN (R325, R480; DEDUCED, log 58). -/
def State.trainFailed (s : State) (k : Nat) : State :=
  let l := s.link k
  let s1 := (s.putLink k { l with fails := l.fails + 1 }).raiseOwner .startUp .ok (srcLink k)
  if 3 ≤ l.fails + 1 then s1.setLinkState k lkDown else s1

/-- What training detected, and the peer's identity (R326, R346). -/
def State.showPeer (s : State) (k : Nat) (t : TrainResult) : State :=
  (((s.wrF (oLinkStatus k) 4 8 t.laneOk.toNat).wrF (oLinkStatus k) 12 1 (b2n t.reversed)).wrF (oLinkStatus k) 13 8
    t.inverted.toNat).wr (oLinkPeer k) (BitVec.ofNat 32 (t.module % 1024 + t.link % 64 * 2 ^ 10 + 2 ^ 16))

/-- The link enters UP with its codeword frame aligned (R315, R326): after TRAINING with SEQ and ACK reset, flits not accepted going first again; after RETRAIN with
the replay buffer resent (R325, DEDUCED, log 22). -/
def State.linkUp (s : State) (k : Nat) : State :=
  let l := s.link k
  let clean := { l with nakOut := false, nakDue := false, nakIn := false, winUncorr := 0, winReplay := 0, winCws := 0, fails := 0,
                        rxPos := 0, rxCw := [], aligned := l.wire.length }
  let s1 := if s.linkState k = lkRetrain then (s.putLink k clean).resend k
    else s.putLink k { clean with txSeq := 0, rxSeq := 0, waiting := l.replay.filterMap (·.flit) ++ l.waiting, replay := [] }
  (s1.wrF (oLinkStatus k) 3 1 0).setLinkState k lkUp

/-- A training of link k ends (R325 to R327). -/
def State.train (s : State) (k : Nat) (t : TrainResult) : State :=
  let st := s.linkState k
  if st != lkTraining && st != lkRetrain then s
  else if t.failed then s.trainFailed k
  else
    let s1 := s.showPeer k t
    let e := s1.rd (oLinkExpect k)
    if fld e 0 10 = t.module % 1024 && fld e 10 6 = t.link % 64 then s1.linkUp k
    else ((s1.wrF (oLinkStatus k) 3 1 1).raiseOwner .link .ok (srcLink k)).setLinkState k lkDown

/-- LINK_TRAINING (R326). -/
def execLinkTraining (k : Nat) (t : TrainResult) (s : State) : Out := ran (.linkTraining k t) (s.train k t)

/-- LINK_TRAINING_TIMEOUT (R326): a training whose order exceeds its bound has failed. -/
def execLinkTrainingTimeout (k order : Nat) (s : State) : Out :=
  ran (.linkTrainingTimeout k order)
    (let st := s.linkState k
     if st != lkTraining && st != lkRetrain then s else s.trainFailed k)

/-- LINK_RETRAIN (R325): a limit is reached within the window, that of the replays or that of the uncorrectable codewords. -/
def execLinkRetrain (k : Nat) (replays : Bool) (s : State) : Out :=
  ran (.linkRetrain k replays) (if s.linkState k == lkUp && s.limitMet k replays then s.enterRetrain k else s)

/-- LANE_SIGNAL_LOSS (R325). -/
def execLaneSignalLoss (k lane : Nat) (s : State) : Out :=
  ran (.laneSignalLoss k lane) ((s.wrF (oLinkStatus k) (4 + lane) 1 0).enterRetrain k)

end Sys2Proof.Machine
end

