-- ==== Sys2Proof/Machine/Recorder.lean ====
section
/-! DEFINITION. The event recorder's report path and log (R473 to R481): trees, the recorder rota, the input queue, records and ring events. -/

namespace Sys2Proof.Machine

/-! ### Trees (R473) -/

/-- The members of a report tree in slot order: field trees 0 to 63, the north, south, west and east crescent trees 64 to 67,
link trees 68 to 71. -/
def treeMembers (n : Nat) : List Src :=
  if n < 64 then
    (List.range sites).map (srcSite n) ++ (List.range 8).map (fun c => { kind := 1, index := n * 256 + c })
  else if n = 64 then
    [srcCentral 2, srcCentral 4] ++ (List.range 16).map (fun h => { kind := 6, index := h }) ++
      (List.range 17).map (fun r => { kind := 7, index := r })
  else if n = 65 then [0, 1, 3, 5, 6, 7].map srcCentral ++ [{ kind := 8, index := 0 }]
  else if n = 66 then { kind := 3, index := 0 } :: (List.range 16).map (fun c => { kind := 4, index := c })
  else if n = 67 then { kind := 3, index := 1 } :: (List.range 16).map (fun c => { kind := 4, index := 16 + c })
  else (List.range 16).map (fun i => srcLink (16 * (n - 68) + i))

/-- A report with the counts of the reports that its source has not sent, which leave with it (R473, DEDUCED, log 125). -/
def Recorder.send (r : Recorder) (p : Report) : Recorder × Report :=
  let mine (e : Nat × Nat) : Bool := e.1 / 32 == unsentKey p.src 0 / 32
  ({ r with unsent := r.unsent.filter (fun e => !mine e) },
   { p with unsent := (r.unsent.filter mine).map (fun e => (e.1 % 32, e.2)) })

/-- One slot of a report tree passes: its member's oldest report enters the buffer; a full buffer halts the tree (R473). -/
def State.treeSlot (s : State) (n : Nat) : State :=
  let r := s.recorder
  let buf := tget [] r.buffers n
  let pos := tget 0 r.treePos n
  let ms := treeMembers n
  if 4 ≤ buf.length then s
  else
    let r1 := { r with treePos := tset 0 r.treePos n ((pos + 1) % ms.length) }
    match ms[pos]? with
    | none => { s with recorder := r1 }
    | some x =>
      match indexOf (fun p => p.src == x) r.places with
      | none => { s with recorder := r1 }
      | some i =>
        match r.places[i]? with
        | none => { s with recorder := r1 }
        | some p =>
          let (r2, q) := r1.send p
          { s with recorder := { r2 with places := dropAt r.places i, buffers := tset [] r.buffers n (buf ++ [q]) } }

/-! ### The recorder rota and the input queue (R473) -/

/-- The number of buffers that the recorder rota serves. -/
def trees : Nat := 72

/-- `EVR_LOST` raised: one of its counts, and NONZERO (R485). -/
def State.lostReports (s : State) (lo w n : Nat) : State := if n = 0 then s else (s.bump oEvrLost lo w n).wrF oEvrLost 31 1 1

/-- Reports counted in `EVR_CLASS_COUNT`: the report, and the counts that ride on it. Counters stop at their largest value. -/
def countReports (m : Tab Nat) (p : Report) : Tab Nat :=
  ((p.cls.code, 1) :: p.unsent).foldl (fun t e => tset 0 t e.1 (satAdd (tget 0 t e.1) e.2 (2 ^ 32 - 1))) m

/-- A report reaches the input queue: counted by class, queued or dropped (R473, R474). -/
def State.intake (s : State) (p : Report) : State :=
  let r := s.recorder
  let s1 := { s with recorder := { r with counts := countReports r.counts p } }
  let s2 := s1.lostReports 16 15 ((p.unsent.map (·.2)).foldl (· + ·) 0)
  if 64 ≤ r.queue.length then s2.lostReports 0 16 1
  else
    { s2 with recorder := { s2.recorder with
        queue := s2.recorder.queue ++ [{ rep := p, steps := s.steps, epoch := s.rd oEvrEpoch }] } }

/-- One slot of the recorder rota passes (R473). -/
def State.recorderSlot (s : State) : State :=
  let r := s.recorder
  let pos := r.rotaPos
  let s1 := { s with recorder := { r with rotaPos := (pos + 1) % trees } }
  match tget [] r.buffers pos with
  | [] => s1
  | p :: rest => ({ s1 with recorder := { s1.recorder with buffers := tset [] r.buffers pos rest } }).intake p

/-- RECORDER_TAKE (R473). -/
def execRecorderTake (s : State) : Out := ran .recorderTake (if s.power.off then s else s.recorderSlot)

/-! ### Records and events (R474 to R481) -/

/-- The snapshot of a record: central registers are read now (R479). -/
def State.snapWords (s : State) (l : List Snap) : List Word :=
  l.map (fun x =>
    match x with
    | .off => 0
    | .val v => v
    | .central o => s.readReg Config.recorderId.toNat o)

/-- The ring events of a report (R481): VALUE1 is the record's sequence number, xFFFF_FFFF where it added none. -/
def State.ringEvents (s : State) (p : Report) (v1 : Nat) : State :=
  if (s.recorder.classCfg p.cls.code).testBit 1 then
    (p.rings.foldl sadd []).foldl (fun t r => t.sendEvent r p.status.code (p.cls.code + srcCode p.src * 32) v1) s
  else s

/-- A new record, numbered by `EVR_NEXT` (R474, R477). -/
def State.addRecord (s : State) (q : Queued) : State :=
  let n := (s.rd oEvrNext).toNat
  let x : Record := { seq := n, cls := q.rep.cls.code, status := q.rep.status.code, src := srcCode q.rep.src,
                      steps := q.steps, epoch := q.epoch, rep := 0, snap := s.snapWords q.rep.snap }
  let s1 := { s with recorder := { s.recorder with log := s.recorder.log ++ [x] } }
  (s1.wr oEvrNext (BitVec.ofNat 32 (n + 1))).ringEvents q.rep n

/-- A queued report is recorded: merged into the newest record, skipped at a full log, or added (R475 to R478, R481). -/
def State.record (s : State) (q : Queued) : State :=
  let r := s.recorder
  let p := q.rep
  if !(r.classCfg p.cls.code).testBit 0 then s.ringEvents p 0xFFFFFFFF
  else
    match r.log.getLast? with
    | some x =>
      if x.cls = p.cls.code && x.status = p.status.code && x.src = srcCode p.src then
        { s with recorder := { r with log := r.log.dropLast ++ [{ x with rep := satAdd x.rep 1 65535 }] } }
      else if 4096 ≤ r.log.length then (s.bump oEvrSkipped 0 32 1).ringEvents p 0xFFFFFFFF
      else s.addRecord q
    | none => s.addRecord q

/-- The boot history of R484 has yet to take sequence numbers 0 and 1: no report is recorded before it (DEDUCED, log 68). -/
def State.historyDue (s : State) : Bool := s.rdF oMcState 0 4 == stStartup && decide (s.rdF oSuStatus 0 4 ≤ 3)

/-- RECORD_WRITE (R475): the recorder writes the report at the head of its queue. -/
def execRecordWrite (s : State) : Out :=
  ran .recordWrite
    (match s.recorder.queue with
     | [] => s
     | q :: rest => if s.historyDue then s else ({ s with recorder := { s.recorder with queue := rest } }).record q)

end Sys2Proof.Machine
end

