-- ==== Sys2Proof/Machine/Rotas.lean ====
section
/-! DEFINITION. Rotas (R39 to R44, R320, R396, R473): whose turn it is, what a slot carries, and what comes off the last rota of its route (R45, R58, R240, R273, R294, R302, R332). -/

namespace Sys2Proof.Machine

/-! ### Rotas -/

/-- The number of a resource that a rota of a schedule serves. -/
def rotaKey : RotaRes → Nat
  | .mesh f site dir => (f * sites + site) * 4 + dir
  | .edge side line => 59000 + side * 112 + line
  | .link k => 60000 + k
  | .slice h n => 61000 + h * 16 + n
  | .interHalf d => 62000 + d
  | .config => 63000
  | .fieldTree f => 64000 + f
  | .crescentTree n => 64100 + n
  | .linkTree n => 64200 + n
  | .recorder => 64300

/-- The rota of a resource before a schedule names its slots: empty; the configuration path has five slots, the first shared
by the 32 control cores (R396). -/
def rotaDefault : RotaRes → Rota
  | .config => { slots := [.set (List.range 32), .src 32, .src 33, .src 34, .src 35], pos := 0, sub := [] }
  | _ => { slots := [], pos := 0, sub := [] }

/-- The rota in force of a resource. -/
def State.rota (s : State) (r : RotaRes) : Rota := tget (rotaDefault r) s.rotas (rotaKey r)

/-- A rota written. -/
def State.putRota (s : State) (r : RotaRes) (x : Rota) : State :=
  { s with rotas := tset (rotaDefault r) s.rotas (rotaKey r) x }

/-- The source whose turn it is (R39, R40). -/
def Rota.turn (x : Rota) : Option Nat :=
  match x.slots[x.pos]? with
  | some (.src i) => some i
  | some (.set l) => l[tget 0 x.sub x.pos % l.length]?
  | _ => none

/-- The slot passes: the next slot comes, and a source set's next member has its next turn (R39, R40). -/
def Rota.advance (x : Rota) : Rota :=
  let y := match x.slots[x.pos]? with
    | some (.set l) => { x with sub := tset 0 x.sub x.pos ((tget 0 x.sub x.pos + 1) % l.length) }
    | _ => x
  { y with pos := (x.pos + 1) % x.slots.length }

/-- The source identifiers of a Draiz link's rota: (module id, partition) as module × 16 + partition, and the link adder of a
partition (R42, R320, DESIGN CHOICE, log 26). -/
def adderId (p : Nat) : Nat := 16384 + p
def flitSource (f : Flit) : Nat :=
  match f.body with
  | .reduce _ => adderId f.part
  | .norm _ => adderId f.part
  | .normResult _ => adderId f.part
  | .req _ => f.module * 16 + f.part
  | .rsp _ => f.module * 16 + f.part

/-- A flit put on the wire with the link's SEQ, ACK and NAK (R317, R321, R322). -/
def Link.send (l : Link) (slot : Nat) (f : Option Flit) : Link :=
  let x : Sent := { flit := f, slot := slot, seq := l.txSeq, ack := (l.rxSeq + 4095) % 4096, nak := l.nakDue }
  { l with wire := l.wire ++ [x], nakDue := false, txSeq := (l.txSeq + sentSeqs x) % 4096,
           replay := if f.isSome then l.replay ++ [x] else l.replay }

/-- One slot of a link's rota (R320, R322): the flit of its source that waits longest, else IDLE. The rota stands still unless
the link is UP with no replay asked for. -/
def State.linkSlot (s : State) (k : Nat) : State :=
  let l := s.link k
  if s.linkState k != lkUp || l.nakIn then s
  else
    let x := s.rota (.link k)
    let s1 := s.putRota (.link k) x.advance
    let mine := match x.turn with
      | some i => if l.replay.length < 128 then indexOf (fun f => flitSource f == i) l.waiting else none
      | none => none
    match mine with
    | some i => s1.putLink k (({ l with waiting := dropAt l.waiting i }).send x.pos l.waiting[i]?)
    | none => s1.putLink k (l.send x.pos none)

/-! ### Flits on the mesh, at the slices and at the inter-half link -/

/-- A flit has left the last rota of its route: an access is at its home or its slice, a flit at its departure link, an answer at its
requester, a body of a ring at the channel's adder (R45, R58, R240, R273, R294, R302, R332). -/
def State.deliver (s : State) (u : Upsets) : Cargo → State
  | .request a => s.atHome a
  | .depart k f => s.enqueue k f
  | .reply a r => s.finishThread a.origin r
  | .answer tag m r => s.finishOp u tag m r
  | .ring p c b => s.ringAt u p c b

/-- The source's flit that waits longest at a rota leaves it: one that has another rota ahead joins the queue of its source there
(R39, R296). -/
def State.carry (s : State) (u : Upsets) (r : RotaRes) (src : Nat) : State :=
  match indexOf (fun x => x.hops.head? == some (r, src)) s.transit with
  | none => s
  | some n =>
    match s.transit[n]? with
    | none => s
    | some x =>
      let s1 := { s with transit := dropAt s.transit n }
      if x.hops.tail.isEmpty then s1.deliver u x.cargo
      else { s1 with transit := s1.transit ++ [{ x with hops := x.hops.tail }] }

/-- One slot of a rota on the module passes: it carries one flit of the source whose turn it is, or none (R39, R44). -/
def State.meshSlot (s : State) (u : Upsets) (r : RotaRes) : State :=
  let x := s.rota r
  let s1 := s.putRota r x.advance
  match x.turn with
  | some i => s1.carry u r i
  | none => s1

/-- A slot of a rota passes (R39). Register accesses take effect at their own commands, so that a slot of the configuration path only
passes (DESIGN CHOICE, log 27). The rotas of the core logic and of the links stand still while that logic is gated; the crescents'
report path runs on (R429, R430). -/
def State.slotPasses (s : State) (u : Upsets) (r : RotaRes) : State :=
  let core (t : State) : State := if s.corePowered then t else s
  match r with
  | .link k => s.linkSlot k
  | .fieldTree f => core (s.treeSlot f)
  | .crescentTree n => if s.power.off then s else s.treeSlot (64 + n)
  | .linkTree n => core (s.treeSlot (68 + n))
  | .recorder => if s.power.off then s else s.recorderSlot
  | .config => if s.power.off then s else s.putRota r (s.rota r).advance
  | .mesh _ _ _ => core (s.meshSlot u r)
  | .edge _ _ => core (s.meshSlot u r)
  | .slice _ _ => core (s.meshSlot u r)
  | .interHalf _ => core (s.meshSlot u r)

/-- ROTA_SLOT (R39). -/
def execRotaSlot (r : RotaRes) (s : State) (u : Upsets := []) : Out := ran (.rotaSlot r u) (s.slotPasses u r)

/-- One step of the module passes with nothing commanded: the step counter counts while the core supply is on (R24, R430,
DESIGN CHOICE, log 2). -/
def State.idle (s : State) : State := if s.corePowered then { s with steps := (s.steps + 1) % 2 ^ 48 } else s

end Sys2Proof.Machine
end

