-- ==== Sys2Proof/Machine/Checker.lean ====
section
/-! DEFINITION. The schedule checker (R48 to R52): the entries of an image, the rendezvous graph of its programs, the tests in order, and what an accepted image puts in force (R43, R50, R126). -/

namespace Sys2Proof.Machine

/-! ### Entries of an image (R49, R52) -/

/-- An entry of an image: lists, rotas and kernels have a heading beside their entries, slots and instructions, which carry the place
of their heading. R52 numbers the entries of an image and gives it no layout (DESIGN CHOICE, log 9). -/
inductive ImgEntry where
  | list (n : Nat) (r : ListRes) (es : List AolEntry)
  | turn (n : Nat) (r : ListRes) (j : Nat) (e : AolEntry)
  | rota (r : RotaRes) (l : List RotaSlot)
  | slot (r : RotaRes) (j : Nat) (x : RotaSlot)
  | tag (n : Nat)
  | taker (t c : Nat) (k : Taker)
  | dmaOwner (f c t n : Nat)
  | chan (d : BitVec 256)
  | kern (n : Nat) (k : Kern)
  | insn (n : Nat) (k : Kern) (j : Nat) (x : KInsn)
  | named (r : RotaRes) (j : Nat)
  deriving DecidableEq, Repr

/-- A list with each member's place. -/
def withPlace {α : Type} (l : List α) : List (Nat × α) := List.zip (List.range l.length) l

/-- The entries of an image in the order of its parts. -/
def imgEntries (i : SchedImage) : List ImgEntry :=
  (withPlace i.lists).flatMap (fun e =>
    ImgEntry.list e.1 e.2.1 e.2.2 :: (withPlace e.2.2).map (fun x => ImgEntry.turn e.1 e.2.1 x.1 x.2)) ++
  i.rotas.flatMap (fun e => ImgEntry.rota e.1 e.2 :: (withPlace e.2).map (fun x => ImgEntry.slot e.1 x.1 x.2)) ++
  i.tags.map (fun e => .tag e.1) ++ i.takers.map (fun e => .taker e.1 e.2.1 e.2.2) ++
  i.dmaOwners.map (fun e => .dmaOwner e.1 e.2.1 e.2.2.1 e.2.2.2) ++ i.chans.map .chan ++
  (withPlace i.kernels).flatMap (fun e =>
    ImgEntry.kern e.1 e.2 :: (withPlace e.2.code).map (fun x => ImgEntry.insn e.1 e.2 x.1 x.2)) ++
  i.slotsNamed.map (fun e => .named e.1 e.2)

/-- The place of the first entry that fails a test. -/
def firstFail (i : SchedImage) (fails : ImgEntry → Bool) : Option Nat := indexOf fails (imgEntries i)

/-- Some entry fails a test. -/
def anyFail (i : SchedImage) (fails : ImgEntry → Bool) : Bool := (imgEntries i).any fails

/-! ### Test x01: form (R37 to R42, R49, R126, R132, R241, R330) -/

/-- Users and entries of a list (R37); the list of the host channels is no part of a schedule (R349). -/
def listLimits : ListRes → Nat × Nat
  | .banks _ => (5, 64)
  | .matrix _ => (16, 16)
  | .vault _ _ _ => (3, 64)
  | .dmaPath _ => (8, 16)
  | .hostDma => (0, 0)

/-- An entry of a list obeys R36 to R38: thread issue is never named by WAIT. -/
def turnFormOk (r : ListRes) (e : AolEntry) : Bool :=
  let banks := match r with
    | .banks _ => true
    | _ => false
  decide (e.user < (listLimits r).1) && decide (1 ≤ e.quantum) && decide (e.quantum ≤ 16) && !(banks && e.wait && e.user == userThreads)

/-- Longest rota of a resource (R42); zero where an image names no such rota. -/
def rotaMost : RotaRes → Nat
  | .mesh _ _ _ => 256
  | .edge _ _ => 256
  | .link _ => 1024
  | .slice _ _ => 64
  | .interHalf _ => 128
  | _ => 0

/-- The source of a field's DMA path at a cache slice; a control core's is its number (R42; DESIGN CHOICE, log 127). -/
def dmaPathSource (f : Nat) : Nat := 32 + f

/-- An edge port of the mesh as a source. -/
def portOk (id : Nat) : Bool := decide (portSource 0 0 ≤ id) && decide (id < portSource 4 0)

/-- The sources that a rota's slots may name (R42). -/
def sourceOk : RotaRes → Nat → Bool
  | .mesh _ _ _, id => decide (id < 64 * sites) || portOk id
  | .edge _ _, id => decide (id < 64 * sites) || portOk id
  | .link _, id => decide (id < adderId 16)
  | .slice _ _, id => decide (id < dmaPathSource 64) || portOk id
  | .interHalf _, id => decide (id < 16)
  | _, _ => false

/-- A slot of a rota obeys R39, R40 and R42: a cache slice takes no source set. -/
def slotFormOk (r : RotaRes) : RotaSlot → Bool
  | .idle => true
  | .src id => sourceOk r id
  | .set l =>
    (match r with
     | .slice _ _ => false
     | _ => true) && decide (2 ≤ l.length) && decide (l.length ≤ 64) && l.all (sourceOk r)

/-- A channel descriptor obeys R330, its arrays aligned to their elements (R66, R339; DEDUCED, log 65). -/
def chanFormOk (x : BitVec 256) : Bool :=
  let d := chanDesc x
  bits x.toNat 62 2 == 0 && bits x.toNat 226 30 == 0 && decide (2 ≤ d.ring) && decide (d.pos < d.ring) &&
    (if d.norm then d.grad % 16 == 0 && d.out % 16 == 0 else d.grad % 4 == 0 && d.resid % 4 == 0 && d.out % 4 == 0)

/-- Whether no key of a list stands twice. -/
def noTwice {α : Type} [DecidableEq α] : List α → Bool
  | [] => true
  | x :: r => !r.contains x && noTwice r

/-- Exactly one member of a list has the property. -/
def onlyOne {α : Type} (p : α → Bool) (l : List α) : Bool := (l.filter p).length == 1

/-- An entry that fails test x01. The fixed list of a spare vault's port is no list of a schedule (R241). -/
def State.badForm (s : State) (i : SchedImage) : ImgEntry → Bool
  | .list _ r es =>
    !(listOk r && decide (1 ≤ es.length) && decide (es.length ≤ (listLimits r).2) && !s.sparePort r &&
      onlyOne (fun e => listKey e.1 == listKey r) i.lists)
  | .turn _ r _ e => !turnFormOk r e
  | .rota r l => !(rotaOk r && decide (1 ≤ l.length) && decide (l.length ≤ rotaMost r) && onlyOne (fun e => rotaKey e.1 == rotaKey r) i.rotas)
  | .slot r _ x => !slotFormOk r x
  | .tag n => !onlyOne (fun e => e.1 == n) i.tags
  | .taker t c k =>
    !(tileOk t && decide (c < 64) && onlyOne (fun e => e.1 == t && e.2.1 == c) i.takers &&
      (match k with
       | .slot n => decide (n < 16)
       | .chan n => decide (n < 32)))
  | .dmaOwner f c t n =>
    !(fieldOk f && decide (c < 8) && tileOk t && decide (n < 16) && onlyOne (fun e => e.1 == f && e.2.1 == c) i.dmaOwners)
  | .chan x =>
    let ds := i.chans.map chanDesc
    !(chanFormOk x && onlyOne (fun d => d.chan == (chanDesc x).chan) ds && decide ((ds.filter (fun d => d.early && !d.norm)).length ≤ 8) &&
      decide ((ds.filter (·.norm)).length ≤ 1))
  | .kern _ k => !(tileOk k.tile && decide (k.slot < 16))
  | .insn _ k _ x => x.next.any (fun j => decide (k.code.length ≤ j))
  | .named r _ => !rotaOk r

/-! ### Test x02: resources of other partitions (R49) -/

/-- The field of a list's resource. -/
def listField : ListRes → Option Nat
  | .banks t => some (t / 192)
  | .matrix t => some (t / 192)
  | .vault f _ _ => some f
  | .dmaPath f => some f
  | .hostDma => none

/-- An entry that fails test x02: its tile, field, vault or channel lies outside the partition's field quads. -/
def State.badOwn (s : State) (p : Nat) (x : ImgEntry) : Bool :=
  let mine (f : Nat) : Bool := (s.part p).quads.getLsbD (quadOf f)
  match x with
  | .list _ r _ => (match listField r with
    | some f => !mine f
    | none => false)
  | .taker t _ _ => !mine (t / 192)
  | .dmaOwner f _ t _ => !mine f || !mine (t / 192)
  | .chan d => let d := chanDesc d; d.early && !d.norm && !mine (d.tile / 192)
  | .kern _ k => !mine (k.tile / 192)
  | _ => false

/-! ### Test x03: coverage of routes (R47, R240, R296, R330) -/

/-- A slot is usable by a source. -/
def slotUsable (src : Nat) (x : RotaSlot) : Bool :=
  match x with
  | .src i => i == src
  | .set l => l.contains src
  | .idle => false

/-- The slots of a rota in an image. -/
def imgSlots (i : SchedImage) (r : RotaRes) : List RotaSlot :=
  ((i.rotas.find? (fun e => rotaKey e.1 == rotaKey r)).map (·.2)).getD []

/-- A source has a usable slot in a rota of the image (R47). -/
def imgCovers (i : SchedImage) (src : Nat) (r : RotaRes) : Bool := (imgSlots i r).any (slotUsable src)

/-- A source's slots in one period of a rota, as a fraction: a member of a set of M has 1/M of a slot each period (R40, R41). -/
def slotShare (l : List RotaSlot) (src : Nat) : Nat × Nat :=
  l.foldl (fun q x =>
    match x with
    | .src i => if i = src then (q.1 + q.2, q.2) else q
    | .set m => if m.contains src then (q.1 * m.length + q.2, q.2 * m.length) else q
    | .idle => q) (0, 1)

/-- A link of the mesh. -/
def onMesh : RotaRes → Bool
  | .mesh _ _ _ => true
  | .edge _ _ => true
  | _ => false

/-- Slot time of a hop in units of 1 ps, a mesh hop counted at its longest step behind a link and at its shortest before one
(R42, R296; DEDUCED, log 66). -/
def slotTime (r : RotaRes) (slow : Bool) : Nat :=
  match r with
  | .mesh _ _ _ => if slow then 873 else 500
  | .edge _ _ => if slow then 873 else 500
  | .link _ => 2000
  | .slice _ _ => 417
  | .interHalf _ => 256
  | _ => 1

/-- A hop gives its source no fewer slots per unit time than the hop before it (R296). -/
def hopOk (i : SchedImage) (h h' : RotaRes × Nat) : Bool :=
  let l := imgSlots i h.1
  let l' := imgSlots i h'.1
  let (n, d) := slotShare l h.2
  let (n', d') := slotShare l' h'.2
  let both := onMesh h.1 && onMesh h'.1
  let t := if both then 1 else slotTime h.1 false
  let t' := if both then 1 else slotTime h'.1 true
  decide (n * (d' * l'.length * t') ≤ n' * (d * l.length * t))

/-- The rotas of a route at which it is not covered: the source has no slot there, or fewer than on the hop before (R47, R296). -/
def routeGaps (i : SchedImage) : List (RotaRes × Nat) → List RotaRes
  | [] => []
  | [h] => if imgCovers i h.2 h.1 then [] else [h.1]
  | h :: h' :: r =>
    (if imgCovers i h.2 h.1 then [] else [h.1]) ++ (if hopOk i h h' then [] else [h'.1]) ++ routeGaps i (h' :: r)

/-- A range of units meets n nibbles from an offset. -/
def unitsHold (b len o n : Nat) : Bool := decide (b * unit16 < o + n) && decide (o < (b + len) * unit16)

/-- The tiles that are home to part of a region. -/
def Region.homes (r : Region) : List Nat :=
  (List.range 12288).filter (fun t =>
    let at_ (b : Nat) : Bool := unitsHold b r.len (t * 0x40000000) 0x40000000 || unitsHold b r.len (storeBase t) tsSize
    at_ r.base || (r.staged && at_ r.alt))

/-- The regions of this module that a partition's threads reach: its own, and those shared with it (R299, R386). -/
def State.partRegions (s : State) (p : Nat) : List Region :=
  (s.regions.map (·.2)).filter (fun r => r.valid && (r.part == p || (r.shared && (s.grantees r).contains p)))

/-- The modules that a partition's key map names (R300). -/
def State.partModules (s : State) (p : Nat) : List Nat :=
  let ks := (List.range 15).map (s.kmap p)
  (List.range 1024).filter (fun m => m != s.moduleId && (s.route m).valid && ks.any (fun k => k.valid && (k.anymod || k.module == m)))

/-- The routes of a tile's accesses to a region of this module and back: to its homes, or to the slices of its halves (R45, R273). -/
def State.regionRoutes (s : State) (t : Nat) (r : Region) : List (List (RotaRes × Nat)) :=
  if r.cached then
    [0, 1].flatMap (fun h => if r.homes.any (fun x => nearHalf x == h) then
      (List.range 16).flatMap (fun n => [s.sliceHops t h n, s.sliceBack t h n]) else [])
  else r.homes.flatMap (fun h => [s.tileHops t h, s.tileHops h t])

/-- The routes between a site of this module and another module: to each link of the group, and from it (R46, R294; DEDUCED, log 66). -/
def State.linkRoutes (s : State) (p t m : Nat) : List (List (RotaRes × Nat)) :=
  let (f, x) := s.tilePos t
  let g := (s.route m).group
  hopsFromLink (8 * g) f x :: (List.range 8).map (fun k => hopsToGroup f x g ++ [(.link (8 * g + k), s.moduleId * 16 + p)])

/-- The routes between the vault controller of every site of a field and the field's spare vaults (R240). -/
def State.spareRoutes (s : State) (f : Nat) : List (List (RotaRes × Nat)) :=
  (List.range sites).flatMap (fun x => (s.unusedOf f).flatMap (fun y =>
    [asSource (siteSource f x) (meshPath (meshRow f x) (meshCol f x) (meshRow f y) (meshCol f y)),
     asSource (siteSource f x) (meshPath (meshRow f y) (meshCol f y) (meshRow f x) (meshCol f x))]))

/-- The routes of a channel's bodies: its adder's slots on every link of its outbound group, and the rows between its two crescents
(R330, R332; DEDUCED, log 65). -/
def chanRoutes (p : Nat) (d : ChanDesc) : List (List (RotaRes × Nat)) :=
  (List.range 8).map (fun k => [(.link (8 * d.outGroup + k), adderId p)]) ++
    (List.range 112).map (hopsThrough (8 * d.inGroup) d.outGroup)

/-- Every possible route of a partition's sources on this module (R47). -/
def State.imgRoutes (s : State) (p : Nat) (i : SchedImage) : List (List (RotaRes × Nat)) :=
  let ts := s.partTiles p
  let rs := s.partRegions p
  ts.flatMap (fun t => rs.flatMap (s.regionRoutes t)) ++
  (s.partModules p).flatMap (fun m => (ts ++ rs.flatMap (·.homes)).flatMap (fun t => s.linkRoutes p t m)) ++
  ((List.range 64).filter (fun f => (s.part p).quads.getLsbD (quadOf f))).flatMap s.spareRoutes ++
  (i.chans.map chanDesc).flatMap (chanRoutes p)

/-- The rotas at which test x03 fails. -/
def State.imgGaps (s : State) (p : Nat) (i : SchedImage) : List RotaRes := (s.imgRoutes p i).flatMap (routeGaps i)

/-- A rota of the image at which test x03 fails. -/
def gapAt (gaps : List RotaRes) : ImgEntry → Bool
  | .rota r _ => gaps.any (fun x => rotaKey x == rotaKey r)
  | _ => false

/-! ### Test x04: users that lists and assignments do not name (R49, R126, R132, R331) -/

/-- The entries of a resource's list under an image. -/
def imgList (i : SchedImage) (r : ListRes) : List AolEntry :=
  ((i.lists.find? (fun x => listKey x.1 == listKey r)).map (·.2)).getD (aolDefault r).entries

/-- The list of a resource names a user. A bank or vault port without a list serves every user (DESIGN CHOICE, log 134). -/
def listNames (i : SchedImage) (r : ListRes) (user : Nat) : Bool :=
  (imgList i r).any (fun x => x.user == user) ||
    ((imgList i r).isEmpty && (match r with
      | .banks _ => true
      | .vault _ _ _ => true
      | _ => false))

/-- The ports that serve a span of module memory, of the home vaults or tile stores (R236, R240). -/
def State.spanPorts (s : State) (x : Span) : List ListRes :=
  (List.range ((x.base % 2048 + x.len + 2047) / 2048)).map (fun j =>
    let o := x.base / 2048 * 2048 + 2048 * j
    if o < vaultEnd then let l := s.vaultLoc o; .vault l.field l.home l.ch else .banks (tileOfOff o))

/-- The user that a DMA channel is at a port (R37). -/
def dmaUser : ListRes → Nat
  | .vault _ _ _ => portDma
  | _ => userDmaPort

/-- A span lies in module memory. -/
def inMem (x : Span) : Bool := x.place == .mem

/-- An instruction of a kernel fails test x04. -/
def State.badUse (s : State) (i : SchedImage) (k : Kern) (op : KOp) : Bool :=
  let f := k.tile / 192
  let owns (c : Nat) : Bool := i.dmaOwners.contains (f, c, k.tile, k.slot)
  match op with
  | .tile _ => !listNames i (.banks k.tile) userThreads
  | .take (some c) => !i.takers.contains (k.tile, c, Taker.slot k.slot)
  | .mxi reads writes _ =>
    !listNames i (.matrix k.tile) k.slot || (reads.any inMem && !listNames i (.banks k.tile) userOperands) ||
      (writes.any inMem && !listNames i (.banks k.tile) userExport)
  | .flush _ => !listNames i (.matrix k.tile) k.slot
  | .dmakGo ch spans =>
    (match ch with
     | some c => !owns c || !listNames i (.dmaPath f) c
     | none => false) ||
      (spans.filter inMem).any (fun x => (s.spanPorts x).any (fun r => !listNames i r (dmaUser r)))
  | .dmakWait (some c) => !owns c
  | _ => false

/-- An entry that fails test x04. -/
def State.badUser (s : State) (i : SchedImage) : ImgEntry → Bool
  | .insn _ k _ x => s.badUse i k x.op
  | .chan d => let d := chanDesc d; d.early && !d.norm && !i.takers.contains (d.tile, d.cell, Taker.chan d.chan)
  | _ => false

/-! ### The rendezvous graph (R48, R203, R331) -/

/-- A node of the rendezvous graph: an instruction of a kernel, a WAIT entry of a list, a channel at its start cell, the entry and the
exit of a kernel, and the phase node. -/
inductive GNode where
  | insn (k j : Nat)
  | turn (l j : Nat)
  | chan (c : Nat)
  | entry (k : Nat)
  | exit (k : Nat)
  | phase
  deriving DecidableEq, Repr

/-- The members that a list reaches in n rounds of edges, itself among them. -/
def reach {α : Type} [DecidableEq α] (edges : List (α × α)) : Nat → List α → List α
  | 0, l => l
  | n + 1, l =>
    reach edges n ((edges.filter (fun e => l.contains e.1)).foldl (fun m e => if m.contains e.2 then m else m ++ [e.2]) l)

/-- The members that the edges lead to from one. -/
def after {α : Type} [DecidableEq α] (edges : List (α × α)) (v : α) : List α := (edges.filter (fun e => e.1 == v)).map (·.2)

/-- A member lies behind another. -/
def leadsTo {α : Type} [DecidableEq α] (edges : List (α × α)) (v w : α) : Bool := (reach edges edges.length (after edges v)).contains w

/-- The instructions that are nodes (R48). -/
def isNode : KOp → Bool
  | .post _ _ => true
  | .remotePost => true
  | .take _ => true
  | .mxw _ => true
  | .dmakWait _ => true
  | _ => false

/-- The edges of a kernel's program that leave an instruction of a kind. -/
def progEdges (code : List KInsn) (from_ : KOp → Bool) : List (Nat × Nat) :=
  (withPlace code).flatMap (fun e => if from_ e.2.op then e.2.next.map (fun j => (e.1, j)) else [])

/-- The positions that a program reaches from some positions on paths that pass no instruction of a kind. -/
def reachPast (code : List KInsn) (stop : KOp → Bool) (l : List Nat) : List Nat :=
  reach (progEdges code (fun op => !stop op)) code.length l

/-- What follows in program order: the nodes that a program reaches from some positions with no node between, and its exit (R48). -/
def nextNodes (n : Nat) (code : List KInsn) (l : List Nat) : List GNode :=
  (reachPast code isNode l).flatMap (fun j =>
    match code[j]? with
    | some x => if isNode x.op then [.insn n j] else if x.next.isEmpty then [.exit n] else []
    | none => [])

/-- Program order within a kernel. A loop that the program counts stands in `code` as often as it runs; one that depends on data
closes a cycle (DEDUCED, log 128). -/
def kernEdges (n : Nat) (k : Kern) : List (GNode × GNode) :=
  (nextNodes n k.code [0]).map (fun v => (.entry n, v)) ++
    (withPlace k.code).flatMap (fun e =>
      if isNode e.2.op then
        (if e.2.next.isEmpty then [GNode.exit n] else nextNodes n k.code e.2.next).map (fun v => (GNode.insn n e.1, v))
      else [])

/-- A part of an operand agrees with another: an operand that the program computes may name either. -/
def mayBe (a b : Option Nat) : Bool := a.isNone || b.isNone || a == b

/-- The POSTs of an image: node, target tile and cell. -/
def imgPosts (i : SchedImage) : List (GNode × Option Nat × Option Nat) :=
  (withPlace i.kernels).flatMap (fun k => (withPlace k.2.code).flatMap (fun e =>
    match e.2.op with
    | .post t c => [(GNode.insn k.1 e.1, t, c)]
    | _ => []))

/-- The nodes that take from a cell: TAKEs, and early channels at their start cells (R331). -/
def imgTakes (i : SchedImage) : List (GNode × Nat × Option Nat) :=
  (withPlace i.kernels).flatMap (fun k => (withPlace k.2.code).flatMap (fun e =>
    match e.2.op with
    | .take c => [(GNode.insn k.1 e.1, k.2.tile, c)]
    | _ => [])) ++
  ((i.chans.map chanDesc).filter (fun d => d.early && !d.norm)).map (fun d => (.chan d.chan, d.tile, some d.cell))

/-- Each POST to every TAKE that can match it. -/
def postEdges (i : SchedImage) : List (GNode × GNode) :=
  (imgPosts i).flatMap (fun x => ((imgTakes i).filter (fun y => mayBe x.2.1 (some y.2.1) && mayBe x.2.2 y.2.2)).map (fun y => (x.1, y.1)))

/-- List order between the WAIT entries of one list. -/
def waitEdges (n : Nat) (es : List AolEntry) : List (GNode × GNode) :=
  let ws := ((withPlace es).filter (fun e => e.2.wait)).map (·.1)
  (List.zip ws ws.tail).map (fun e => (.turn n e.1, .turn n e.2))

/-- The tag of a kernel entry index (R48). -/
def imgTag (i : SchedImage) (entry : Nat) : KTag := ((i.tags.find? (fun e => e.1 == entry)).map (·.2)).getD .none

/-- The phase node stands behind the exit of every FWD kernel and before the entry of every BWD kernel (R48, R203). -/
def phaseEdges (i : SchedImage) : List (GNode × GNode) :=
  (withPlace i.kernels).flatMap (fun k =>
    match imgTag i k.2.entry with
    | .fwd => [(GNode.exit k.1, .phase)]
    | .bwd => [(GNode.phase, .entry k.1)]
    | .none => [])

/-- The edges of the rendezvous graph. -/
def imgEdges (i : SchedImage) : List (GNode × GNode) :=
  (withPlace i.kernels).flatMap (fun k => kernEdges k.1 k.2) ++ postEdges i ++
    (withPlace i.lists).flatMap (fun l => waitEdges l.1 l.2.2) ++ phaseEdges i

/-- The node that an entry of an image is. -/
def ImgEntry.gnode : ImgEntry → Option GNode
  | .turn n _ j _ => some (.turn n j)
  | .chan d => some (.chan (chanDesc d).chan)
  | .kern n _ => some (.entry n)
  | .insn n _ j _ => some (.insn n j)
  | _ => none

/-- An entry on a cycle of the graph (test x05), and one on a cycle with a node. -/
def onCycle (es : List (GNode × GNode)) (x : ImgEntry) : Bool :=
  match x.gnode with
  | some v => leadsTo es v v
  | none => false
def onCycleWith (es : List (GNode × GNode)) (v : GNode) (x : ImgEntry) : Bool :=
  match x.gnode with
  | some w => leadsTo es v w && leadsTo es w v
  | none => false

/-- The entries involved in a cycle: the first on one, and the last that lies on a cycle with it (R52; DESIGN CHOICE, log 9). -/
def cycleEnds (i : SchedImage) : Option (Nat × Nat) :=
  let es := imgEdges i
  match firstFail i (onCycle es) with
  | none => none
  | some a =>
    match ((imgEntries i)[a]?).bind ImgEntry.gnode with
    | none => none
    | some v => some (a, ((withPlace (imgEntries i)).foldl (fun b e => if onCycleWith es v e.2 then e.1 else b) a))

/-! ### Test x06: conflicts that nothing orders (R38, R49, R159) -/

/-- Who reaches nibbles: thread issue, operand delivery or result store of a tile, a DMA channel of a field, or a group at accumulator rows
(R37, R159). -/
inductive AccUser where
  | threads (t : Nat)
  | operands (t : Nat)
  | results (t : Nat)
  | dma (f c : Nat)
  | group (t n : Nat)
  deriving DecidableEq, Repr

/-- An access that a program fixes: its user, its instruction, the positions at which it is known to be over, and its nibbles. -/
structure KAccess where
  user : AccUser
  kern : Nat
  pos : Nat
  ends : List Nat
  span : Span
  deriving DecidableEq, Repr

/-- The positions of a kernel whose instruction has a property. -/
def posOf (code : List KInsn) (p : KOp → Bool) : List Nat := ((withPlace code).filter (fun e => p e.2.op)).map (·.1)

/-- The accesses of an instruction: a thread's is over with it, a descriptor's at its MXWs, a transfer's at the DMAK.WAITs of its
channel (R38, R130, R132). -/
def insnAccesses (n : Nat) (k : Kern) (j : Nat) (op : KOp) : List KAccess :=
  let f := k.tile / 192
  match op with
  | .tile l => l.map (fun x => { user := .threads k.tile, kern := n, pos := j, ends := [j], span := x })
  | .mxi reads writes _ =>
    let ends := posOf k.code (fun o => o == .mxw j)
    let mk (u : AccUser) (x : Span) : KAccess :=
      { user := if inMem x then u else .group k.tile k.slot, kern := n, pos := j, ends := ends, span := x }
    reads.map (mk (.operands k.tile)) ++ writes.map (mk (.results k.tile))
  | .dmakGo (some c) l =>
    let ends := posOf k.code (fun o => match o with
      | .dmakWait w => mayBe w (some c)
      | _ => false)
    l.map (fun x => { user := .dma f c, kern := n, pos := j, ends := ends, span := x })
  | _ => []

/-- The accesses of an image's programs. -/
def imgAccesses (i : SchedImage) : List KAccess :=
  (withPlace i.kernels).flatMap (fun k => (withPlace k.2.code).flatMap (fun e => insnAccesses k.1 k.2 e.1 e.2.op))

/-- Program order and the edges of the graph over all instructions (R48). -/
def flowEdges (i : SchedImage) : List (GNode × GNode) :=
  (withPlace i.kernels).flatMap (fun k =>
    (GNode.entry k.1, .insn k.1 0) :: (withPlace k.2.code).flatMap (fun e =>
      if e.2.next.isEmpty then [(GNode.insn k.1 e.1, .exit k.1)] else e.2.next.map (fun j => (.insn k.1 e.1, .insn k.1 j)))) ++
  postEdges i ++ phaseEdges i

/-- An access is over before another begins on every way the graph gives. -/
def before (es : List (GNode × GNode)) (a b : KAccess) : Bool :=
  a.ends.any (fun e => leadsTo es (.insn a.kern e) (.insn b.kern b.pos))

/-- A list names both of two users by WAIT entries, which fix their order (R36). -/
def waitNames (i : SchedImage) (r : ListRes) (u v : Nat) : Bool :=
  let es := imgList i r
  es.any (fun x => x.wait && x.user == u) && es.any (fun x => x.wait && x.user == v)

/-- The number of a user at a port (R37). -/
def AccUser.at (r : ListRes) : AccUser → Nat
  | .threads _ => userThreads
  | .operands _ => userOperands
  | .results _ => userExport
  | .dma _ _ => dmaUser r
  | .group _ n => n

/-- WAIT-entry order of two accesses: in the list of their field's DMA path, of the tile's matrix issue, or of every port that serves
both. -/
def State.waitOrdered (s : State) (i : SchedImage) (a b : KAccess) : Bool :=
  match a.user, b.user with
  | .dma f c, .dma f' c' => f == f' && waitNames i (.dmaPath f) c c'
  | .group t n, .group _ n' => waitNames i (.matrix t) n n'
  | u, v => (s.spanPorts a.span).all (fun r => !(s.spanPorts b.span).contains r || waitNames i r (u.at r) (v.at r))

/-- Two accesses that fail test x06. -/
def State.unordered (s : State) (i : SchedImage) (es : List (GNode × GNode)) (a b : KAccess) : Bool :=
  a.user != b.user && (a.kern, a.pos) != (b.kern, b.pos) && a.span.place == b.span.place && (a.span.write || b.span.write) &&
    decide (a.span.base < b.span.base + b.span.len) && decide (b.span.base < a.span.base + a.span.len) &&
    !s.waitOrdered i a b && !before es a b && !before es b a

/-- The place of a program's instruction in an image. -/
def insnPlace (i : SchedImage) (n j : Nat) : Option Nat :=
  firstFail i (fun x => match x with
    | .insn n' _ j' _ => n' == n && j' == j
    | _ => false)

/-- The first two entries that fail test x06. -/
def State.conflictEnds (s : State) (i : SchedImage) : Option (Option Nat × Option Nat) :=
  let l := imgAccesses i
  let es := flowEdges i
  match l.find? (fun a => l.any (fun b => s.unordered i es a b)) with
  | none => none
  | some a =>
    some (insnPlace i a.kern a.pos, (l.find? (fun b => s.unordered i es a b)).bind (fun b => insnPlace i b.kern b.pos))

/-! ### Test x07: waits that nothing answers (R49, R170) -/

/-- A FLUSH that names a spar of an array (R168). -/
def flushes (a : Nat) : KOp → Bool
  | .flush m => (arraySpars a).any (fun x => m.testBit x)
  | _ => false

/-- The instruction at a position fails test x07: a TAKE with no POST, an MXW that a path reaches past every MXI, or from its own MXI
with FILL past every FLUSH of the array, or a DMAK.WAIT that a path reaches past every DMAK.GO of its channel. -/
def badWait (i : SchedImage) (k : Kern) (j : Nat) (op : KOp) : Bool :=
  match op with
  | .take c => !(imgPosts i).any (fun x => mayBe x.2.1 (some k.tile) && mayBe x.2.2 c)
  | .mxw m =>
    (reachPast k.code (fun o => match o with
      | .mxi _ _ _ => true
      | _ => false) [0]).contains j ||
    (match k.code[m]? with
     | some x => (match x.op with
       | .mxi _ _ (some a) => (reachPast k.code (flushes a) x.next).contains j
       | _ => false)
     | none => false)
  | .dmakWait c =>
    (reachPast k.code (fun o => match o with
      | .dmakGo c' _ => mayBe c c'
      | _ => false) [0]).contains j
  | _ => false

/-- An entry that fails test x07. -/
def unmatched (i : SchedImage) : ImgEntry → Bool
  | .insn _ k j x => badWait i k j x.op
  | .chan d =>
    let d := chanDesc d
    d.early && !d.norm && !(imgPosts i).any (fun x => mayBe x.2.1 (some d.tile) && mayBe x.2.2 (some d.cell))
  | _ => false

/-! ### Test x08: the slot frame (R43) -/

/-- The link leads off the mesh into an edge port. -/
def leadsOut : RotaRes → Bool
  | .mesh f site 0 => meshRow f site == 0
  | .mesh f site 1 => meshCol f site == 111
  | .mesh f site 2 => meshRow f site == 111
  | .mesh f site 3 => meshCol f site == 0
  | _ => false

/-- A rota sits inside the owner's slot frame (R43): those of Draiz links, edge ports and the mesh links into them, slices and the
inter-half link, and those of further mesh links that the frame names (DEDUCED, log 67). -/
def State.rotaShared (s : State) (r : RotaRes) : Bool :=
  match r with
  | .mesh _ _ _ => leadsOut r || s.frame.any (fun x => rotaKey x.1 == rotaKey r)
  | _ => true

/-- The frame gives slot n of rota r to partition p (R43). -/
def State.frameGives (s : State) (r : RotaRes) (p n : Nat) : Bool :=
  s.frame.any (fun y => rotaKey y.1 == rotaKey r && y.2.1 == n && y.2.2 == p)

/-- An entry that fails test x08: it names a slot outside the partition's set. -/
def State.badSlot (s : State) (p : Nat) : ImgEntry → Bool
  | .slot r j x => s.rotaShared r && x != .idle && !s.frameGives r p j
  | .named r j => !s.frameGives r p j
  | _ => false

/-! ### The tests in order (R49) -/

/-- The first test that an image of partition p fails: its reason code, and the entries involved (R49, R52). -/
def State.checkImage (s : State) (p : Nat) (i : SchedImage) : Nat × Option Nat × Option Nat :=
  let gaps := s.imgGaps p i
  if anyFail i (s.badForm i) then (1, firstFail i (s.badForm i), none)
  else if anyFail i (s.badOwn p) then (2, firstFail i (s.badOwn p), none)
  else if !gaps.isEmpty then (3, firstFail i (gapAt gaps), none)
  else if anyFail i (s.badUser i) then (4, firstFail i (s.badUser i), none)
  else match cycleEnds i with
    | some (a, b) => (5, some a, some b)
    | none => match s.conflictEnds i with
      | some (a, b) => (6, a, b)
      | none =>
        if anyFail i (unmatched i) then (7, firstFail i (unmatched i), none)
        else if anyFail i (s.badSlot p) then (8, firstFail i (s.badSlot p), none)
        else (0, none, none)

/-- An entry of an owner's slot frame is well formed: a slot of a rota of R42 and a partition. -/
def frameSlotOk (e : RotaRes × Nat × Nat) : Bool := rotaOk e.1 && decide (e.2.1 < rotaMost e.1) && decide (e.2.2 < 16)

/-- Two entries of a frame name one slot. -/
def sameSlot (a b : RotaRes × Nat × Nat) : Bool := rotaKey a.1 == rotaKey b.1 && a.2.1 == b.2.1

/-- The tests of an owner's slot frame: its form, and that no slot has two partitions (R43, R49). -/
def frameCheck (f : FrameImage) : Nat × Option Nat × Option Nat :=
  if !f.slots.all frameSlotOk then (1, indexOf (fun e => !frameSlotOk e) f.slots, none)
  else if noTwice (f.slots.map (fun e => (rotaKey e.1, e.2.1))) then (0, none, none)
  else
    let twice (e : RotaRes × Nat × Nat) : Bool := !onlyOne (sameSlot e) f.slots
    let a := indexOf twice f.slots
    (8, a, match f.slots.find? twice with
      | some e => ((withPlace f.slots).find? (fun x => sameSlot e x.2 && some x.1 != a)).map (·.1)
      | none => none)

/-! ### What an accepted image puts in force (R50) -/

/-- The lists, rotas and channels of an image are no longer in force: its slots are IDLE. -/
def State.dropImage (s : State) (p : Nat) (i : SchedImage) : State :=
  let s1 := i.lists.foldl (fun v e => v.putAol e.1 (aolDefault e.1)) s
  let s2 := i.rotas.foldl (fun v e =>
    let x := v.rota e.1
    let slots := (withPlace x.slots).map (fun y =>
      if v.frameGives e.1 p y.1 then RotaSlot.idle else y.2)
    v.putRota e.1 (if slots.all (fun y => y == .idle) then rotaDefault e.1 else { x with slots := slots })) s1
  (List.range 32).foldl (fun v c => v.putChan p c chan0) s2

/-- The schedule of a partition is cleared (R378, R383). -/
def State.clearSched (s : State) (p : Nat) : State :=
  match (s.part p).sched with
  | some i => (s.dropImage p i).putPart p { s.part p with sched := none }
  | none => s

/-- A partition's slots laid over a rota: slots that the image does not name keep what they hold (R43; DEDUCED, log 67). -/
def overlay : List RotaSlot → List RotaSlot → List RotaSlot
  | [], l => l
  | l, [] => l
  | a :: r, b :: t => (if b == RotaSlot.idle then a else b) :: overlay r t

/-- The lists, rotas and channels of an accepted image take force, and the rendezvous counts of the partition's tiles are zero
(R50, R126). A list begins at its first entry with no access counted, and a rota keeps its slot and the turns of its source sets: R35
and R39 say where neither stands under a new image (DESIGN CHOICE, log 137). -/
def State.enforceImage (s : State) (p : Nat) (i : SchedImage) : State :=
  let s0 := s.clearSched p
  let s1 := i.lists.foldl (fun v e => v.putAol e.1 { entries := e.2, pos := 0, made := 0 }) s0
  let s2 := i.rotas.foldl (fun v e =>
    let x := v.rota e.1
    let y := v.putRota e.1 { x with slots := overlay x.slots e.2 }
    match e.1 with
    | .link k => y.wrF (oLinkRota k) 0 11 (overlay x.slots e.2).length
    | _ => y) s1
  let s3 := i.chans.foldl (fun v d => v.putChan p (chanDesc d).chan { chan0 with desc := d, present := true }) s2
  let s4 := { s3 with cells := s3.cells.filter (fun e => !(s3.part p).quads.getLsbD (quadOf (e.1 / 64 / 192))) }
  s4.putPart p { s4.part p with sched := some i }

/-- An accepted slot frame takes force: a slot of a rota inside it is IDLE unless it stays with its partition, whose source it then
keeps (R43; DEDUCED, log 67). -/
def State.enforceFrame (s : State) (f : FrameImage) : State :=
  let owner (l : List (RotaRes × Nat × Nat)) (k n : Nat) : Option Nat :=
    (l.find? (fun e => rotaKey e.1 == k && e.2.1 == n)).map (·.2.2)
  let shared (k : Nat) : Bool :=
    (if k < rotaKey (.edge 0 0) then leadsOut (.mesh (k / 4 / sites) (k / 4 % sites) (k % 4)) else decide (k < rotaKey .config)) ||
      f.slots.any (fun e => rotaKey e.1 == k)
  let rs := s.rotas.map (fun e => (e.1, { e.2 with
    slots := (withPlace e.2.slots).map (fun y =>
      let stays := (owner f.slots e.1 y.1).isSome && owner s.frame e.1 y.1 == owner f.slots e.1 y.1
      if shared e.1 && !stays then RotaSlot.idle else y.2) }))
  { s with frame := f.slots, rotas := rs }

/-- The registers of a completed check (R52). PARTITION reads 0 after the check of an owner slot frame, for which R52 gives no value
(DESIGN CHOICE, log 144). Where the fault is an entry that the image does not have, CHK_WHERE is free (DESIGN CHOICE, log 9). -/
def State.checkDone (s : State) (p : Nat) (owner : Bool) (reason : Nat) (a b : Option Nat) (more : Bool) : State :=
  let ok := reason = 0
  let st := b2n more + b2n ok * 2 + b2n (!ok) * 4 + reason * 2 ^ 8 + (if owner then 0 else p) * 2 ^ 16 + b2n owner * 2 ^ 20
  let s1 := s.wr oChkStatus (BitVec.ofNat 32 st)
  if ok then ((s1.wr oChkWhere 0).wr oChkOther 0xFFFFFFFF).bump oChkCounts 0 16 1
  else
    let wh := match a with
      | some x => BitVec.ofNat 32 x
      | none => s.free 0
    let ot := match b with
      | some x => BitVec.ofNat 32 x
      | none => 0xFFFFFFFF#32
    (((s1.wr oChkWhere wh).wr oChkOther ot).bump oChkCounts 16 16 1).tock

/-- The oldest command of a ring that waits for its check completes (R378, R379). -/
def State.loadDone (s : State) (r : Nat) (op : Live) (st : Status) : State :=
  match (s.ring r).live.find? (fun c => c.op == op) with
  | some c => s.ringDone r c.seq st 0 0
  | none => s

/-- The load at the head of the checker's queue is examined (R49, R50, R52). An image that was accepted for loading and passes takes force
though its partition has entered RUN meanwhile: R51 tests the state at the load (DESIGN CHOICE, log 145). -/
def State.check (s : State) : State :=
  match s.checker with
  | [] => s
  | .part p i _ :: rest =>
    let (reason, a, b) := s.checkImage p i
    let s1 := { s with checker := rest }
    let s2 := if reason = 0 then s1.enforceImage p i else s1
    (s2.checkDone p false reason a b (!rest.isEmpty)).loadDone p .sched (if reason = 0 then .ok else .scheduleRejected)
  | .frame f _ :: rest =>
    let (reason, a, b) := frameCheck f
    let s1 := { s with checker := rest }
    let s2 := if reason = 0 then s1.enforceFrame f else s1
    (s2.checkDone 0 true reason a b (!rest.isEmpty)).loadDone 16 .frame (if reason = 0 then .ok else .scheduleRejected)

/-- SCHEDULE_CHECK (R49). -/
def execScheduleCheck (s : State) : Out := ranCore .scheduleCheck s s.check

end Sys2Proof.Machine
end

