-- ==== Sys2Proof/Machine/Training.lean ====
section
/-! DEFINITION. The training step (R197 to R231): phases, the staged commit, recovery replay, and the peer checkpoint with its erasure code (R440 to R443). -/

namespace Sys2Proof.Machine

/-! ### Entering FWD (R199, R207, R209, R262) -/

/-- The fields of UPDATE that cover the tiles of partition p (R398). -/
def State.tileGroups (s : State) (p : Nat) : List Nat := (s.partFields p).map (fun f => s.groupOf (.field f))

/-- No update is pending in a group of the partition's tiles, as `UPD_PENDING` shows (R199, R401). -/
def State.updatesApplied (s : State) (p : Nat) : Bool := (s.tileGroups p).all (fun g => !s.pendingGroups.testBit g)

/-- A transfer of partition p has a weight region of this module in its destination. -/
def State.xferWrites (s : State) (p : Nat) (x : Xfer) : Bool :=
  let d := dmaDesc x.regs
  let e := d.dstExtent
  x.part == some p && s.mineSide d.dstHost d.dst && (s.extentMeets (offOf e.1 d.dst, offOf e.2 d.dst) (·.weight)).isSome

/-- A descriptor held by the matrix unit of tile t exports into a weight region. -/
def State.mxWrites (s : State) (t : Nat) (x : Mx) : Bool :=
  let reqs := x.jobs.flatMap (·.reqs) ++ (List.range 4).flatMap (fun g => x.gate g)
  reqs.any (fun r => ((mxDesc r.d).exportExtents t).any (fun e => (s.extentMeets e (·.weight)).isSome))

/-- A write issued by partition p to a weight region is in flight (R209). An operation outstanding at another module counts,
because this module does not know the regions there (DEDUCED, log 76). -/
def State.weightWrites (s : State) (p : Nat) : Bool :=
  let mine (a : Access) : Bool := s.originOf p a.origin && !a.kind.isLoad && (match s.regionAt a.off with
    | some (_, r) => r.weight
    | none => false)
  s.accessesOut.any mine || s.ops.any (fun o => s.originOf p o.origin) || s.dma.any (fun e => s.xferWrites p e.2) ||
    s.mx.any (fun e => s.partOfField (e.1 / 192) == some p && s.mxWrites e.1 e.2)

/-- A slot of a vault of the partition is being copied (R262). -/
def State.slotMoves (s : State) (p : Nat) : Bool :=
  s.vaults.any (fun e => e.2.copy.isSome && (s.partFields p).contains (e.1 / sites))

/-- The step under peer checkpoint while step `idx` runs: idx - 1 where it is a multiple of the interval of a job of 3 modules
or more (R440). -/
def State.ckptStep (s : State) (p idx : Nat) : Option Nat :=
  match (s.part p).table with
  | some t =>
    if t.interval != 0 && decide (3 ≤ t.modules) && decide (0 < idx) && (idx - 1) % t.interval == 0 &&
      (s.rd oPwrPeerLen).toNat != 0 then some (idx - 1) else none
  | none => none

/-- FWD is entered: STEP_BEGIN is accepted, the record of the partition's commit slot is cleared and the weight regions are
fenced (R207, R227, R378). -/
def State.enterFwd (s : State) (p : Nat) : State :=
  let x := s.part p
  let s1 := ((s.merge [] (oCommitSlot p + 120) (nibsOf 0 8)).setPhase p phFwd).consume p 1
  s1.putPart p { x with step := { x.step with begun := false }, copying := s.ckptStep p (s.rd (oStepIndex p)).toNat }

/-- FWD_ENTER (R199). -/
def execFwdEnter (p : Nat) (s : State) : Out :=
  ranCore (.fwdEnter p) s
    (if s.phase p == phIdle && (s.part p).step.begun && s.updatesApplied p && !s.weightWrites p && !s.slotMoves p then
       s.enterFwd p
     else s)

/-! ### BWD, REDUCE, CLIP (R197, R203, R207, R218) -/

/-- The channels of one kind that have not completed wait for their start (R331, R345). -/
def State.armChans (s : State) (p : Nat) (early : Bool) : State :=
  (s.chansOf p).foldl (fun v c =>
    let x := v.chan p c
    let d := chanDesc x.desc
    if d.early == early && !d.norm && !x.complete && x.started == 0 then v.wrF (oRch p c) 0 3 1 else v) s

/-- BWD_ENTER (R197): the last forward kernel of the step has exited. -/
def execBwdEnter (p : Nat) (s : State) : Out :=
  ranCore (.bwdEnter p) s
    (if s.phase p == phFwd && s.tagDone p .fwd (s.part p).step.fwdRun then (s.setPhase p phBwd).armChans p true else s)

/-- BWD_CLOSE (R207): backward kernels, their operations and the tie-sums are complete; the fence clears. -/
def execBwdClose (p : Nat) (s : State) : Out :=
  ranCore (.bwdClose p) s
    (let x := s.part p
     if s.phase p == phBwd && s.tagDone p .bwd x.step.bwdRun && (x.step.tieDone || x.ties.isEmpty) then
       (s.setPhase p phReduce).armChans p false
     else s)

/-- Every channel but the norm channel has delivered its shards (R218). -/
def State.reduced (s : State) (p : Nat) : Bool :=
  (s.chansOf p).all (fun c => (chanDesc (s.chan p c).desc).norm || (s.chan p c).complete)

/-- CLIP_ENTER (R197, R198): with clipping off, or no norm channel, CLIP takes no step and UPDATE begins. -/
def execClipEnter (p : Nat) (s : State) (u : Upsets := []) : Out :=
  ranCore (.clipEnter p u) s
    (if s.phase p == phReduce && s.reduced p then
       match s.normChan p with
       | some c => if (s.part p).clip.mode = 0 then s.setPhase p phUpdate else (s.setPhase p phClip).startNorm u p c
       | none => s.setPhase p phUpdate
     else s)

/-! ### Commit (R226 to R228) -/

/-- The write accesses of partition p that have not completed (R197). -/
def State.writesOpen (s : State) (p : Nat) : Bool :=
  s.kernelLive p || s.outstanding.any (s.originOf p) || s.dma.any (fun e => e.2.part == some p)

/-- The STAGED report of the step, with its outcome; withheld after an abort and while the checkpoint is copied (R201, R226,
R440). -/
def State.reportStaged (s : State) (p : Nat) : State :=
  let x := s.part p
  if x.step.noStaged || x.copying.isSome then s else s.reportStep p (if x.step.skip then 2 else 1)

/-- COMMIT_ENTER (R226 orders 1 and 2). -/
def execCommitEnter (p : Nat) (s : State) : Out :=
  ranCore (.commitEnter p) s
    (if s.phase p == phUpdate && !s.writesOpen p then (s.setPhase p phCommit).reportStaged p else s)

/-- The staged regions of a partition by entry, in table order: also those that the teardown of its job has revoked, which recovery replay
still reaches (R229, R231). -/
def State.stagedOf (s : State) (p : Nat) : Tab Region :=
  s.regions.filter (fun e => (e.2.valid || e.2.torn) && e.2.staged && e.2.part == p && !e.2.origin)

/-- The live selection of an entry: a write of `RGN_FLIP`, which a revoked entry, to which that register answers BAD_DESCRIPTOR, needs not
(R228, R299; DESIGN CHOICE, log 79). -/
def State.setLive (s : State) (e : Nat) (live : Bool) : State :=
  if (s.region e).valid then s.flipPair (BitVec.ofNat 32 (e + b2n live * 2 ^ 12)) else s.putRegion e { s.region e with live := live }

/-- The apply: the live selection of every staged region of the partition is copy STEP mod 2, but for a skipped step (R223,
R228). -/
def State.applyStaged (s : State) (p step : Nat) (skip : Bool) : State :=
  if skip then s else (s.stagedOf p).foldl (fun v e => v.setLive e.1 (step % 2 == 1)) s

/-- The step of partition p ends: IDLE, and STEP_BEGIN and STEP_ABORT complete with its outcome (R197, R201, R378). -/
def State.endStep (s : State) (p value : Nat) (aborted : Status) : State :=
  let x := s.part p
  let s1 := (s.putPart p { x with copying := none, step := { x.step with begun := false } }).setPhase p phIdle
  (s1.ringDoneOp p .step .ok value 0).ringDoneOp p .stepAbort aborted 0 0

/-- A present record of KIND k is applied (R226 orders 6 and 7, R228). -/
def State.applyRecord (s : State) (p k : Nat) : State :=
  let step := (s.rd (oStepIndex p)).toNat
  let s1 := (s.wrF (oStepPhase p) 4 1 1).wrF (oStepPhase p) 5 1 (b2n (k == 2))
  let s2 := (s1.applyStaged p step (k == 2)).wr (oStepCommitted p) (s.rd (oStepIndex p))
  (s2.endStep p k .wrongState).reportStep p 3

/-- The KIND of the record that is present in the commit slot of partition p for its step (R227). -/
def State.recordOf (s : State) (p : Nat) : Option Nat := s.presentAt (oCommitSlot p) (s.rd (oStepIndex p)).toNat

/-- RECORD_ORDER (R200, R227, R228, R231): in COMMIT, or in HELD by recovery replay. -/
def execRecordOrder (p : Nat) (s : State) : Out :=
  ranCore (.recordOrder p) s
    (match s.recordOf p with
     | some k => if s.phase p == phCommit || s.phase p == phHeld then s.applyRecord p k else s
     | none => s)

/-- DISCARD_ORDER (R200, R225): the step is dropped; neither copy of a staged region changes (DEDUCED, log 81). -/
def execDiscardOrder (p : Nat) (s : State) : Out :=
  ranCore (.discardOrder p) s
    (if s.phase p == phIdle || (s.phase p == phCommit && s.rdF (oStepPhase p) 4 1 == 1) then s
     else (s.setPhase p phDiscard).endStep p 3 .ok)

/-! ### The erasure code of the peer checkpoint (R441) -/

/-- α to the power i in GF(16), α = x2. -/
def alphaPow : Nat → Nib
  | 0 => 1#4
  | n + 1 => gfMul 2#4 (alphaPow n)

/-- The stripes that position p of a group of k holds data of, ascending. -/
def stripesOf (k p : Nat) : List Nat := (List.range k).filter (fun t => t != p && t != (p + k - 1) % k)

/-- The positions that hold the data pieces of stripe t, ascending: code indices 0 to k - 3. -/
def dataOf (k t : Nat) : List Nat := (List.range k).filter (fun m => m != t && m != (t + 1) % k)

/-- The piece of stripe t that position m holds, from the parts it holds. -/
def pieceOf (k m t : Nat) (parts : List (Nat × List (List Nib))) : Option (List Nib) :=
  match parts.find? (fun e => e.1 == m), indexOf (fun x => x == t) (stripesOf k m) with
  | some e, some q => e.2[q]?
  | _, _ => none

/-- Sum of two pieces, and a piece times a field element. -/
def pieceAdd (x y : List Nib) : List Nib := List.zipWith (fun a b => a ^^^ b) x y
def pieceMul (c : Nib) (x : List Nib) : List Nib := x.map (gfMul c)

/-- The parity P0 or P1 of stripe t, from the pieces that are there. -/
def parityOf (k t n : Nat) (second : Bool) (parts : List (Nat × List (List Nib))) : List Nib :=
  let ds := dataOf k t
  (List.zip (List.range ds.length) ds).foldl (fun a e =>
    match pieceOf k e.2 t parts with
    | some x => pieceAdd a (pieceMul (if second then alphaPow e.1 else 1#4) x)
    | none => a) (List.replicate n 0#4)

/-- The data piece of stripe t at code index i, decoded from what survives (R441): one lost piece from either parity, two from
both. -/
def decodePiece (k t i n : Nat) (parts : List (Nat × List (List Nib))) : List Nib :=
  let ds := dataOf k t
  let at' (m q : Nat) : Option (List Nib) := match parts.find? (fun e => e.1 == m) with
    | some e => e.2[q]?
    | none => none
  let p0 := at' t (k - 2)
  let p1 := at' ((t + 1) % k) (k - 1)
  let z := List.replicate n 0#4
  let s0 := pieceAdd (p0.getD z) (parityOf k t n false parts)
  let s1 := pieceAdd (p1.getD z) (parityOf k t n true parts)
  let lost := (List.range ds.length).filter (fun j => j != i && (pieceOf k (nth 0 ds j) t parts).isNone)
  match lost with
  | [] => if p0.isSome then s0 else pieceMul (gfInv (alphaPow i)) s1
  | j :: _ => pieceMul (gfInv (alphaPow i ^^^ alphaPow j)) (pieceAdd s1 (pieceMul (alphaPow j) s0))

/-! ### Groups and the peer store (R440, R442) -/

/-- The module ids of a module's group, and its position. -/
def groupIds (t : StepTable) : List Nat × Nat :=
  let (first, k) := ckptGroup t.modules t.index
  (((t.list.map (·.1)).drop first).take k, t.index - first)

/-- The first nibble of the peer store, the header of generation g, and part q of it. -/
def State.peerBase (s : State) : Nat := s.rdF oPwrPeerBase 0 20 * unit16
def State.oPeerHeader (s : State) (g : Nat) : Nat := s.peerBase + 128 * g
def State.oPeerPart (s : State) (g k units q : Nat) : Nat := s.peerBase + (1 + k * units * g + q * units) * unit16

/-- The fields of a header below VALID (R442). -/
def headerVal (job step pos g units : Nat) (ids : List Nat) : Nat :=
  3 + job * 2 ^ 8 + step * 2 ^ 24 + pos * 2 ^ 56 + g * 2 ^ 60 + units * 2 ^ 64 +
    (List.zip (List.range ids.length) ids).foldl (fun m e => m + e.2 % 1024 * 2 ^ (94 + 10 * e.1)) 0 + ids.length * 2 ^ 194

/-- A span of this module stored by the runtime, codeword by codeword; one with a marked nibble is written poisoned. -/
def State.spanStore (s : State) (u : Upsets) (o : Nat) (l : List (Nib × Bool)) : State :=
  (List.range (cdiv l.length 32)).foldl (fun v i =>
    let x := (l.drop (32 * i)).take 32
    v.ownStore u (o + 32 * i) (x.map (·.1)) (x.any (·.2))) s

/-- A span of this module read by the runtime. -/
def State.spanLoad (s : State) (u : Upsets) (o n : Nat) : State × List (Nib × Bool) := s.ownLoad u (n / 16) o

/-- The header of generation g as the runtime reads it. -/
def State.headerAt (s : State) (g : Nat) : Nat := ofNibs ((s.ownLoad [] 8 (s.oPeerHeader g)).2.map (·.1))

/-- The step of the valid header of generation g for a job, if there is one. -/
def State.headerStep (s : State) (job g : Nat) : Option Nat :=
  let v := s.headerAt g
  if bits v 480 32 = 0x600D0003 && bits v 0 8 = 3 && bits v 8 16 = job then some (bits v 24 32) else none

/-- `PWR_CKPT` shows the newest valid header of the module (R444). -/
def State.showCkpt (s : State) (job : Nat) : State :=
  s.wr oPwrCkpt (match s.headerStep job 0, s.headerStep job 1 with
    | some a, some b => BitVec.ofNat 32 (Nat.max a b)
    | some a, none => BitVec.ofNat 32 a
    | none, some b => BitVec.ofNat 32 b
    | none, none => 0xFFFFFFFF#32)

/-- The checkpoint image: the live copy of every staged region, padded with zeros to n nibbles (R440). -/
def State.ckptImage (s : State) (u : Upsets) (p n : Nat) : State × List (Nib × Bool) :=
  let q := (s.stagedOf p).foldl (fun (acc : State × List (Nib × Bool)) e =>
    let x := acc.1.spanLoad u (e.2.base * unit16) (e.2.len * unit16)
    (x.1, acc.2 ++ x.2)) (s, [])
  (q.1, q.2 ++ List.replicate (n - q.2.length) (0#4, false))

/-- An image written into both copies of every staged region, the copy of step c live (R443). -/
def State.putImage (s : State) (u : Upsets) (p c : Nat) (l : List (Nib × Bool)) : State :=
  let (s1, _) := (s.stagedOf p).foldl
    (fun (acc : State × List (Nib × Bool)) e =>
      let n := e.2.len * unit16
      let v := (acc.1.spanStore u (e.2.base * unit16) (acc.2.take n)).spanStore u (e.2.alt * unit16) (acc.2.take n)
      (v.setLive e.1 (c % 2 == 1), acc.2.drop n)) (s, l)
  s1

/-- VALID of a header. -/
def State.oPeerMark (s : State) (g : Nat) : Nat := s.oPeerHeader g + 120

/-- The header of a generation is written, VALID last (R440). -/
def State.writeHeader (s : State) (u : Upsets) (t : StepTable) (c g units : Nat) : State :=
  let (ids, pos) := groupIds t
  let v := headerVal t.job c pos g units ids
  ((s.ownStore u (s.oPeerHeader g) (nibsOf v 120) false).ownStore u (s.oPeerMark g) (nibsOf 0x600D0003 8) false).showCkpt t.job

/-- VALID of a generation is cleared before any part of it is written (R440). -/
def State.clearHeader (s : State) (u : Upsets) (job g : Nat) : State :=
  (s.ownStore u (s.oPeerMark g) (nibsOf 0 8) false).showCkpt job

/-- The parts of a generation: the image, then P0 of this position's stripe and P1 of the one before (R442). -/
def State.writeParts (s : State) (u : Upsets) (g k units : Nat) (image : List (Nib × Bool)) (p0 p1 : List Nib) : State :=
  let plain (l : List Nib) : List (Nib × Bool) := l.map (fun x => (x, false))
  let s1 := s.spanStore u (s.oPeerPart g k units 0) image
  let s2 := s1.spanStore u (s1.oPeerPart g k units (k - 2)) (plain p0)
  s2.spanStore u (s2.oPeerPart g k units (k - 1)) (plain p1)

/-- A checkpoint of step c of partition p (R440): VALID of the generation cleared, the image and the two parity parts written,
then the header (DEDUCED, log 78). -/
def State.takeCkpt (s : State) (u : Upsets) (p c units : Nat) (t : StepTable) (peers : List (Nat × List (List Nib))) : State :=
  let (ids, pos) := groupIds t
  let k := ids.length
  let g := c / t.interval % 2
  let n := units * unit16
  let image := (s.clearHeader u t.job g).ckptImage u p ((k - 2) * n)
  (image.1.writeParts u g k units image.2 (parityOf k pos n false peers) (parityOf k ((pos + k - 1) % k) n true peers)).writeHeader u t c g units

/-- CHECKPOINT (R440): `largest` is the largest image of the group in units of 16 Mn. It is skipped where the other generation
is not valid on every module of the group, or the peer store is too short. -/
def execCheckpoint (p largest : Nat) (othersValid : Bool) (peers : List (Nat × List (List Nib))) (s : State) (u : Upsets := []) : Out :=
  ranCore (.checkpoint p largest othersValid peers u) s
    (match (s.part p).copying, (s.part p).table with
     | some c, some t =>
       let k := (groupIds t).1.length
       let units := cdiv largest (k - 2)
       let s1 := if othersValid && decide (1 + 2 * k * units ≤ (s.rd oPwrPeerLen).toNat) then s.takeCkpt u p c units t peers else s
       let s2 := s1.putPart p { s1.part p with copying := none }
       if s2.phase p == phCommit then s2.reportStaged p else s2
     | _, _ => s)

/-! ### Roll-back and recovery replay (R229 to R231, R443) -/

/-- The image of a step in this module's peer store, if a valid header stands for it: its generation and Q. -/
def State.ckptAt (s : State) (job c : Nat) : Option (Nat × Nat) :=
  if s.headerStep job 0 = some c then some (0, bits (s.headerAt 0) 64 30)
  else if s.headerStep job 1 = some c then some (1, bits (s.headerAt 1) 64 30)
  else none

/-- A partition returns to step c from an image (R443; DESIGN CHOICE, log 79). -/
def State.restoreTo (s : State) (u : Upsets) (p c : Nat) (l : List (Nib × Bool)) : State :=
  ((s.putImage u p c l).wr (oStepCommitted p) (BitVec.ofNat 32 c)).endStep p 3 .wrongState

/-- ROLL_BACK (R443): with no step that every group can decode, the partition stays in HELD and the owner ring is told. -/
def execRollBack (p c : Nat) (decodable : Bool) (s : State) (u : Upsets := []) : Out :=
  ranCore (.rollBack p c decodable u) s
    (match (s.part p).table with
     | some t =>
       if s.phase p != phHeld then s
       else if !decodable then s.raiseOwner .teardown .jobTorn (srcCentral 5)
       else match s.ckptAt t.job c with
         | some (g, units) =>
           let k := (groupIds t).1.length
           let (s1, l) := s.spanLoad u (s.oPeerPart g k units 0) ((k - 2) * units * unit16)
           s1.restoreTo u p c l
         | none => s
     | none => s)

/-- A module whose memory was lost rebuilds its image and its parity parts, writes the header, and returns to the checkpoint
step (R443). -/
def State.rebuild (s : State) (u : Upsets) (p : Nat) (t : StepTable) (b : Rebuild) : State :=
  let (ids, pos) := groupIds t
  let k := ids.length
  let n := b.units * unit16
  let g := if t.interval = 0 then 0 else b.step / t.interval % 2
  let piece (st : Nat) : List Nib := decodePiece k st ((indexOf (fun x => x == pos) (dataOf k st)).getD 0) n b.survivors
  let image := ((stripesOf k pos).flatMap piece).map (fun x => (x, false))
  let full (st : Nat) : List (Nat × List (List Nib)) :=
    let ds := dataOf k st
    (List.zip (List.range ds.length) ds).map (fun e =>
      (e.2, (stripesOf k e.2).map (fun x => if x = st then
        (match pieceOf k e.2 st b.survivors with
         | some y => y
         | none => decodePiece k st e.1 n b.survivors) else [])))
  ((s.writeParts u g k b.units image (parityOf k pos n false (full pos))
    (parityOf k ((pos + k - 1) % k) n true (full ((pos + k - 1) % k)))).writeHeader u t b.step g b.units).restoreTo u p b.step image

/-- RECOVERY_REPLAY (R231) of a partition in HELD: with nothing to rebuild, the present record that it has not applied is applied;
else the module's state is rebuilt from its peers (R443; DEDUCED, log 80). -/
def execRecoveryReplay (p : Nat) (b : Option Rebuild) (s : State) (u : Upsets := []) : Out :=
  ranCore (.recoveryReplay p b u) s
    (if s.phase p != phHeld then s
     else match b with
       | none =>
         (match s.recordOf p with
          | some k => if s.rd (oStepCommitted p) != s.rd (oStepIndex p) then s.applyRecord p k else s
          | none => s)
       | some r =>
         (match (s.part p).table with
          | some t => s.rebuild u p t r
          | none => s))

end Sys2Proof.Machine
end

