-- ==== Sys2Proof/Machine/Rings.lean ====
section
/-! DEFINITION. Command rings (R367 to R380): starting and stopping a ring, fetching and checking a command, host reads, and the commands of a partition ring. -/

namespace Sys2Proof.Machine

/-! ### Ring states (R374) -/

/-- A ring as a report source (R474). -/
def srcRing (r : Nat) : Src := { kind := 7, index := r }

/-- A ring stops for a reason, and the owner is told (R374). -/
def State.stopRing (s : State) (r : Nat) (st : Status) : State :=
  ((s.wrF (oRingStatus r) 0 2 rgStopped).wrF (oRingStatus r) 2 8 st.code).raiseOwner .ring st (srcRing r)

/-- The doorbell block read at enable is checked: RUNNING where its four fields are zero, else STOPPED (R374; DEDUCED, log 37). -/
def State.startRing (s : State) (r : Nat) (reply : HostReply) (db : List Word) : State :=
  if s.rdF (oRingCtrl r) 0 1 != 1 || s.ringState r != rgDisabled then s
  else if reply != .data then s.stopRing r .poisoned
  else if db.all (fun w => w == 0) then (s.wrF (oRingStatus r) 0 2 rgRunning).wrF (oRingStatus r) 16 16 0
  else s.stopRing r .badDescriptor

/-- RING_ENABLE (R374). -/
def execRingEnable (r : Req) (n : Nat) (reply : HostReply) (db : List Word) (s : State) : Out :=
  ran (.ringEnable r n reply db)
    ((if s.rdF (oRingCtrl n) 0 1 = 1 then s else s.busWrite r (oRingCtrl n) 1).startRing n reply db)

/-- RING_DISABLE (R374). -/
def execRingDisable (r : Req) (n : Nat) (s : State) : Out := ran (.ringDisable r n) (s.busWrite r (oRingCtrl n) 0)

/-- The doorbell block of a running ring has been read (R370, R374; DEDUCED, log 93). -/
def State.doorbell (s : State) (r : Nat) (reply : HostReply) (prod cons : Word) : State :=
  if s.ringState r != rgRunning then s
  else if reply != .data then s.stopRing r .poisoned
  else if s.cmdSize r < (prod - s.rd (oRingCmdCons r)).toNat then s.stopRing r .badDescriptor
  else s.putRing r { s.ring r with cmdProd := prod.toNat, cplCons := cons.toNat }

/-- DOORBELL_NOTIFY (R370). -/
def execDoorbellNotify (r : Nat) (reply : HostReply) (prod cons : Word) (s : State) : Out :=
  ran (.doorbellNotify r reply prod cons) (s.doorbell r reply prod cons)

/-! ### Reads of host memory by a DMA channel (R359, R377) -/

/-- The nth outstanding host read is answered: a read that fails counts as poisoned (R359). A completion of another length
than the read's answers nothing (DEDUCED, log 94). -/
def State.hostAnswer (s : State) (u : Upsets) (n : Nat) (ok : Bool) (data : List Nib) : State :=
  match s.host.reads[n]? with
  | none => s
  | some (_, k, run, off, len) =>
    match tfind s.dma k with
    | none => s
    | some x =>
      let d := dmaDesc x.regs
      let want := if d.mode = 0 then (d.srcSpan off len).2 else if d.mode = 1 then d.count else data.length
      if ok && data.length != want then s
      else ({ s with host := { s.host with reads := dropAt s.host.reads n } } : State).dmaArrive u k run off len (if ok then .ok else .poisoned) data

/-- PCIE_COMPLETION_TIMEOUT (R359, R377). -/
def execPcieCompletionTimeout (n : Nat) (s : State) : Out := ranCore (.pcieCompletionTimeout n) s (s.hostAnswer [] n false [])

/-- HOST_READ_COMPLETION (R359, R377). -/
def execHostReadCompletion (n : Nat) (reply : HostReply) (data : List Nib) (s : State) (u : Upsets := []) : Out :=
  ranCore (.hostReadCompletion n reply data u) s (s.hostAnswer u n (reply == .data) data)

/-! ### Fetching and checking (R371, R376, R377, R380) -/

/-- The ring fetches its next entry (R371, R376, R380, R381): the host link is up, the ring runs, an entry is posted, a completion entry is free, the module
state allows it, and no earlier command waits for its accept point. -/
def State.fetches (s : State) (r : Nat) : Bool :=
  s.host.linkUp && s.ringState r == rgRunning && (s.rd (oRingCmdCons r)).toNat != (s.ring r).cmdProd && s.cplRoom r &&
  (if r = 16 then s.inService || ((s.modState == stDormant || s.modState == stBeacon) && !s.hostDead)
   else s.inService && !(s.part r).scrub && !(s.part r).step.begun)

/-- The three checks of R377 and the read of the command's payload, in order. -/
def verdict (c : Cmd) (form auth state : Bool) (reply : HostReply) : Status :=
  if c.reserved || !form then .badDescriptor else if !auth then .notAuthorized else if !state then .wrongState
  else if reply = .data then .ok else .poisoned

/-- A command that completes at once: it takes effect where its verdict is OK, and completes with the effect's status and
values. -/
def State.answer (s : State) (c : Cmd) (op : Nat) (v : Status) (f : State → State × Status × Nat × Nat) : State :=
  if !s.fetches c.ring then s
  else
    let s1 := s.consume c.ring 1
    match v with
    | .ok => let (t, st, a, b) := f s1; t.writeCpl c.ring c.tag.toNat st.code op 0 a b
    | st => s1.writeCpl c.ring c.tag.toNat st.code op 0 0 0

/-- A command that waits, put behind those of its ring: its number. -/
def State.addLive (s : State) (c : Cmd) (op : Nat) (live : Live) : State :=
  let x := s.ring c.ring
  s.putRing c.ring { x with nextSeq := x.nextSeq + 1,
                            live := x.live ++ [{ seq := x.nextSeq, tag := c.tag, opcode := op, op := live }] }

/-- A command of n entries that completes later: accepted and entered among the waiting commands where its verdict is OK. -/
def State.await (s : State) (c : Cmd) (op : Nat) (v : Status) (n : Nat) (live : Live) (f : State → State) : State :=
  if !s.fetches c.ring then s
  else
    let s1 := s.consume c.ring n
    match v with
    | .ok => f (s1.addLive c op live)
    | st => s1.writeCpl c.ring c.tag.toNat st.code op 0 0 0

/-- The number that the next waiting command of a ring takes. -/
def State.nextSeq (s : State) (r : Nat) : Nat := (s.ring r).nextSeq

/-- A partition that is created: READY or RUN (R381). -/
def State.created (s : State) (p : Nat) : Bool := (s.part p).ready && !(s.part p).scrub

/-- READY or RUN, and not HELD (R378, R385). -/
def State.openPart (s : State) (p : Nat) : Bool := s.created p && s.phase p != phHeld

/-- READY, and not HELD. -/
def State.readyPart (s : State) (p : Nat) : Bool := s.partState p == 2 && s.phase p != phHeld

/-- The phase is IDLE in a created partition. -/
def State.idlePart (s : State) (p : Nat) : Bool := s.created p && s.phase p == phIdle

/-- A command of a partition ring: an opcode that the owner ring does not accept is unknown there (DEDUCED, log 85). -/
def onPart (c : Cmd) : Bool := decide (c.ring < 16)

/-- The state allows NOP, FENCE and STEP_QUERY: any state of the owner ring, a created partition on its own ring. -/
def State.anyState (s : State) (c : Cmd) : Bool := c.ring == 16 || s.created c.ring

/-! ### NOP and FENCE (R376, R378) -/

/-- NOP. -/
def execNop (c : Cmd) (s : State) : Out :=
  ran (.nop c) (s.answer c 0x01 (verdict c true true (s.anyState c) .data) (fun t => (t, .ok, 0, 0)))

/-- FENCE (R376). -/
def execFence (c : Cmd) (s : State) : Out :=
  ran (.fence c) (s.await c 0x02 (verdict c true true (s.anyState c) .data) 1 .fence (fun t => t.fences c.ring 1))

/-! ### Programs and schedules (R92, R93, R378, R383) -/

/-- The tiles of the fields in a mask. -/
def maskTiles (fields : Long) : List Nat :=
  ((List.range 64).filter (fun f => fields.getLsbD f)).flatMap (fun f => (List.range 192).map (fun l => 192 * f + l))

/-- Every field in a mask belongs to partition p. -/
def State.fieldsOwn (s : State) (p : Nat) (fields : Long) : Bool :=
  (List.range 64).all (fun f => !fields.getLsbD f || (s.partFields p).contains f)

/-- Instruction memory of a tile written from index `first` on; the codewords written lose their poison (R93, R469). -/
def State.loadImem (s : State) (t first : Nat) (l : List Long) : State :=
  let s1 := (List.zip (List.range l.length) l).foldl (fun v e =>
    { v with imem := tset 0#64 v.imem (t * 8192 + first + e.1) e.2 }) s
  { s1 with imemPoison := s1.imemPoison.filter (fun k =>
      !(decide (t * 4096 + first / 2 ≤ k) && decide (k < t * 4096 + (first + l.length + 1) / 2))) }

/-- A partition is in recovery replay: in HELD, with a present record of its step that it has not applied (R231). -/
def State.inReplay (s : State) (p : Nat) : Bool :=
  s.phase p == phHeld && (s.recordOf p).isSome && s.rd (oStepCommitted p) != s.rd (oStepIndex p)

/-- Tied declarations are taken (R217). -/
def State.takesTies (s : State) : Bool := s.inService && !(List.range 16).any s.inReplay

/-- A word whose class is unassigned (R102, R103). -/
def classBad (w : Long) : Bool := decide (13 ≤ (insnOf w).cls)

/-- PROG_LOAD (R92, R378): a word of an unassigned class is rejected; `bad` says that the image holds an instruction rejected
for its operation or modifiers, whose codes the spec does not give, `tied` that the program carries tied declarations
(DESIGN CHOICE, log 40). -/
def execProgLoad (c : Cmd) (first : Nat) (fields : Long) (reply : HostReply) (insns : List Long) (bad tied : Bool) (lim : StepLimits)
    (s : State) : Out :=
  ran (.progLoad c first fields reply insns bad tied lim)
    (let form := onPart c && decide (first < 8192) && decide (first + insns.length ≤ 8192)
     s.answer c 0x10 (verdict c form (s.fieldsOwn c.ring fields) (s.readyPart c.ring) reply) (fun t =>
       if bad || insns.any classBad then (t, .badDescriptor, 0, 0)
       else if tied && !t.takesTies then (t, .tiedUnsupported, 0, 0)
       else
         let t1 := ((maskTiles fields).foldl (fun v x => v.loadImem x first insns) t).clearSched c.ring
         let x := t1.part c.ring
         (t1.putPart c.ring { x with progs := x.progs ++ [(first, insns)], limits := lim }, .ok, 0, 0)))

/-- SCHED_LOAD (R50 to R52). -/
def execSchedLoad (c : Cmd) (reply : HostReply) (img : SchedImage) (s : State) : Out :=
  ran (.schedLoad c reply img)
    (s.await c 0x11 (verdict c (onPart c) true (s.readyPart c.ring) reply) 1 .sched (fun t =>
      ({ t with checker := t.checker ++ [ChkLoad.part c.ring img c.tag] } : State).wrF oChkStatus 0 1 1))

/-! ### Regions and the job (R202, R378, R385) -/

/-- The fields that a range of 16-Mn units reaches. -/
def unitFields (b len : Nat) : List Nat :=
  let lo := tileOfOff (b * unit16) / 192
  let hi := tileOfOff ((b + len) * unit16 - 1) / 192
  (List.range (hi + 1 - lo)).map (· + lo)

/-- A range of units meets the keeper area (R307; DEDUCED, log 91). -/
def meetsKeeper (b len : Nat) : Bool := unitsMeet (b, len) (keeperBase / unit16, 1)

/-- The lowest region entry that is not in use (DESIGN CHOICE, log 87). -/
def State.freeEntry (s : State) : Option Nat :=
  (List.range 4095).find? (fun e => !(s.region e).valid && !(s.region e).torn)

/-- The entry that a REGION_DEFINE describes: the runtime fills PARTITION, KEY and JOB (R378). -/
def State.regionFor (s : State) (p : Nat) (d0 d1 d3 : Word) : Region :=
  { base := fld d0 0 20, len := fld d1 0 20, part := p, valid := flag d0 24, read := flag d0 25, write := flag d0 26,
    atomic := flag d0 27, shared := flag d0 28, weight := flag d0 29, cached := flag d0 30, staged := flag d0 31,
    replica := fld d1 20 12, key := (s.part p).key, job := s.jobOf p, alt := fld d3 0 20, live := flag d3 20, torn := false,
    origin := false }

/-- REGION_DEFINE (R298, R307, R312, R378): a span that leaves the partition's quads is NOT_AUTHORIZED before the entry's form counts
(DEDUCED, log 91). -/
def execRegionDefine (c : Cmd) (d0 d1 d3 : Word) (s : State) : Out :=
  ran (.regionDefine c d0 d1 d3)
    (let r := s.regionFor c.ring d0 d1 d3
     let own := r.ranges.all (fun x => (!r.valid || unitsPlaced x.1 x.2) && !meetsKeeper x.1 x.2 &&
       (unitFields x.1 x.2).all (fun f => (s.partFields c.ring).contains f))
     let form := onPart c && (!r.valid || (decide (1 ≤ r.len) && decide (r.len ≤ 786432) && (!own || s.regionFormOk 4095 r)))
     s.answer c 0x12 (verdict c form own (s.readyPart c.ring) .data) (fun t =>
       match t.freeEntry with
       | some e => (t.putRegion e r, .ok, e, 0)
       | none => (t, .wrongState, 0, 0)))

/-- The job of a partition leaves: its region entries are free, TORN ones included, programs, schedule, step table and ties are
cleared, and the phase is IDLE (R197, R202, R378; DEDUCED, log 88). The claim of its job slot is freed at the keeper, and in the
standby's copy (DESIGN CHOICE, log 70). -/
def State.unloadJob (s : State) (p : Nat) : State :=
  let x := s.part p
  let s1 := ((s.regions.filter (fun e => (e.2.valid || e.2.torn) && e.2.part == p && !e.2.origin && e.1 != 4095)).map (·.1)).foldl
    (fun v e => v.putRegion e region0) s
  let s2 := match x.table with
    | some t =>
      if t.index != 0 then s1
      else
        let v := s1.storeOn s1.keeperId (oClaim t.jobSlot) (nibsOf 0 8)
        if v.hasStandby && v.standbyId != v.keeperId then v.storeOn v.standbyId (oClaim t.jobSlot) (nibsOf 0 8) else v
    | none => s1
  let s3 := s2.clearSched p
  let s4 := s3.putPart p { s3.part p with progs := [], table := none, ties := [], clip := partFree.clip, copying := none }
  ((s4.wrF (oStepPhase p) 6 2 0).wr (oStepClip p) 0x3F800000#32).setPhase p phIdle

/-- JOB_UNLOAD. -/
def execJobUnload (c : Cmd) (s : State) : Out :=
  ran (.jobUnload c)
    (s.answer c 0x13 (verdict c (onPart c) true (s.partState c.ring == 2) .data) (fun t => (t.unloadJob c.ring, .ok, 0, 0)))

/-! ### Kernels (R94, R106, R135, R378) -/

/-- The general registers and predicates of the lanes of a group are as a launch leaves them (R94). -/
def State.clearLanes (s : State) (t n : Nat) : State :=
  let mine (k per : Nat) : Bool := k / per % 16384 == t && homeOf (k / per / 16384) == n
  { s with gpr := s.gpr.filter (fun e => !mine e.1 64), preds := s.preds.filter (fun e => !mine e.1 8) }

/-- One group of a launch starts: its slot, its lanes and its entry of the rotor list (R94, R95, R106). The entry goes behind those the
tile has: R106 gives a launch no place in the list (DESIGN CHOICE, log 130). -/
def State.startGroup (s : State) (t n index key p entry args : Nat) (repack : Bool) : State :=
  let g : Group := { groupFree with live := true, kernel := key, part := p, args := args, index := index, repack := repack }
  let s1 := (s.clearLanes t n).putGroup t n g
  let e : Entry := { lanes := (List.range 32).map (fun i => n * 32 + i), pc := BitVec.ofNat 13 entry, wait := .none, stalled := false }
  s1.putRotor t { s1.rotor t with entries := (s1.rotor t).entries ++ [e] }

/-- The groups of a launch, as tile × 16 + slot, in ascending order. -/
def launchSlots (slots : BitVec 16) (fields : Long) : List Nat :=
  (maskTiles fields).flatMap (fun t => ((List.range 16).filter (fun n => slots.getLsbD n)).map (fun n => t * 16 + n))

/-- The pointer of a tile that had no entry stands at the last one, so that the first is visited first (DESIGN CHOICE, log 130). -/
def State.seatPtr (s v : State) (t : Nat) : State :=
  if (s.entries t).isEmpty then v.putRotor t { v.rotor t with ptr := (v.entries t).length - 1 } else v

/-- The phase tag of an entry index in the schedule of partition p. -/
def State.tagOf (s : State) (p entry : Nat) : KTag :=
  if (s.tagged p .fwd).contains entry then .fwd else if (s.tagged p .bwd).contains entry then .bwd else .none

/-- A tagged kernel is launched only in its own phase (R48). -/
def State.inPhase (s : State) (p entry : Nat) : Bool :=
  match s.tagOf p entry with
  | .fwd => s.phase p == phFwd
  | .bwd => s.phase p == phBwd
  | .none => true

/-- A kernel starts (R94). -/
def State.launch (s : State) (p ring : Nat) (tag : Word) (entry : Nat) (repack : Bool) (slots : BitVec 16) (fields : Long)
    (args kid : Nat) : State :=
  let xs := launchSlots slots fields
  let key := kernelKey p kid
  let idx (n : Nat) : Nat := ((List.range n).filter (fun m => slots.getLsbD m)).length
  let s0 := xs.foldl (fun v x => v.startGroup (x / 16) (x % 16) (idx (x % 16)) key p entry args repack) s
  let s1 := (maskTiles fields).foldl (fun v t => s.seatPtr v t) s0
  let k : Kernel := { part := p, ring := ring, tag := tag, entry := entry, slots := xs, fault := .ok, aborted := false }
  let s2 := { s1 with kernels := tput s1.kernels key k }
  let x := s2.part p
  match s.tagOf p entry with
  | .fwd => s2.putPart p { x with step := { x.step with fwdRun := true } }
  | .bwd => s2.putPart p { x with step := { x.step with bwdRun := true } }
  | .none => s2

/-- KERNEL_LAUNCH (R94, R378; DEDUCED, log 86). -/
def execKernelLaunch (c : Cmd) (entry : Nat) (repack : Bool) (slots : BitVec 16) (fields : Long) (args kid : Nat) (s : State) : Out :=
  ran (.kernelLaunch c entry repack slots fields args kid)
    (let p := c.ring
     let form := onPart c && decide (entry < 8192) && decide (args < 2 ^ 32) && decide (kid < 65536)
     let state := s.openPart p && (s.part p).sched.isSome && (tfind s.kernels (kernelKey p kid)).isNone &&
       (launchSlots slots fields).all (fun x => !(s.group (x / 16) (x % 16)).live) && s.inPhase p entry
     s.await c 0x20 (verdict c form (s.fieldsOwn p fields) state .data) 1 (.launch (kernelKey p kid)) (fun t =>
       t.launch p p c.tag entry repack slots fields args kid))

/-- KERNEL_ABORT (R135, R171, R378). -/
def execKernelAbort (c : Cmd) (kid : Nat) (s : State) : Out :=
  ran (.kernelAbort c kid)
    (let p := c.ring
     let key := kernelKey p kid
     let state := s.openPart p && (tfind s.kernels key).isSome
     s.await c 0x21 (verdict c (onPart c && decide (kid < 65536)) true state .data) 1 (.abort key) (fun t => t.abortKernel key))

/-! ### DMA and the system cache (R280 to R283, R289, R348, R353) -/

/-- DMA_XFER (R348, R353, R357): a busy channel is waited for; a failed read of the paired entry stops the ring (DEDUCED, log 55). -/
def execDmaXfer (c : Cmd) (h : Nat) (paired : Bool) (reply : HostReply) (img : List Word) (s : State) : Out :=
  ran (.dmaXfer c h paired reply img)
    (let auth := s.rdF (oHostDmaRing (h / 4)) (8 * (h % 4)) 8 == c.ring
     let state := if c.ring = 16 then s.inService else s.openPart c.ring
     let v := verdict c (paired && decide (h < 16)) auth state .data
     let both := decide (2 ≤ ((s.ring c.ring).cmdProd + 2 ^ 32 - (s.rd (oRingCmdCons c.ring)).toNat) % 2 ^ 32)
     if !s.fetches c.ring || (paired && !both) then s
     else if paired && reply != .data then s.stopRing c.ring .poisoned
     else if v == .ok && s.dmaBusy (512 + h) then s
     else
       let q := s.nextSeq c.ring
       s.await c 0x30 v (if paired then 2 else 1) (.dma h) (fun t =>
         (t.dmaLoad (512 + h) img).dmaStart (512 + h) (if c.ring = 16 then none else some c.ring) (some (c.ring, q))))

/-- CACHE_OP (R289, R378): it waits for a running operation; a range over two windows may have lines in both halves. -/
def execCacheOp (c : Cmd) (line16 len kind : Nat) (s : State) : Out :=
  ran (.cacheOp c line16 len kind)
    (let h := halfOf (rangeLo line16)
     let form := onPart c && decide (line16 < 2 ^ 32) && decide (1 ≤ len) && decide (len < 2 ^ 17) && (kind == 1 || kind == 2)
     let v := verdict c form true (s.openPart c.ring) .data
     let hs := rangeHalves line16 len
     if v == .ok && hs.any (fun x => (s.half x).op.isSome) then s
     else if v == .ok && hs.length == 2 then
       (if (s.startBothOps line16 len kind c.ring).2 == .ok then
          s.await c 0x31 v 1 (.cacheOp 2) (fun t => (t.startBothOps line16 len kind c.ring).1)
        else s.answer c 0x31 v (fun t => let (u, st) := t.startBothOps line16 len kind c.ring; (u, st, 0, 0)))
     else if v == .ok && (s.startCacheOp h line16 len kind (some c.ring)).2 == .ok then
       s.await c 0x31 v 1 (.cacheOp h) (fun t => (t.startCacheOp h line16 len kind (some c.ring)).1)
     else s.answer c 0x31 v (fun t => let (u, st) := t.startCacheOp h line16 len kind (some c.ring); (u, st, 0, 0)))

/-- The lowest pin entry of a half that reserves nothing and is not busy. -/
def State.freePin (s : State) (h : Nat) : Option Nat :=
  (List.range 8).find? (fun e => let x := tget pin0 (s.half h).pins e; x.ways == 0 && !x.busy)

/-- PIN (R281, R282, R378). -/
def execPin (c : Cmd) (line16 len : Nat) (fill : Bool) (s : State) : Out :=
  ran (.pin c line16 len fill)
    (let h := halfOf (rangeLo line16)
     let form := onPart c && decide (line16 < 2 ^ 32) && decide (1 ≤ len) && decide (len < 2 ^ 17)
     let v := verdict c form true (s.readyPart c.ring) .data
     match s.freePin h with
     | none => s.answer c 0x32 v (fun t => (t, .pinLimit, 0, 0))
     | some e =>
       if v == .ok && fill && s.pinCheck h e c.ring line16 len == .ok then
         s.await c 0x32 v 1 (.pinFill h e) (fun t => (t.pinWrite h e c.ring line16 len fill).1)
       else s.answer c 0x32 v (fun t =>
         let (u, st) := t.pinWrite h e c.ring line16 len fill
         (u, st, if st = .ok then h * 8 + e else 0, 0)))

/-- UNPIN (R283, R378). -/
def execUnpin (c : Cmd) (v : Nat) (s : State) : Out :=
  ran (.unpin c v)
    (let h := v / 8
     let e := v % 8
     let x := tget pin0 (s.half h).pins e
     let state := s.readyPart c.ring && decide (0 < x.ways) && !x.busy
     s.await c 0x33 (verdict c (onPart c && decide (v < 16)) (x.ways == 0 || x.part == c.ring) state .data) 1 (.unpin h e) (fun t =>
       (t.pinWrite h e c.ring 0 0 false).1))

end Sys2Proof.Machine
end

