-- ==== Sys2Proof/Machine/Steps.lean ====
section
/-! DEFINITION. The ring commands of a training step (R199 to R223, R378): STEP_BEGIN, STEP_ABORT, CLIP_SET, TIE_DECLARE, STEP_QUERY and STEP_TABLE. -/

namespace Sys2Proof.Machine

/-! ### STEP_BEGIN (R199, R204 to R206, R222) -/

/-- Lmax of an input tensor, and whether splitting is allowed. -/
def lmaxOf (l : StepLimits) (tensor : Nat) : Option (Nat × Bool) := (l.lmax.find? (fun e => e.1 == tensor)).map (·.2)

/-- The rows of the chunks of a micro-batch (R204). -/
def chunksOf (lmax len : Nat) : List Nat :=
  if len ≤ lmax || lmax = 0 then [len]
  else List.replicate (cdiv len lmax - 1) lmax ++ [len - (cdiv len lmax - 1) * lmax]

/-- The list after splitting: a chunk that is shorter than Lmax is padded to it with masked rows; a micro-batch that is not split keeps
its length (R204). -/
def splitBatches (l : StepLimits) (b : Batches) : List Chunk :=
  b.flatMap (fun e => match lmaxOf l e.1 with
    | some (m, _) => (chunksOf m e.2).map (fun n => { tensor := e.1, rows := n, masked := if e.2 ≤ m then 0 else m - n })
    | none => [{ tensor := e.1, rows := e.2, masked := 0 }])

/-- A micro-batch is overlong where splitting is disabled, or the list grows beyond Bmax (R205). -/
def lengthExceeded (l : StepLimits) (b : Batches) : Bool :=
  b.any (fun e => match lmaxOf l e.1 with
    | some (m, may) => !may && decide (m < e.2)
    | none => false) || decide (l.bmax < (splitBatches l b).length)

/-- n nibbles at a local offset lie in one writable region of partition p (R202, R222). -/
def State.writableBy (s : State) (p o n : Nat) : Bool :=
  s.regions.any (fun e => e.2.valid && e.2.write && e.2.part == p && e.2.holds o && e.2.holds (o + n - 1))

/-- The clip words of per-tensor mode all lie in a writable region (R222). -/
def State.clipWordsOk (s : State) (p : Nat) : Bool :=
  match (s.part p).clip.mode, (s.part p).table, s.normChan p with
  | 2, some t, some c =>
    (List.range (normCount (s.normTable [] p (chanDesc (s.chan p c).desc)).2)).all (fun i => s.writableBy p (t.clipWord + 8 * i) 8)
  | _, _, _ => true

/-- The runtime writes `RND_EPOCH.EPOCH` of every tile of partition p, and then `UPDATE` (R199). -/
def State.strobeEpochs (s : State) (p : Nat) (index : Word) : State :=
  let s1 := (s.partTiles p).foldl (fun v t =>
    { v with strobed := tput v.strobed (oRndEpoch (t / 192) (v.tileSite t)) (index &&& 0xFFFFF#32) }) s
  s1.updateWrite (BitVec.ofNat 32 ((s1.tileGroups p).foldl (fun m g => if m.testBit g then m else m + 2 ^ g) 0))

/-- A step begins: the step's registers, its channels and the epochs are set, and FWD is awaited. -/
def State.beginStep (s : State) (p : Nat) (index : Word) (b : Batches) : State :=
  let x := s.part p
  let bs := splitBatches x.limits b
  let s1 := (((s.wr (oStepIndex p) index).wr (oStepFenceHits p) 0).wrF (oStepPhase p) 4 2 0).wrF (oStepPhase p) 8 1
    (b2n (bs.length != b.length))
  let s2 := if x.clip.mode = 1 then s1 else s1.wr (oStepClip p) 0x3F800000#32
  let st : Step := { begun := true, batches := bs, noStaged := false, skip := false, tieDone := false, fwdRun := false, bwdRun := false }
  ((s2.putPart p { x with step := st }).resetChans p).strobeEpochs p index

/-- STEP_BEGIN: its accept point is the entry to FWD, so the ring holds it until then (R376, R378; DEDUCED, log 75; DEDUCED, log 89). -/
def execStepBegin (c : Cmd) (index : Word) (reply : HostReply) (b : Batches) (s : State) : Out :=
  ran (.stepBegin c index reply b)
    (let p := c.ring
     let x := s.part p
     let v := verdict c (onPart c) true (s.idlePart p && x.table.isSome) reply
     let st := if b.any (fun e => (lmaxOf x.limits e.1).isNone) || !s.clipWordsOk p then Status.badDescriptor
       else if lengthExceeded x.limits b then .lengthExceeded else .ok
     if v == .ok && st == .ok then s.await c 0x40 v 0 .step (fun t => t.beginStep p index b)
     else s.answer c 0x40 v (fun t => (t, st, 0, 0)))

/-! ### STEP_ABORT, CLIP_SET, TIE_DECLARE (R200, R201, R215 to R217, R220) -/

/-- STEP_ABORT (R201). -/
def execStepAbort (c : Cmd) (s : State) : Out :=
  ran (.stepAbort c)
    (let p := c.ring
     let ph := s.phase p
     let state := s.created p && decide (phFwd ≤ ph) && decide (ph ≤ phCommit) && s.rdF (oStepPhase p) 4 1 == 0
     s.await c 0x41 (verdict c (onPart c) true state .data) 1 .stepAbort (fun t =>
       (t.putPart p { t.part p with step := { (t.part p).step with noStaged := true } }).reportStep p 5))

/-- A positive finite F32 (R220). -/
def positiveF32 (w : Word) : Bool := !flag w 31 && w != 0 && fld w 23 8 != 255

/-- A clip mode takes force; in another mode than global-norm the factor reads 1 (R220, R233). -/
def State.setClip (s : State) (p : Nat) (v : Clip) : State :=
  let s1 := (s.putPart p { s.part p with clip := v }).wrF (oStepPhase p) 6 2 v.mode
  if v.mode = 1 then s1 else s1.wr (oStepClip p) 0x3F800000#32

/-- CLIP_SET (R220). -/
def execClipSet (c : Cmd) (reply : HostReply) (v : Clip) (s : State) : Out :=
  ran (.clipSet c reply v)
    (let p := c.ring
     s.answer c 0x42 (verdict c (onPart c) true (s.idlePart p) reply) (fun t =>
       if decide (3 ≤ v.mode) || (v.mode != 0 && v.tau.any (fun e => !positiveF32 e.2)) then (t, .badDescriptor, 0, 0)
       else (t.setClip p v, .ok, 0, 0)))

/-- The form of a tied tensor (R66, R215, R216). -/
def tieOk (x : Tie) : Bool :=
  decide (2 ≤ x.uses) && decide (x.uses ≤ 16) && decide (0 < x.stride) && x.stride % 64 == 0 && x.slots % 64 == 0 &&
  x.scratch % 64 == 0 && x.grad % 4 == 0 && inStore x.slots ((x.uses - 1) * x.stride + 4 * x.elems) && inStore x.grad (4 * x.elems) &&
  inStore x.scratch 1024

/-- The tied tensors of a job on this module, over all its partitions (R215; DEDUCED, log 90). -/
def State.jobTies (s : State) (job : Nat) : Nat :=
  (((List.range 16).filter (fun p => (s.part p).ready && s.jobOf p == job)).map (fun p => (s.part p).ties.length)).foldl (· + ·) 0

/-- TIE_DECLARE (R215 to R217; DEDUCED, log 90). -/
def execTieDeclare (c : Cmd) (reply : HostReply) (x : Tie) (s : State) : Out :=
  ran (.tieDeclare c reply x)
    (let p := c.ring
     s.answer c 0x43 (verdict c (onPart c) true (s.idlePart p) reply) (fun t =>
       if !t.takesTies then (t, .tiedUnsupported, 0, 0)
       else if !tieOk x || decide (256 ≤ t.jobTies (t.jobOf p)) then (t, .badDescriptor, 0, 0)
       else if t.partOfField (x.tile / 192) != some p then (t, .notAuthorized, 0, 0)
       else (t.putPart p { t.part p with ties := (t.part p).ties ++ [x] }, .ok, 0, 0)))

/-! ### STEP_QUERY (R378, R379) -/

/-- STEP_QUERY: the ring's partition, or on the owner ring the partition named. -/
def execStepQuery (c : Cmd) (p : Nat) (s : State) : Out :=
  ran (.stepQuery c p)
    (let q := if c.ring = 16 then p else c.ring
     let state := if c.ring = 16 then s.inService && s.partState p != 0 else s.created c.ring
     s.answer c 0x44 (verdict c (decide (p < 16)) true state .data) (fun t =>
       (t, .ok, t.phase q, (t.rd (oStepCommitted q)).toNat)))

/-! ### STEP_TABLE (R202) -/

/-- The form of a step table for this module and partition. -/
def State.tableOk (s : State) (p : Nat) (t : StepTable) : Bool :=
  t.format == 5 && t.reservedZero && decide (32 + 2 * t.entries ≤ t.length) && t.job == s.jobOf p && decide (t.jobSlot < 64) &&
  decide (1 ≤ t.modules) && decide (t.modules ≤ 1024) && decide (t.modules ≤ t.entries) && decide (t.entries ≤ 1024) &&
  t.list.length == t.entries && decide (t.index < t.modules) &&
  ((t.list[t.index]?).map (·.1) == some s.moduleId) &&
  (List.zip (List.range t.list.length) t.list).all (fun e => e.2.2 == decide (t.modules ≤ e.1)) && noTwice (t.list.map (·.1)) &&
  t.clipWord % 8 == 0 && s.writableBy p t.clipWord 8

/-- The module of INDEX 0 claims the job slot at this module's own keeper area, its word read through the decoder, and the table stands
in the directory there and at the standby (R202, R302, R307). -/
def State.claimHere (s : State) (u : Upsets) (p : Nat) (t : StepTable) : State × Status :=
  let o := oClaim t.jobSlot
  let w := ofNibs (s.seen u o 8)
  if s.readsPoison u o 8 then (s.sense u o 8, .poisoned)
  else if w.testBit 31 && w % 65536 != t.job then (s.sense u o 8, .wrongState)
  else
    let s1 := if w = 0 then s.merge u o (nibsOf (claimVal t.job) 8) else s.sense u o 8
    let s2 := (s1.inTurn (dirStores s1.moduleId t)).tableInForce p t
    (if s2.hasStandby && s2.standbyId != s2.moduleId then s2.copyDir s2.standbyId t else s2, .ok)

/-- A table takes force that claims nothing, or whose claim this module decides (R202). -/
def State.loadTable (s : State) (u : Upsets) (p : Nat) (t : StepTable) : State × Status × Nat × Nat :=
  if t.index != 0 then (s.tableInForce p t, .ok, 0, 0)
  else if s.keeperId = s.moduleId then
    let (s1, st) := s.claimHere u p t
    (s1, st, 0, 0)
  else (s, .badDescriptor, 0, 0)

/-- The claim at the keeper of another module: a CAS of the claim word with the runtime credential, whose answer the task awaits (R202). -/
def State.claimThere (s : State) (p : Nat) (t : StepTable) : State :=
  let id := s.keeper.nextTask
  let s1 : State := { s with keeper := { s.keeper with nextTask := id + 1,
                                                       tasks := tput s.keeper.tasks id { todo := [], after := .claim p t } } }
  s1.sendOp (.task id) 0 0 true false (globalAddr 1 s.keeperId (oClaim t.jobSlot)) (.atomic .cas [(0, BitVec.ofNat 32 (claimVal t.job))])

/-- STEP_TABLE (R202, R378): it completes at once, but for the claim at another module's keeper and the copy of the table there. Without
a route to the keeper that claim meets BAD_DESCRIPTOR (R293; DESIGN CHOICE, log 140). -/
def execStepTable (c : Cmd) (reply : HostReply) (x : StepTable) (u : Upsets) (s : State) : Out :=
  ran (.stepTable c reply x u)
    (let p := c.ring
     let form := onPart c && decide (32 ≤ x.length) && decide (x.length ≤ 2080)
     let v := verdict c form true (s.partState p == 2 && s.phase p == phIdle) reply
     if v == .ok && s.tableOk p x && x.index == 0 && s.keeperId != s.moduleId && (s.route s.keeperId).valid then
       s.await c 0x45 v 1 (.table s.keeper.nextTask) (fun t => t.claimThere p x)
     else s.answer c 0x45 v (fun t => if t.tableOk p x then t.loadTable u p x else (t, .badDescriptor, 0, 0)))

end Sys2Proof.Machine
end

