-- ==== Sys2Proof/Machine/Owner.lean ====
section
/-! DEFINITION. The owner ring (R379): partitions and their scrubs (R381 to R384), the slot frame (R43, R51), shared regions and grants (R386, R387), the epoch tag, MODULE_QUERY and EVENT_READ (R482, R483). -/

namespace Sys2Proof.Machine

/-! ### Scrubs (R383, R386) -/

/-- The memory of what a predicate on offsets selects is zero, without poison, and no line of it is cached. -/
def State.zeroOffsets (s : State) (sel : Nat → Bool) : State :=
  { s with mem := s.mem.filter (fun e => !sel (2 * e.1)), poison := s.poison.filter (fun c => !sel (32 * c)),
           lines := s.lines.filter (fun e => !sel (256 * e.2.num)) }

/-- Accumulators, instruction memories and rendezvous counts of the tiles that a predicate selects are zero. -/
def State.zeroTiles (s : State) (sel : Nat → Bool) : State :=
  { s with acc := s.acc.filter (fun e => !sel (e.1 / 65536)), imem := s.imem.filter (fun e => !sel (e.1 / 8192)),
           imemPoison := s.imemPoison.filter (fun k => !sel (k / 4096)), cells := s.cells.filter (fun e => !sel (e.1 / 64)) }

/-- The scrub of a list of fields (R383): their windows but for the keeper area, tile stores, accumulators, instruction memories
and rendezvous counts. -/
def State.zeroFields (s : State) (fs : List Nat) : State :=
  (s.zeroOffsets (fun o => fs.contains (tileOfOff o / 192) && !(decide (keeperBase ≤ o) && decide (o < keeperEnd)))).zeroTiles
    (fun t => fs.contains (t / 192))

/-- The fields of a quad mask. -/
def quadMaskFields (q : BitVec 16) : List Nat := (List.range 64).filter (fun f => q.getLsbD (quadOf f))

/-- The key map of a partition after PART_CREATE (R383): the job key in entry 15. -/
def State.firstKeys (s : State) (p key : Nat) : State :=
  ((List.range 15).foldl (fun v i => v.putKmap p i kmap0) s).putKmap p 15 { kmap0 with valid := true, key := key }

/-- Every region entry and key-map entry of a partition is free. -/
def State.freeEntries (s : State) (p : Nat) : State :=
  let s1 := ((s.regions.filter (fun e => e.2.part == p && !e.2.origin && e.1 != 4095)).map (·.1)).foldl (fun v e => v.putRegion e region0) s
  (List.range 16).foldl (fun v i => v.putKmap p i kmap0) s1

/-- The debug level changes, and the change is reported (R461, R480). -/
def State.putLevel (s : State) (level : Nat) : State :=
  let s1 := s.wrF oSecStatus 2 2 level
  let s2 := if level = 2 then s1.wrF oSecStatus 4 1 1 else s1
  s2.raiseOwner .security .ok (srcCentral 2)

/-- A partition without a job shows no phase and no clip mode, in which the factor reads 1 (R233). -/
def State.freshStep (s : State) (p : Nat) : State := (s.wr (oStepPhase p) 0).wr (oStepClip p) 0x3F800000#32

/-- The end of a D2 grant in SEALED (R462 order 5): the destroyed partitions are FREE and the level is D2. -/
def State.grantD2 (s : State) : State :=
  ((List.range 16).foldl (fun v p => if (v.part p).scrub then ((v.freeEntries p).putPart p partFree).freshStep p else v) s).wrF oSecStatus 8 8 0
    |>.putLevel 2

/-- What a scrub clears, and what its end puts in force (R381, R383, R384, R386). -/
def State.finishScrub (s : State) (x : Scrub) : State :=
  let r := x.cmd.1
  let q := x.cmd.2
  match x.kind with
  | .create p =>
    let s1 := (s.zeroFields (quadMaskFields x.quads)).firstKeys p (s.part p).key
    let s2 := (s1.putPart p { s1.part p with ready := true, scrub := false }).freshStep p
    s2.ringDone r q .ok 0 0
  | .destroy p =>
    let s1 := (s.zeroFields (quadMaskFields x.quads)).freeEntries p
    ((s1.putPart p partFree).freshStep p).ringDone r q .ok 0 0
  | .shared _ => (s.zeroOffsets (fun o => inUnits x.base x.len o)).ringDone r q .ok 0 0
  | .debug => (s.zeroFields (List.range 64)).grantD2.ringDone r q .ok 0 0

/-- SCRUB_COMPLETE (R381): the nth scrub under way ends. -/
def execScrubComplete (n : Nat) (s : State) : Out :=
  ranCore (.scrubComplete n) s
    (match s.scrubs[n]? with
     | some x => ({ s with scrubs := dropAt s.scrubs n } : State).finishScrub x
     | none => s)

/-! ### PART_CREATE and PART_DESTROY (R379, R383, R384) -/

/-- A command of the owner ring in a state of full service (R380). -/
def State.ownerState (s : State) (state : Bool) : Bool := s.inService && state

/-- A quad mask holds a shared region, or one whose scrub has not ended (R386). -/
def State.quadsShared (s : State) (q : BitVec 16) : Bool :=
  s.regions.any (fun e => e.2.valid && e.2.origin && (unitFields e.2.base e.2.len).any (fun f => q.getLsbD (quadOf f))) ||
  s.scrubs.any (fun x => (match x.kind with
    | .shared _ => true
    | _ => false) && (unitFields x.base x.len).any (fun f => q.getLsbD (quadOf f)))

/-- Partitions may be created: not in RETIRED, nor at level D2 in SEALED (R459, R462). -/
def State.mayCreate (s : State) : Bool :=
  let life := s.rdF oSecStatus 0 2
  !(life == 2 || (life == 1 && s.debugLevel == 2))

/-- PART_CREATE. -/
def execPartCreate (c : Cmd) (p : Nat) (quads : BitVec 16) (job key : Nat) (s : State) : Out :=
  ran (.partCreate c p quads job key)
    (let form := decide (p < 16) && decide (job < 65536) && decide (key < 65536)
     let free := s.partState p == 0 && (List.range 16).all (fun q => !quads.getLsbD q || (s.partOfQuad q).isNone) && !s.quadsShared quads
     let q := s.nextSeq c.ring
     s.await c 0x80 (verdict c form (c.ring == 16) (s.ownerState (free && s.mayCreate)) .data) 1 .scrub (fun t =>
       let x : Scrub := { kind := .create p, quads := quads, base := 0, len := 0, cmd := (c.ring, q) }
       let t1 := (t.putPart p { partFree with scrub := true, quads := quads, key := key }).wrF (oPartJob p) 0 16 job
       { t1 with scrubs := t1.scrubs ++ [x] }))

/-- Every command that a partition's ring has waiting completes with JOB_TORN (R384). -/
def State.tearCmds (s : State) (r : Nat) : State := (s.ring r).live.foldl (fun v l => v.ringDone r l.seq .jobTorn 0 0) s

/-- The teardown of a forced destroy (R384; DEDUCED, log 92). -/
def State.forceDown (s : State) (p : Nat) : State :=
  let mine (l : ChkLoad) : Bool := match l with
    | .part q _ _ => q == p
    | .frame _ _ => false
  let s1 := (s.tearPart p).tearChans p
  let s2 := ({ s1 with checker := s1.checker.filter (fun l => !mine l) } : State).tearCmds p
  let rings := 16 :: (List.range 16).filter (fun q => s2.created q && s2.jobOf q == s2.jobOf p)
  ((s2.wrF (oRingCtrl p) 0 1 0).disableRing p).raise .teardown .jobTorn (srcCentral 5) rings

/-- PART_DESTROY (R384). -/
def execPartDestroy (c : Cmd) (p : Nat) (force : Bool) (s : State) : Out :=
  ran (.partDestroy c p force)
    (let st := s.partState p
     let state := st == 2 || (force && st == 3)
     let q := s.nextSeq c.ring
     s.await c 0x81 (verdict c (decide (p < 16)) (c.ring == 16) (s.ownerState state) .data) 1 .scrub (fun t =>
       let t0 := if force then t.forceDown p else t
       let t1 := t0.clearSched p
       let y := t1.part p
       let x : Scrub := { kind := .destroy p, quads := y.quads, base := 0, len := 0, cmd := (c.ring, q) }
       let t2 := t1.putPart p { partFree with scrub := true, quads := y.quads }
       { t2 with scrubs := t2.scrubs ++ [x] }))

/-! ### The slot frame (R43, R51) -/

/-- The partitions that own other slots under a new frame. -/
def State.frameChanges (s : State) (f : FrameImage) : List Nat :=
  let slots (l : List (RotaRes × Nat × Nat)) (p : Nat) : List (Nat × Nat) := (l.filter (fun e => e.2.2 == p)).map (fun e => (rotaKey e.1, e.2.1))
  (List.range 16).filter (fun p =>
    !((slots s.frame p).all (fun x => (slots f.slots p).contains x) && (slots f.slots p).all (fun x => (slots s.frame p).contains x)))

/-- FRAME_LOAD (R51, R52). -/
def execFrameLoad (c : Cmd) (reply : HostReply) (img : FrameImage) (s : State) : Out :=
  ran (.frameLoad c reply img)
    (let state := !(s.frameChanges img).any (fun p => s.partState p == 3)
     s.await c 0x82 (verdict c true (c.ring == 16) (s.ownerState (state || reply != .data)) reply) 1 .frame (fun t =>
       ({ t with checker := t.checker ++ [ChkLoad.frame img c.tag] } : State).wrF oChkStatus 0 1 1))

/-! ### Shared regions (R386, R387) -/

/-- SHARED_CREATE (R386). -/
def execSharedCreate (c : Cmd) (base len key replica : Nat) (s : State) : Out :=
  ran (.sharedCreate c base len key replica)
    (let r : Region := { region0 with base := base, len := len, valid := true, read := true, write := true, replica := replica,
                                      key := key, origin := true }
     let form := decide (base < 2 ^ 20) && decide (len < 2 ^ 20) && decide (key < 65536) && decide (replica < 4096) && s.regionFormOk 4095 r
     let state := (unitFields base len).all (fun f => (s.partOfField f).isNone)
     s.answer c 0x83 (verdict c form (c.ring == 16 && !meetsKeeper base len) (s.ownerState state) .data) (fun t =>
       match t.freeEntry with
       | some e => (t.putRegion e r, .ok, e, 0)
       | none => (t, .wrongState, 0, 0)))

/-- SHARED_SEAL (R386). -/
def execSharedSeal (c : Cmd) (e : Nat) (s : State) : Out :=
  ran (.sharedSeal c e)
    (let r := s.region e
     let state := r.valid && r.origin && !r.shared
     s.answer c 0x84 (verdict c (decide (e < 4096)) (c.ring == 16) (s.ownerState state) .data) (fun t =>
       (t.putRegion e { r with shared := true, write := false, atomic := false }, .ok, 0, 0)))

/-- KEY_GRANT (R386, R387). -/
def execKeyGrant (c : Cmd) (p e module : Nat) (anymod : Bool) (base len key : Nat) (s : State) : Out :=
  ran (.keyGrant c p e module anymod base len key)
    (let form := decide (p < 16) && decide (e < 15) && decide (module < 1024) && decide (base < 2 ^ 20) && decide (len < 2 ^ 20) &&
       decide (key < 65536)
     let state := s.partState p == 2 && !(s.kmap p e).valid
     s.answer c 0x85 (verdict c form (c.ring == 16) (s.ownerState state) .data) (fun t =>
       (t.putKmap p e { base := base, module := module, anymod := anymod, valid := true, len := len, key := key }, .ok, 0, 0)))

/-- KEY_REVOKE (R387). -/
def execKeyRevoke (c : Cmd) (p e : Nat) (s : State) : Out :=
  ran (.keyRevoke c p e)
    (let state := s.partState p == 2 && (s.kmap p e).valid
     s.answer c 0x86 (verdict c (decide (p < 16) && decide (e < 15)) (c.ring == 16) (s.ownerState state) .data) (fun t =>
       (t.putKmap p e kmap0, .ok, 0, 0)))

/-- The restore of a shared region runs: its poison bit is set and no restore of it has failed (R471, R472; DEDUCED, log 96). -/
def State.restoreRuns (s : State) (e : Nat) : Bool := (s.region e).shared && s.rgnPoison e && !s.sec.unrestored.contains e

/-- The `RGN_POISON` bit of an entry cleared. -/
def State.clearPoisonBit (s : State) (e : Nat) : State :=
  let s1 := s.wr (oRgnPoison (e / 32)) (s.rd (oRgnPoison (e / 32)) &&& ~~~ (BitVec.ofNat 32 (2 ^ (e % 32))))
  { s1 with sec := { s1.sec with unrestored := sdel s1.sec.unrestored e } }

/-- SHARED_DESTROY (R379, R472): the entry is free and its memory scrubbed. -/
def execSharedDestroy (c : Cmd) (e : Nat) (s : State) : Out :=
  ran (.sharedDestroy c e)
    (let r := s.region e
     let state := r.valid && r.origin && (s.grantees r).isEmpty && !s.restoreRuns e
     let q := s.nextSeq c.ring
     s.await c 0x87 (verdict c (decide (e < 4096)) (c.ring == 16) (s.ownerState state) .data) 1 .scrub (fun t =>
       let x : Scrub := { kind := .shared e, quads := 0, base := r.base, len := r.len, cmd := (c.ring, q) }
       let t1 := (t.putRegion e region0).clearPoisonBit e
       { t1 with scrubs := t1.scrubs ++ [x] }))

/-- Units of 16 Mn of a region copied from the replica's data, in ascending order (R471 order 4). -/
def State.copyUnits (s : State) (o : Nat) (data : List Nib) (units : List Nat) : State :=
  units.foldl (fun v j => v.spanStore [] (o + unit16 * j) (((data.drop (unit16 * j)).take unit16).map (fun x => (x, false)))) s

/-- The verify pass reads every codeword of some units, with the error patterns it meets; those that read poisoned (R471 order 5). -/
def State.verifyUnits (s : State) (u : Upsets) (o : Nat) (units : List Nat) : State × List Nat :=
  units.foldl (fun acc j =>
    let q := acc.1.spanLoad u (o + unit16 * j) unit16
    (q.1, if q.2.any (·.2) then acc.2 ++ [j] else acc.2)) (s, [])

/-- Up to n copies of some units, each verified (R471); the units that read poisoned after the last. -/
def State.restoreUnits (s : State) (o : Nat) (data : List Nib) : Nat → List Upsets → List Nat → State × List Nat
  | 0, _, units => (s, units)
  | n + 1, us, units =>
    let (s1, bad) := (s.copyUnits o data units).verifyUnits (us.headD []) o units
    if bad.isEmpty then (s1, []) else State.restoreUnits s1 o data n us.tail bad

/-- The runtime restores a poisoned SHARED region (R471, R472): the copy from the replica with the status it met and the data it brought,
and the verify passes with the error patterns that each meets. -/
def State.restoreShared (s : State) (e : Nat) (st : Status) (data : List Nib) (us : List Upsets) : State :=
  let r := s.region e
  let rep := tget { kind := 0, module := 0, hostch := 0, key := 0, addr := 0, valid := false } s.replicas r.replica
  let fail (v : State) (x : Status) : State :=
    { v with sec := { v.sec with unrestored := sadd v.sec.unrestored e } }.raise .restore x (srcCentral 5) [16]
  if !r.shared || !s.rgnPoison e then s
  else if !rep.valid || rep.kind = 0 then fail s .poisoned
  else if st != .ok then fail s st
  else
    let (s1, bad) := s.restoreUnits (r.base * unit16) data 3 us (List.range r.len)
    if !bad.isEmpty then fail s1 .poisoned
    else (s1.clearPoisonBit e).raise .restore .ok (srcCentral 5) (16 :: s1.grantees r)

/-- SHARED_RESTORE. -/
def execSharedRestore (e : Nat) (st : Status) (data : List Nib) (s : State) (us : List Upsets := []) : Out :=
  ranCore (.sharedRestore e st data us) s (s.restoreShared e st data us)

/-! ### EPOCH_SET, MODULE_QUERY, EVENT_READ (R379, R482, R483) -/

/-- EPOCH_SET (R482). -/
def execEpochSet (c : Cmd) (tag : Word) (s : State) : Out :=
  ran (.epochSet c tag)
    (s.answer c 0x88 (verdict c true (c.ring == 16) s.inService .data) (fun t => (t.wr oEvrEpoch tag, .ok, 0, 0)))

/-- Bit p set for each partition not FREE. -/
def State.partMask (s : State) : Nat := (List.range 16).foldl (fun m p => if s.partState p = 0 then m else m + 2 ^ p) 0

/-- MODULE_QUERY (R379). -/
def execModuleQuery (c : Cmd) (s : State) : Out :=
  ran (.moduleQuery c)
    (s.answer c 0x89 (verdict c true (c.ring == 16) true .data) (fun t => (t, .ok, t.modState, t.partMask)))

/-- EVENT_READ (R483). -/
def State.readEvents (s : State) (buf : Long) (n : Nat) (release : Bool) : State × Status × Nat × Nat :=
  let l := s.recorder.log.take n
  let s1 := (List.zip (List.range l.length) l).foldl (fun v e =>
    v.emit (.wr 0 (buf.toNat + 64 * e.1) 64 (recordBits e.2) false)) s
  let first := (s.rd oEvrFirst).toNat
  (if release then s1.releaseRecords l.length else s1, .ok, first, l.length)

/-- EVENT_READ. -/
def execEventRead (c : Cmd) (buf : Long) (len n : Nat) (release : Bool) (s : State) : Out :=
  ran (.eventRead c buf len n release)
    (let form := decide (1 ≤ n) && decide (n ≤ 4096) && decide (64 * n ≤ len)
     s.answer c 0x8B (verdict c form (c.ring == 16) true .data) (fun t => t.readEvents buf n release))

end Sys2Proof.Machine
end

