-- ==== Sys2Proof/Machine/Signing.lean ====
section
/-! DEFINITION. The module's identity and its signing state (R445 to R454): device keys, signing indices, reservation records, node caches. -/

namespace Sys2Proof.Machine

/-! ### Identity (R449, R458) -/

/-- The lifecycle state of flash: that of the valid copy with the higher sequence number, OPEN where no copy is valid (R458). -/
def Flash.life (f : Flash) : Nat :=
  match f.life0, f.life1 with
  | some (a, x), some (b, y) => if a < b then y else x
  | some (_, x), none => x
  | none, some (_, y) => y
  | none, none => 0

/-- The n bytes of a value, least significant first. -/
def bytesLe (v n : Nat) : List Nat := (List.range n).map (fun i => bits v (8 * i) 8)

/-- SHA-256 of the device public key of a lifecycle state (R466). -/
def keyHash (life : Nat) : BitVec 256 := Config.sha256 (bytesLe (Config.deviceKey life).toNat 60)

/-- The SEALED device public key that the vendor certificate holds: bytes 32 to 91 (R450). -/
def Flash.certKey (f : Flash) : BitVec 480 := BitVec.ofNat 480 (f.cert >>> 256)

/-- Eight registers of 32 bits that hold a hash (R466). -/
def State.putHash (s : State) (o : Nat → Nat) (h : BitVec 256) : State :=
  (List.range 8).foldl (fun v n => v.wr (o n) (BitVec.ofNat 32 (h.toNat >>> (32 * n)))) s

/-! ### Signing (R451 to R454) -/

/-- The first index that no signature may use (R446, R454). -/
def signLimit : Nat := 2 ^ 25

/-- END of the valid reservation record with the larger END, 0 where none is valid (R451). -/
def Flash.resEnd (f : Flash) : Nat := Nat.max ((f.res0.map (·.1)).getD 0) ((f.res1.map (·.1)).getD 0)

/-- A reservation record is written: END raised by 1,024, into the sector of the record with the smaller END (R452). -/
def Flash.reserve (f : Flash) (endIdx : Nat) : Flash :=
  let seq := Nat.max ((f.res0.map (·.2)).getD 0) ((f.res1.map (·.2)).getD 0)
  let r := some (endIdx + 1024, (seq + 1) % 2 ^ 32)
  if (f.res0.map (·.1)).getD 0 ≤ (f.res1.map (·.1)).getD 0 then { f with res0 := r } else { f with res1 := r }

/-- `SEC_STATUS.NODES_READY` follows the node cache of the current bottom tree (R453, R466). -/
def State.showNodes (s : State) : State :=
  s.wrF oSecStatus 7 1 (b2n (decide (s.sec.signNext < signLimit) && s.flash.nodes.contains (s.sec.signNext / 32768)))

/-- A bottom tree's node cache is built (R453). -/
def State.buildNodes (s : State) (tree : Nat) : State :=
  ({ s with flash := { s.flash with nodes := sadd s.flash.nodes tree } } : State).showNodes

/-- The module signs a message: the state after, the index used, and the signature; none once the key is used up (R452 to
R454). -/
def State.sign (s : State) (msg : Nat → Nat) : Option (State × Nat × Nat) :=
  let n := s.sec.signNext
  if signLimit ≤ n then none
  else
    let s1 := if s.sec.signEnd ≤ n then
        { s with flash := s.flash.reserve s.sec.signEnd, sec := { s.sec with signEnd := s.sec.signEnd + 1024 } }
      else s
    let s2 := s1.buildNodes (n / 32768)
    some (({ s2 with sec := { s2.sec with signNext := n + 1 } } : State).showNodes, n, Config.signature s.flash.life n (msg n))

/-- The resident runtime runs: in service, DORMANT, start-up from order 6 on (R409), and BEACON of a class in which firmware runs
(R419). -/
def State.firmwareRuns (s : State) : Bool :=
  let c := s.rdF oMcState 0 4
  s.inService || c == stDormant || (c == stStartup && decide (6 ≤ s.rdF oSuStatus 0 4)) ||
  (c == stBeacon && match s.startup.beacon with
    | some (k, _) => !(decide (k ≤ 3) || k == 9)
    | none => false)

/-- NODE_CACHE_BUILD (R453): the next tree's cache, once 24,576 leaves of the current tree are used (DEDUCED, log 114). -/
def execNodeCacheBuild (s : State) : Out :=
  ran .nodeCacheBuild
    (let n := s.sec.signNext
     if s.firmwareRuns && s.sec.idOk && decide (24576 ≤ n % 32768) && decide (n / 32768 + 1 < 1024) then s.buildNodes (n / 32768 + 1)
     else s)

end Sys2Proof.Machine
end

