-- ==== Sys2Proof/Machine/Startup.lean ====
section
/-! DEFINITION. Resets (R407), the start-up sequence (R409 to R417), BEACON and the failure record (R418 to R421), boot history (R484), PCI Express bring-up (R411, R419) and lamps (R422). -/

namespace Sys2Proof.Machine

/-! ### Resets (R407, R416) -/

/-- Every block reset, for a cause of `MC_STATE.CAUSE`: flash keeps its contents, the step counter counts on except at power-up
(R24), and the level of PFW_N stays that of the input (R491; DEDUCED, log 98; DEDUCED, log 107). -/
def State.resetTo (s : State) (cause : Nat) : State :=
  let t := State.resetWith s.flash
  let t1 : State := { t with pending := s.pending, tick := s.tick, steps := if cause = 0 then 0 else s.steps,
                             host := { t.host with out := s.host.out }, power := { t.power with pfw := s.power.pfw } }
  t1.wrF oMcState 4 3 cause

/-- A power-up reset, counted in flash (R421). -/
def State.powerUp (s : State) : State :=
  ({ s with flash := { s.flash with boots := (s.flash.boots + 1) % 2 ^ 32 } } : State).resetTo 0

/-- POWER_UP_RESET (R409). -/
def execPowerUpReset (s : State) : Out := ran .powerUpReset s.powerUp

/-- RESET_N (R491). -/
def execResetN (s : State) : Out := ran .resetN (if s.power.off then s else s.resetTo 2)

/-- PERST_N (R411): the PCI Express block alone. -/
def execPerstN (s : State) : Out :=
  ran .perstN { s with host := { s.host with linkUp := false, sriov := false } }

/-- RESET (R379): the module resets, and nothing completes. -/
def execReset (c : Cmd) (s : State) : Out :=
  ran (.reset c)
    (if !s.fetches c.ring then s
     else match verdict c true (c.ring == 16) true .data with
       | .ok => s.resetTo 1
       | st => (s.consume c.ring 1).writeCpl c.ring c.tag.toNat st.code 0x8C 0 0 0)

/-! ### The failure record (R421) and boot history (R484) -/

/-- Start-up is in progress and runs: no power-fail warning stops it (R416, R491). -/
def State.starting (s : State) : Bool :=
  s.rdF oMcState 0 4 == stStartup && !s.power.off && !s.power.pfw && s.rdF oSuStatus 4 1 == 0

/-- The order in progress or last reached (R423). -/
def State.order (s : State) : Nat := s.rdF oSuStatus 0 4

/-- The next order begins. -/
def State.nextOrder (s : State) : State := s.wrF oSuStatus 0 4 (s.order + 1)

/-- The mask of a list of fields. -/
def fieldMask (l : List Nat) : Nat := (List.range 64).foldl (fun m f => if l.contains f then m + 2 ^ f else m) 0

/-- The failure record of a class and detail. -/
def State.failRecord (s : State) (c d : Nat) : BitVec 512 :=
  let u := s.startup
  let site (i : Nat) : Nat := match u.fails[i]? with
    | some (f, x, k) => f + x * 2 ^ 6 + k * 2 ^ 14 + 2 ^ 31
    | none => 0
  BitVec.ofNat 512 (c + d * 2 ^ 8 + s.order * 2 ^ 16 + u.status.code * 2 ^ 24 + s.flash.boots * 2 ^ 32 + fieldMask u.fieldFail * 2 ^ 64 +
    fieldMask u.hintDiff * 2 ^ 128 + (s.rd oSecFw).toNat * 2 ^ 192 +
    (List.range 8).foldl (fun m i => m + site i * 2 ^ (256 + 32 * i)) 0)

/-- The failure record in `SU_RECORD_n`. -/
def State.showRecord (s : State) (r : BitVec 512) : State :=
  (List.range 16).foldl (fun v n => v.wr (oSuRecord n) (BitVec.ofNat 32 (r.toNat >>> (32 * n)))) s

/-- The boot history (R484): the last failure record in flash as sequence numbers 0 and 1. -/
def State.bootHistory (s : State) : State :=
  let r := s.flash.failRec.toNat
  let word (i : Nat) : Word := BitVec.ofNat 32 (r >>> (32 * i))
  let x (seq : Nat) (snap : List Word) : Record :=
    { seq := seq, cls := Cls.code .startUp, status := bits r 24 8, src := 8 * 2 ^ 14, steps := s.steps, epoch := s.rd oEvrEpoch, rep := 0,
      snap := snap }
  let l := [x 0 ((List.range 12).map word), x 1 ((List.range 12).map (fun i => if i < 4 then word (12 + i) else 0))]
  ({ s with recorder := { s.recorder with log := s.recorder.log ++ l } } : State).wr oEvrNext 2

/-- Every link is OFF, and the flits of its queues are discarded (R429, R431). -/
def State.linksOff (s : State) : State :=
  (List.range 64).foldl (fun v k =>
    let u := v.setLinkState k lkOff
    if (u.link k) = link0 then u else u.putLink k { u.link k with waiting := [], replay := [] }) s

/-- Links that are declared and enabled start their training (R324, R326). -/
def State.trainLinks (s : State) : State :=
  (List.range 64).foldl (fun v k =>
    if flag (v.rd (oLinkExpect k)) 16 && flag (v.rd (oLinkCtrl k)) 0 then v.setLinkState k lkTraining else v) s

/-- The failure record stored in the configuration flash and shown by the recorder (R418, R479). -/
def State.keepFailure (s : State) (r : BitVec 512) : State :=
  ({ s with flash := { s.flash with failRec := r } } : State).showRecord r

/-- BEACON is entered with a class, a detail and a status (R418). -/
def State.enterBeacon (s : State) (c d : Nat) (st : Status) : State :=
  let s1 := if s.order ≤ 3 then s.bootHistory else s
  let s2 := { s1 with startup := { s1.startup with beacon := some (c, d), status := st, lamp := 0 } }
  let s3 := s2.keepFailure (s2.failRecord c d)
  ((((s3.wrF oSuStatus 5 1 1).wrF oSuStatus 8 8 c).wrF oSuStatus 16 8 d).linksOff).setModState stBeacon

end Sys2Proof.Machine

namespace Sys2Proof

/-- An image passes the three checks of R410 (R447). -/
def Revocation.passes (r : Revocation) (x : FwImage) : Bool :=
  r.sigOk && x.sigOk && !r.signers.contains x.signer && decide (r.minFw ≤ x.version)

end Sys2Proof

namespace Sys2Proof.Machine

/-! ### Firmware (R410) -/

/-- The image slots in the order in which the mask ROM tries them: the higher version first (R410; DESIGN CHOICE, log 104). -/
def Flash.images (f : Flash) : List FwImage :=
  match f.slot0, f.slot1 with
  | some a, some b => if a.version < b.version then [b, a] else [a, b]
  | some a, none => [a]
  | none, some b => [b]
  | none, none => []

/-! ### The hint record (R415) -/

/-- A copy is valid: its signature verifies and its identity is the device's. -/
def Flash.hintOk (f : Flash) (h : Option Hint) : Option Hint := h.filter (fun x => x.sigOk && x.ident == keyHash f.life)

/-- The copy used, with its place. -/
def Flash.hint (f : Flash) : Option (Nat × Hint) :=
  match f.hintOk f.hint0, f.hintOk f.hint1 with
  | some a, some b => if a.seq < b.seq then some (1, b) else some (0, a)
  | some a, none => some (0, a)
  | none, some b => some (1, b)
  | none, none => none

/-- Faulty sites of a field by the copy used. -/
def Flash.hintSites (f : Flash) (field : Nat) : List Nat :=
  match f.hint with
  | some (_, h) => (h.sites.filter (fun e => e.1 == field)).map (·.2)
  | none => []

/-! ### BIST and the repair map (R412 to R414) -/

/-- Sites of a field where BIST found one of units x0 to x3 faulty (R413). -/
def Startup.faulty (u : Startup) (f : Nat) : List Nat :=
  ((u.fails.filter (fun e => e.1 == f && decide (e.2.2 < 4))).map (fun e => e.2.1)).foldl sadd []

/-- Sites of a field that the repair map must leave unused: by BIST and by the hint record (R414). -/
def State.mustSkip (s : State) (f : Nat) : List Nat := (s.flash.hintSites f).foldl sadd (s.startup.faulty f)

/-- Corner sites added in order until four sites are chosen (R414). -/
def fillCorners : List Nat → List Nat → List Nat
  | [], l => l
  | c :: r, l => if 4 ≤ l.length then l else fillCorners r (sadd l c)

/-- A failure of fields: BEACON of class x4 with the quad of the lowest (R413, R418). -/
def State.failFields (s : State) (fs : List Nat) : State :=
  ({ s with startup := { s.startup with fieldFail := fs } } : State).enterBeacon 4 (quadOf (nth 0 fs 0)) .ok

/-- Order 6 with its readings in range: BIST has run (R412). -/
def State.bist (s : State) (fails : List (Nat × Nat × Nat)) : State :=
  let fs := sortBy (fun e => (e.1 * sites + e.2.1) * 16 + e.2.2)
    (fails.filter (fun e => decide (e.1 < 64) && decide (e.2.1 < sites) && decide (e.2.2 < 9)))
  let s1 := { s with startup := { s.startup with fails := fs } }
  let bad := (List.range 64).filter (fun f => fs.any (fun e => e.1 == f && e.2.2 == 4))
  if bad.isEmpty then s1.nextOrder else s1.failFields bad

/-- Order 7: the repair map of every field (R414). -/
def State.repairMap (s : State) : State :=
  let bad := (List.range 64).filter (fun f => decide (4 < (s.mustSkip f).length))
  let diff := (List.range 64).filter (fun f => s.mustSkip f != (s.flash.hintSites f).foldl sadd [])
  let s1 := { s with startup := { s.startup with hintDiff := diff } }
  let s2 := if s.flash.hint.isNone then (s1.wrF oSuStatus 7 1 1).raiseOwner .startUp .ok (srcCentral 0) else s1
  if bad.isEmpty then
    { s2 with unused := (List.range 64).foldl (fun m f =>
        tset [0, 13, 182, 195] m f (fillCorners [0, 13, 182, 195] (s.mustSkip f))) s2.unused }.nextOrder
  else s2.failFields bad

/-! ### Unusable channels (R265, R413) -/

/-- The usable channels of the spare vaults of a field, as (target, tier), in ascending order. -/
def State.spareChannels (s : State) (f : Nat) : List (Nat × Nat) :=
  (List.range 4).flatMap (fun k => ((List.range 4).filter (fun c =>
    !(s.vault f (nth 0 (s.unusedOf f) k)).badCh.contains c)).map (fun c => (k + 1, c)))

/-- The unusable channels at logical-tile sites of a field, as (site, channel), in ascending order. -/
def State.lostChannels (s : State) (f : Nat) : List (Nat × Nat) :=
  (s.usedSites f).flatMap (fun x => ((List.range 4).filter (fun c => (s.vault f x).badCh.contains c)).map (fun c => (x, c)))

/-- The 1,024 slots of a channel move to a spare channel, frame by frame (R265). -/
def State.moveChannel (s : State) (f site ch target tier : Nat) : State :=
  ((List.range 1024).foldl (fun v i => v.putSlot f site (4 * i + ch) { target := target, tier := tier, frame := i }) s).showSlots f site

/-- Order 8: the channels found unusable are noted, and their slots moved (R265, R413). -/
def State.moveChannels (s : State) (bad : List (Nat × Nat × Nat)) : State :=
  let ok := bad.filter (fun e => decide (e.1 < 64) && decide (e.2.1 < sites) && decide (e.2.2 < 4))
  let s1 : State := ok.foldl (fun v e => v.putVault e.1 e.2.1 { v.vault e.1 e.2.1 with badCh := sadd (v.vault e.1 e.2.1).badCh e.2.2 }) s
  let fs := (List.range 64).filter (fun f => decide ((s1.spareChannels f).length < (s1.lostChannels f).length))
  if fs.isEmpty then
    (List.range 64).foldl (fun v f =>
      (List.zip (s1.lostChannels f) (s1.spareChannels f)).foldl (fun w e => w.moveChannel f e.1.1 e.1.2 e.2.1 e.2.2) v) s1
  else s1.failFields fs

/-- The (field, site, channel) whose slots order 8 moved. -/
def State.movedChannels (s : State) : List (Nat × Nat × Nat) :=
  (List.range 64).flatMap (fun f => (s.lostChannels f).map (fun e => (f, e.1, e.2)))

/-- The runtime writes a new hint record where the copy used lacks a faulty site or a moved channel, or no copy is valid, and its key
has an index left (R415, R454; DEDUCED, log 105). -/
def State.hintUpdate (s : State) : State :=
  let f := s.flash
  let found := (List.range 64).flatMap (fun k => (s.mustSkip k).map (fun x => (k, x)))
  let moved := s.movedChannels
  let due := match f.hint with
    | some (_, h) => found.any (fun e => !h.sites.contains e) || moved.any (fun e => !h.channels.contains e)
    | none => true
  if !due then s
  else match s.sign (fun n => n) with
    | none => s
    | some (t, _, _) =>
      let seq := (f.hint.map (fun e => (e.2.seq + 1) % 2 ^ 32)).getD 1
      let h : Hint := { seq := seq, ident := keyHash f.life, sigOk := true, sites := found, channels := moved }
      let g := match f.hint with
        | some (0, _) => { t.flash with hint1 := some h }
        | _ => { t.flash with hint0 := some h }
      (({ t with flash := g } : State).wrF oSuStatus 6 1 1).raiseOwner .startUp .ok (srcCentral 0)

/-! ### The orders (R409) -/

/-- The charge target of the bulk store in mV (R425): at most the input, 54.0 V, and what holds 29.80 J. -/
def chargeTarget (inputMv bulkUf : Nat) : Nat :=
  Nat.min (Nat.min inputMv 54000) (if bulkUf = 0 then 54000 else isqrt (59600 * 10 ^ 12 / (1005 * bulkUf)))

/-- Readings of order 6 within the limits of R496. -/
def coolantOk (d : OrderData) : Bool :=
  decide (15 ≤ d.inlet) && decide (d.inlet ≤ 40) && decide (d.outlet ≤ d.inlet + 3) && decide (d.junction ≤ 60)

/-- The readings that `PWR_TEMP` shows (R444). -/
def State.showTemps (s : State) (inlet outlet : Nat) : State :=
  (s.wrF oPwrTemp 8 8 (Nat.min 255 inlet)).wrF oPwrTemp 16 8 (Nat.min 255 outlet)

/-- Order 3: the identity, the certificate and the signing state (R448 to R451, R466); the boot history (R484). -/
def State.identity (s : State) : State :=
  let f := s.flash
  let s1 := { s with sec := { s.sec with idOk := true, signNext := f.resEnd, signEnd := f.resEnd } }
  let s2 := (s1.wr oSecStatus (BitVec.ofNat 32 (f.life + 2 ^ 5 + b2n (f.certOk && f.certKey == Config.deviceKey f.life) * 2 ^ 6))).wr
    oSecBoots (BitVec.ofNat 32 f.boots)
  let s3 := s2.putHash oSecIdHash (keyHash f.life)
  s3.showNodes.bootHistory.nextOrder

/-- A runtime memory holds 32 MiB; the west one lies first (R15, R16). -/
def rtBytes : Nat := 2 ^ 25

/-- Both runtime memories written as zero, and an image copied into the west one (R16, R409 order 4; DESIGN CHOICE, log 147). -/
def runtimeMemory (code : List Byte) : Tab Byte :=
  ((code.take rtBytes).zipIdx.map (fun e => (e.2, e.1))).filter (fun e => e.2 != 0)

/-- Order 4: the firmware image (R410). -/
def State.bootImage (s : State) (flashOk : Bool) : State :=
  let f := s.flash
  let s1 := s.wr oSecRevocation (BitVec.ofNat 32 f.revocation.version)
  if !flashOk || f.images.isEmpty then s.enterBeacon 2 0 .ok
  else match f.images.find? f.revocation.passes with
    | none => s.enterBeacon 3 0 .signatureInvalid
    | some x =>
      (({ s1 with sec := { s1.sec with fw := some x }, rtMem := runtimeMemory x.code } : State).wr oSecFw (BitVec.ofNat 32 x.version)).putHash oSecFwHash x.hash
        |>.nextOrder

/-- The keeper area's region entry, which no partition's key opens (R298, R307). -/
def keeperRegion : Region :=
  { region0 with base := keeperBase / unit16, len := 1, valid := true, read := true, write := true, atomic := true, key := 65537 }

/-- Order 9: every memory is zero with valid check symbols, and the registers marked L are loaded (R9, R408, R423, R480). -/
def State.loadRegisters (s : State) : State :=
  let f := s.flash
  let s1 := { s with mem := [], poison := [], imem := [], imemPoison := [], acc := [], lines := [], cells := [],
                     recorder := { s.recorder with snaps := snapsDefault } }
  let s2 := (((s1.wrF oFabStatus 0 10 f.moduleId).wrF oSuStatus 24 1 (b2n f.toDormant)).wrF oMcId 16 8 f.stepping).putRegion 4095 keeperRegion
  f.peers.foldl (fun v e => if e.1 < 64 then v.wr (oLinkExpect e.1) (BitVec.ofNat 32 (e.2.1 % 1024 + e.2.2 % 64 * 2 ^ 10 + 2 ^ 16)) else v) s2

/-- The SRAM that DORMANT leaves unpowered: tile stores, instruction memories, accumulators and cache halves (R429, R438; DEDUCED, log 103). -/
def State.zeroSram (s : State) : State :=
  { s with mem := s.mem.filter (fun e => decide (2 * e.1 < tsBase)), poison := s.poison.filter (fun c => decide (32 * c < tsBase)),
           imem := [], imemPoison := [], acc := [], lines := [] }

/-- Order 11: every function is ready, and the module leaves start-up (R409, R419, R421; DEDUCED, log 106). -/
def State.finishStartup (s : State) : State :=
  let s1 := (s.wrF oSuStatus 4 1 1).showRecord (s.failRecord 0 0)
  let s2 := { s1 with host := { s1.host with sriov := s1.host.linkUp } }
  let s3 := if s2.host.linkUp then s2.emit (.msix 0 0) else s2
  if s.flash.toDormant then (s3.linksOff.zeroSram).setModState stDormant else s3.setModState stReady

/-- A rail out of tolerance at orders 2 to 4 (R418). -/
def State.railCheck (s : State) (d : OrderData) (t : State) : State :=
  match d.rail with
  | some r => s.enterBeacon 1 r .ok
  | none => t

/-- The order in progress finishes with what it found. -/
def State.orderDone (s : State) (d : OrderData) : State :=
  match s.order with
  | 1 => s.nextOrder
  | 2 => s.railCheck d ((({ s with power := { s.power with target := chargeTarget d.inputMv d.bulkUf } } : State).wrF oPwrPower 16 16
      (Nat.min 65535 d.bulkUf)).nextOrder)
  | 3 => s.railCheck d (if d.pufOk then s.identity else s.enterBeacon 9 0 .ok)
  | 4 => s.railCheck d (s.bootImage d.flashOk)
  | 5 => match d.selfFail with
    | some n => s.enterBeacon 5 n .ok
    | none => s.nextOrder
  | 6 =>
    let t := (s.showTemps d.inlet d.outlet).wrF oPwrTemp 0 8 (Nat.min 255 d.junction)
    if coolantOk d then t.bist d.fails else t
  | 7 => s.repairMap
  | 8 =>
    let t := s.moveChannels d.badCh
    if t.startup.beacon.isSome then t else t.hintUpdate.nextOrder
  | 9 => s.loadRegisters.nextOrder
  | 10 => s.trainLinks.nextOrder
  | 11 => s.finishStartup
  | _ => s

/-- STARTUP_ORDER_COMPLETE (R409). -/
def execStartupOrderComplete (d : OrderData) (s : State) : Out :=
  ran (.startupOrderComplete d) (if s.starting then s.orderDone d else s)

/-- STARTUP_ORDER_TIMEOUT (R409): orders 2 to 11 have a bound. -/
def execStartupOrderTimeout (s : State) : Out :=
  ran .startupOrderTimeout (if s.starting && decide (2 ≤ s.order) then s.enterBeacon 8 s.order .ok else s)

/-- COOLANT_WAIT_TIMEOUT (R417). -/
def execCoolantWaitTimeout (s : State) : Out :=
  ran .coolantWaitTimeout (if s.starting && s.order == 6 then s.enterBeacon 7 0 .ok else s)

/-! ### PCI Express (R411, R419) -/

/-- PCIE_LINK_UP (R419): from order 3 on, and in BEACON; the SR-IOV capability once start-up is done. -/
def execPcieLinkUp (s : State) : Out :=
  ran .pcieLinkUp
    (if s.hostDead || (s.rdF oMcState 0 4 == stStartup && decide (s.order < 3)) then s
     else { s with host := { s.host with linkUp := true, sriov := s.rdF oSuStatus 4 1 == 1 } })

/-! ### Lamps (R422) -/

/-- The length of the BEACON frame in units of 50 ms: CLASS flashes, 1.2 s, DETAIL + 1 flashes, 3.0 s. -/
def beaconFrame (c d : Nat) : Nat := 10 * c + 24 + 10 * (d + 1) + 60

/-- The length of the lamp pattern of the state in units of 50 ms. -/
def State.lampFrame (s : State) : Nat :=
  match s.startup.beacon with
  | some (c, d) => beaconFrame c d
  | none => if s.modState = stStrike then 100 else 20

/-- LAMP_TIMER (R422): 50 ms of the lamp pattern pass. -/
def execLampTimer (s : State) : Out :=
  ran .lampTimer
    (if s.power.off then s else { s with startup := { s.startup with lamp := (s.startup.lamp + 1) % s.lampFrame } })

/-- The first half of each second. -/
def blink (n : Nat) : Bool := decide (n % 20 < 10)

/-- A run of n flashes of 250 ms lit and 250 ms dark. -/
def flashes (t n : Nat) : Bool := decide (t < 10 * n) && decide (t % 10 < 5)

/-- The output LAMP_A is lit (R422). -/
def State.lampA (s : State) : Bool :=
  let c := s.modState
  let t := s.startup.lamp
  if s.power.off then false
  else match s.startup.beacon with
    | some (k, _) => flashes t k
    | none => if c = stStartup then blink t else if c = stStrike then decide (t % 100 < 2) else true

/-- The output LAMP_B is lit (R422). -/
def State.lampB (s : State) : Bool :=
  let c := s.modState
  let t := s.startup.lamp
  if s.power.off then false
  else match s.startup.beacon with
    | some (k, d) => decide (10 * k + 24 ≤ t) && flashes (t - (10 * k + 24)) (d + 1)
    | none => if c = stRun then true else if c = stReef then blink t else false

end Sys2Proof.Machine
end

