-- ==== Sys2Proof/Machine/Power.lean ====
section
/-! DEFINITION. Power (16_power_and_ride_through.md): the governor (R428), REEF and STRIKE (R431 to R437), resuming (R434 to R436), POWER actions (R438), OFF (R433), coolant reports (R496) and control-core stops (R467). -/

namespace Sys2Proof.Machine

/-! ### The power block -/

/-- The event of REEF, STRIKE, resume and the governor's limit: the owner and every partition not FREE (R480). -/
def State.powerEvent (s : State) : State :=
  s.raise .power .ok (srcCentral 1) (16 :: (List.range 16).filter (fun p => s.partState p != 0))

/-- Operating point and duty gate (R427, R444). -/
def State.setPoint (s : State) (point duty : Nat) : State := (s.wrF oPwrState 0 3 point).wrF oPwrState 3 5 duty

/-- `MC_STATE.STATE` as stored: READY stands for RUN too. -/
def State.stCode (s : State) : Nat := s.rdF oMcState 0 4

/-- REEF or STRIKE was entered by command (R444). -/
def State.commanded (s : State) : Bool := s.rdF oPwrState 12 1 == 1

/-- CAUSE and COMMANDED (R444): 1 PFW_N, 2 undervoltage, 3 command. -/
def State.setCause (s : State) (cause : Nat) : State :=
  (s.wrF oPwrState 10 2 cause).wrF oPwrState 12 1 (b2n (cause == 3))

/-! ### The governor (R428) -/

/-- The governor's choice of point and duty from a sample: power, and its averages over 1 ms and 10 ms, in W (DEDUCED, log 101). -/
def State.govern (s : State) (watts avg1 avg10 : Nat) : State :=
  let cap := s.rdF oPwrCap 0 16
  let lo := s.rdF oPwrCap 16 3
  let hi := s.rdF oPwrCap 19 3
  let point := s.rdF oPwrState 0 3
  let fast := decide (11 * cap < 10 * watts)
  let d := if fast then 8 else s.rdF oPwrState 3 5
  let s1 := if fast then s.powerEvent else s
  if cap < avg1 then (if lo < point then s1.setPoint (point - 1) d else s1.setPoint point (Nat.max 2 (d - 2)))
  else if 10 * avg10 < 9 * cap then
    (if d < 16 then s1.setPoint point 16 else if point < hi then s1.setPoint (point + 1) d else s1)
  else s1.setPoint point d

/-- GOVERNOR_SAMPLE (R428, R444): voltage in units of 10 mV, current in units of 0.1 A. The undervoltage warning ends at 46.0 V
(R424). -/
def execGovernorSample (watts avg1 avg10 volt amps : Nat) (s : State) : Out :=
  ran (.governorSample watts avg1 avg10 volt amps)
    (if s.power.off then s
     else
       let s1 := ((s.wrF oPwrInput 0 13 (Nat.min 8191 volt)).wrF oPwrInput 13 13 (Nat.min 8191 amps)).wrF oPwrPower 0 16 (Nat.min 65535 avg1)
       let s2 := if 4600 ≤ volt then s1.wrF oPwrState 9 1 0 else s1
       if s2.stCode = stReady then s2.govern watts avg1 avg10 else s2)

/-! ### REEF (R431, R437, R438) -/

/-- REEF is entered (R431 orders 2 and 3): VP0, D = REEF_DUTY, counted and reported. -/
def State.enterReef (s : State) (cause : Nat) : State :=
  ((((s.setPoint 0 (s.rdF oPwrPfwCfg 17 4)).setCause cause).bump oPwrEvents 0 16 1).setModState stReef).powerEvent

/-- REEF is left for READY or RUN: no gating (R431 order 4, R438). -/
def State.leaveReef (s : State) : State :=
  let s1 := ((s.wrF oPwrState 3 5 16).wrF oPwrState 12 1 0).setModState stReady
  { s1 with power := { s1.power with holding := false } }

/-- Slot copies stop, and what waited for them goes on at the old place (R263). -/
def State.endCopies (s : State) : State := s.stopCopies.wakeAll.wakeChans []

/-- A power-fail warning in READY or RUN (R431): slot copies stop (R263), and the hold begins. -/
def State.warn (s : State) (cause : Nat) : State :=
  let s1 := s.endCopies.enterReef cause
  { s1 with power := { s1.power with holding := true, prior := stReady } }

/-! ### STRIKE (R431 orders 5 to 9) -/

/-- A control core in its reset state. -/
def core0 : Core := { halted := false, stopped := false, arch := 0, saved := 0 }

/-- The control cores save their architectural state in the west runtime memory (R431 order 7), and start again from it (R436);
`Core.saved` stands for the 64 KiB reserved there (DESIGN CHOICE, log 147). -/
def State.saveCores (s : State) : State := { s with cores := s.cores.map (fun e => (e.1, { e.2 with saved := e.2.arch })) }
def State.restoreCores (s : State) : State := { s with cores := s.cores.map (fun e => (e.1, { e.2 with arch := e.2.saved })) }

/-- Orders 5 and 6: accesses that wait are not applied, flits and host reads under way are discarded, and what they belong to is kept
until the module resumes (R55, R432, R434). -/
def State.quiesce (s : State) : State :=
  { s.stopCopies with homeQ := [], cacheQ := [], ops := [], transit := [], discarded := s.discarded ++ s.outstanding,
                      host := { s.host with reads := [] } }

/-- STRIKE is entered, to return to a state later (R431 orders 5 to 9). -/
def State.enterStrike (s : State) (prior : Nat) : State :=
  let s1 := (s.quiesce.saveCores.linksOff.bump oPwrEvents 16 16 1).setModState stStrike
  { s1 with power := { s1.power with holding := false, prior := prior, wake := false } }.powerEvent

/-- The level of PFW_N, as `PWR_STATE.PFW` shows it (R444). -/
def State.setPfw (s : State) (on : Bool) : State :=
  ({ s with power := { s.power with pfw := on } } : State).wrF oPwrState 8 1 (b2n on)

/-- PFW_N asserted (R431, R437, R416; DEDUCED, log 98; DEDUCED, log 99). -/
def State.pfwAssert (s : State) : State :=
  let s1 := s.setPfw true
  if s1.stCode = stReady then s1.warn 1
  else if s1.stCode = stReef then
    (if s1.power.holding then s1
     else { s1.endCopies with power := { s1.power with holding := true } }.powerEvent)
  else if s1.stCode = stDormant then (s1.setCause 1).enterStrike stDormant
  else s1

/-- PFW_N_ASSERT. -/
def execPfwNAssert (s : State) : Out := ran .pfwNAssert (if s.power.off then s else s.pfwAssert)

/-- UNDERVOLTAGE_WARNING (R424, R431). -/
def execUndervoltageWarning (s : State) : Out :=
  ran .undervoltageWarning
    (if s.power.off then s
     else
       let s1 := s.wrF oPwrState 9 1 1
       if s1.stCode = stReady then s1.warn 2 else s1)

/-- PFW_N released for 100 µs (R431 order 4, R416, R491): in the hold, with no undervoltage warning, the module returns to its previous
state; in start-up past order 1, a power-up reset. -/
def State.pfwRelease (s : State) : State :=
  let s1 := s.setPfw false
  if s1.stCode = stReef && s1.power.holding && s1.rdF oPwrState 9 1 == 0 then
    (if s1.commanded then { s1 with power := { s1.power with holding := false } } else s1.leaveReef)
  else if s1.stCode = stStartup && s.power.pfw && decide (2 ≤ s1.order) then s1.powerUp
  else s1

/-- PFW_N_RELEASE. -/
def execPfwNRelease (s : State) : Out := ran .pfwNRelease (if s.power.off then s else s.pfwRelease)

/-- HOLD_END (R431 orders 5 to 9): a commanded REEF goes on as one of PFW_N (R437). -/
def execHoldEnd (s : State) : Out :=
  ran .holdEnd
    (if s.stCode = stReef && s.power.holding then (if s.commanded then s.setCause 1 else s).enterStrike stReady else s)

/-! ### Resuming (R434 to R437) -/

/-- Every command accepted and not completed completes with JOB_TORN, scrubs apart (R434). -/
def State.tearRing (s : State) (r : Nat) : State :=
  let l := (s.ring r).live.filter (fun c => c.op != .scrub)
  (l.filter (fun c => c.op == .fence) ++ l.filter (fun c => c.op != .fence)).foldl (fun v c => v.ringDone r c.seq .jobTorn 0 0) s

/-- TORN is reported for the other jobs that hold a region entry here (R435). -/
def State.tornJobs (s : State) (held : List Nat) : State :=
  ((List.range 16).filter (fun p => s.created p && !held.contains p && !(s.jobRegions (s.jobOf p)).isEmpty)).foldl
    (fun v p => v.reportStep p 4) s

/-- What STRIKE cut off and no partition's teardown has completed completes with JOB_TORN: operations of the runtime (R434). -/
def State.tearDiscarded (s : State) : State :=
  s.discarded.foldl (fun v o => (v.finishThread o (Reply.only .jobTorn)).runtimeDone o (Reply.only .jobTorn)) { s with discarded := [] }

/-- R434 and R435: what becomes of the work that STRIKE cut off. -/
def State.afterStrike (s : State) : State :=
  let held := (List.range 16).filter (fun p => s.partState p == 3)
  let s1 := held.foldl (fun v p => (v.tearPart p).tearChans p) { s with acc := [] }
  let s2 := (held.foldl (fun v p => v.holdPart p) s1).tearDiscarded
  let s3 := (s2.dma.map (·.1)).foldl (fun v k => v.tearDma k) s2
  let s4 := (List.range 17).foldl (fun v r => v.tearRing r) s3
  (({ s4 with checker := [] } : State).wrF oChkStatus 0 1 0).tornJobs held

/-- The module leaves STRIKE for the state it came from (R436, R437). -/
def State.leaveStrike (s : State) : State :=
  let s1 := ((s.restoreCores.calibrate.setPoint 0 16).wrF oPwrState 12 1 0).wrF oPwrState 9 1 0
  let s2 := { s1 with power := { s1.power with wake := false } }
  (if s2.power.prior = stDormant then s2.setModState stDormant else (s2.trainLinks.afterStrike).setModState stReady).powerEvent

/-- RESUME (R436, R437): the input is stable and PFW_N released; a commanded STRIKE waits for a wake (DEDUCED, log 102). -/
def execResume (s : State) : Out :=
  ran .resume
    (if s.stCode = stStrike && !s.power.pfw && (!s.commanded || s.power.wake) then s.leaveStrike else s)

/-- BULK_STORE_COLLAPSE (R433): OFF; everything but flash is lost. -/
def execBulkStoreCollapse (s : State) : Out :=
  ran .bulkStoreCollapse
    (let t := State.resetWith s.flash
     { t with pending := s.pending, tick := s.tick, host := { t.host with out := s.host.out },
              power := { t.power with pfw := s.power.pfw, off := true } })

/-! ### POWER (R438) -/

/-- A POWER action: VALUE0 is the module state at completion. -/
def State.powerCmd (s : State) (c : Cmd) (form state : Bool) (f : State → State) : State :=
  s.answer c 0x8A (verdict c form (c.ring == 16) state .data) (fun t => let u := f t; (u, .ok, u.modState, 0))

/-- POWER QUERY. -/
def execPowerQuery (c : Cmd) (s : State) : Out := ran (.powerQuery c) (s.powerCmd c true true id)

/-- POWER REEF. -/
def execPowerReef (c : Cmd) (s : State) : Out :=
  ran (.powerReef c) (s.powerCmd c true (s.stCode == stReady) (fun t => t.enterReef 3))

/-- In REEF by command, and no hold under way. -/
def State.reefByCommand (s : State) : Bool := s.stCode == stReef && s.commanded && !s.power.holding

/-- POWER REEF_LEAVE. -/
def execPowerReefLeave (c : Cmd) (s : State) : Out :=
  ran (.powerReefLeave c) (s.powerCmd c true s.reefByCommand State.leaveReef)

/-- POWER STRIKE: the completion is written before order 7, in REEF (DEDUCED, log 100). -/
def execPowerStrike (c : Cmd) (s : State) : Out :=
  ran (.powerStrike c)
    (let state := s.stCode == stReady || s.reefByCommand
     let t := s.powerCmd c true state (fun u => if u.stCode == stReady then u.enterReef 3 else u)
     if s.fetches c.ring && verdict c true (c.ring == 16) state .data == .ok then t.enterStrike stReady else t)

/-- The conditions of POWER DORMANT. -/
def State.dormantOk (s : State) : Bool :=
  s.stCode == stReady && (List.range 16).all (fun p => s.partState p == 0) &&
  !s.regions.any (fun e => e.2.valid && e.2.origin && decide (tsBase ≤ (e.2.base + e.2.len) * unit16 - 1)) &&
  !s.isKeeper && !s.isStandby

/-- POWER DORMANT. -/
def execPowerDormant (c : Cmd) (s : State) : Out :=
  ran (.powerDormant c) (s.powerCmd c true s.dormantOk (fun t => (t.linksOff.zeroSram).setModState stDormant))

/-- POWER WAKE. -/
def execPowerWake (c : Cmd) (s : State) : Out :=
  ran (.powerWake c) (s.powerCmd c true (s.stCode == stDormant) (fun t => (t.zeroSram.trainLinks).setModState stReady))

/-- POWER LIMITS. -/
def execPowerLimits (c : Cmd) (cap lo hi : Nat) (s : State) : Out :=
  ran (.powerLimits c cap lo hi)
    (let form := decide (4000 ≤ cap) && decide (cap ≤ 24000) && decide (lo ≤ hi) && decide (hi ≤ 4)
     s.powerCmd c form (s.stCode != stStrike) (fun t => ((t.wrF oPwrCap 0 16 cap).wrF oPwrCap 16 3 lo).wrF oPwrCap 19 3 hi))

/-! ### Reports in service -/

/-- COOLANT_CROSSING (R496): once per crossing of 40 °C at the inlet or 55 °C at the outlet. -/
def execCoolantCrossing (inlet outlet : Nat) (s : State) : Out :=
  ran (.coolantCrossing inlet outlet)
    (if s.inService then
       let hi := decide (40 < inlet)
       let ho := decide (55 < outlet)
       let s1 := s.showTemps inlet outlet
       let s2 := { s1 with power := { s1.power with hotInlet := hi, hotOutlet := ho } }
       let s3 := if hi && !s.power.hotInlet then s2.raiseOwner .thermal .ok (srcCentral 1) else s2
       if ho && !s.power.hotOutlet then s3.raiseOwner .thermal .ok (srcCentral 1) else s3
     else s)

/-- Control core c. -/
def State.core (s : State) (c : Nat) : Core := tget core0 s.cores c

/-- A control core written. -/
def State.putCore (s : State) (c : Nat) (x : Core) : State := { s with cores := tset core0 s.cores c x }

/-- CONTROL_CORE_STOP (R467): the core stops; the runtime goes on on the others (DEDUCED, log 115). -/
def execControlCoreStop (core : Nat) (s : State) : Out :=
  ran (.controlCoreStop core)
    (if s.firmwareRuns then
       (s.putCore core { s.core core with stopped := true }).raiseOwner .core .ok { kind := 4, index := core }
     else s)

end Sys2Proof.Machine
end

