-- ==== Sys2Proof/Machine/Security.lean ====
section
/-! DEFINITION. The security commands of the owner ring (R456 to R466). -/

namespace Sys2Proof.Machine

/-- A security command completes: `SEC_STATUS.RESULT` takes its status, and a failure is reported (R466, R480). -/
def State.secDone (s : State) (c : Cmd) (op : Nat) (st : Status) (a b : Nat) : State :=
  let s1 := if c.ring = 16 then
      (let t := s.wrF oSecStatus 8 8 st.code
       if st = .ok then t else t.raiseOwner .security st (srcCentral 2))
    else s
  s1.writeCpl c.ring c.tag.toNat st.code op 0 a b

/-- A security command that completes at once. -/
def State.secAnswer (s : State) (c : Cmd) (op : Nat) (v : Status) (f : State → State × Status × Nat × Nat) : State :=
  if !s.fetches c.ring then s
  else
    let s1 := s.consume c.ring 1
    match v with
    | .ok => let (t, st, a, b) := f s1; t.secDone c op st a b
    | st => s1.secDone c op st 0 0

/-! ### CERT_READ and ATTEST (R450, R456, R465) -/

/-- CERT_READ. -/
def execCertRead (c : Cmd) (buf : Long) (len : Nat) (s : State) : Out :=
  ran (.certRead c buf len)
    (s.secAnswer c 0x90 (verdict c (decide (3220 ≤ len)) (c.ring == 16) s.sec.idOk .data) (fun t =>
      (t.emit (.wr 0 buf.toNat 3220 t.flash.cert false), .ok, 0, 0)))

/-- SHA-256 of a partition's program images in load order, zero where it has none (R456). -/
def State.progHash (s : State) (p : Nat) : BitVec 256 :=
  let l := (s.part p).progs
  if l.isEmpty then 0 else Config.sha256 (l.flatMap (fun e => e.2.flatMap (fun w => bytesLe w.toNat 8)))

/-- SHA-256 of a partition's schedule image, zero where it has none (R456). -/
def State.schedHash (s : State) (p : Nat) : BitVec 256 :=
  match (s.part p).sched with
  | some i => Config.schedHash i
  | none => 0

/-- The body of an attestation report with its signing index (R456). JOB and QUADS of a module report are free (DESIGN CHOICE, log 10). -/
def State.reportBody (s : State) (part : Nat) (nonce : BitVec 256) (index : Nat) : Nat :=
  let one := decide (part < 16)
  let byte (i v : Nat) : Nat := v * 2 ^ (8 * i)
  byte 0 2 + byte 4 s.flash.life + byte 5 (s.debugLevel + s.rdF oSecStatus 4 1 * 128) + byte 6 s.modState + byte 7 part +
  byte 8 s.moduleId + byte 12 (s.rd oSecFw).toNat + byte 16 s.flash.revocation.version + byte 20 ((s.flash.hint.map (fun e => e.2.seq)).getD 0) +
  byte 24 s.flash.boots + byte 28 index + byte 32 ((s.sec.fw.map (fun x => x.hash.toNat)).getD 0) + byte 64 nonce.toNat +
  byte 96 (if one then (s.progHash part).toNat else 0) + byte 128 (if one then (s.schedHash part).toNat else 0) +
  byte 160 (if one then s.jobOf part else fld (s.free 0) 0 16) + byte 162 (if one then (s.part part).quads.toNat else fld (s.free 1) 0 16) +
  byte 164 s.steps + byte 172 (s.rd oEvrEpoch).toNat + byte 192 (Config.deviceKey s.flash.life).toNat

/-- The report with its signature goes to host memory (R456). -/
def State.attest (s : State) (buf : Long) (part : Nat) (nonce : BitVec 256) : State × Status × Nat × Nat :=
  match s.sign (s.reportBody part nonce) with
  | none => (s, .wrongState, 0, 0)
  | some (t, n, sig) =>
    ((t.emit (.wr 0 buf.toNat 3380 (s.reportBody part nonce n + sig % 2 ^ 24992 * 2 ^ 2048) false)).tock, .ok, n, 0)

/-- ATTEST. -/
def execAttest (c : Cmd) (buf : Long) (len part : Nat) (nonce : BitVec 256) (s : State) : Out :=
  ran (.attest c buf len part nonce)
    (let form := decide (3380 ≤ len) && (decide (part < 16) || part == 255)
     s.secAnswer c 0x91 (verdict c form (c.ring == 16) s.sec.idOk .data) (fun t => t.attest buf part nonce))

/-! ### REVOKE_UPDATE and FW_INSTALL (R447, R465) -/

/-- REVOKE_UPDATE: the list is in force once written (DEDUCED, log 108). -/
def execRevokeUpdate (c : Cmd) (reply : HostReply) (l : Revocation) (s : State) : Out :=
  ran (.revokeUpdate c reply l)
    (s.secAnswer c 0x92 (verdict c true (c.ring == 16) true reply) (fun t =>
      if !l.sigOk then (t, .signatureInvalid, 0, 0)
      else if l.version ≤ t.flash.revocation.version then (t, .badDescriptor, 0, 0)
      else (({ t with flash := { t.flash with revocation := l } } : State).wr oSecRevocation (BitVec.ofNat 32 l.version), .ok, 0, 0)))

/-- An image goes into the slot that is not running; with none running, into an empty slot or that of the lower version. -/
def Flash.install (f : Flash) (run : Option FwImage) (x : FwImage) : Flash :=
  let second := match f.slot0, f.slot1 with
    | some a, some b => if run = some a then true else if run = some b then false else decide (b.version < a.version)
    | some _, none => true
    | none, _ => false
  if second then { f with slot1 := some x } else { f with slot0 := some x }

/-- FW_INSTALL: it takes effect at the next reset (R419; DEDUCED, log 109). -/
def execFwInstall (c : Cmd) (reply : HostReply) (img : FwImage) (s : State) : Out :=
  ran (.fwInstall c reply img)
    (s.secAnswer c 0x93 (verdict c true (c.ring == 16) true reply) (fun t =>
      if t.flash.revocation.passes img then ({ t with flash := t.flash.install t.sec.fw img }, .ok, 0, 0)
      else (t, .signatureInvalid, 0, 0)))

/-! ### DEBUG_SET (R461, R462) -/

/-- A token of R461 is checked against the module: format and LEVEL or target, signature and signer, identity and BOOTS (DEDUCED, log 110). -/
def State.tokenCheck (s : State) (target : Nat) : Option Signed → Status
  | none => .badDescriptor
  | some x =>
    if !x.formatOk then .badDescriptor
    else if !x.sigOk || s.flash.revocation.signers.contains x.signer then .signatureInvalid
    else if x.idHash != keyHash 1 || x.boots != s.flash.boots || x.target != target then .notAuthorized
    else .ok

/-- The grant needs a token: D2 in SEALED, from a lower level. -/
def State.needsToken (s : State) (level : Nat) : Bool := level == 2 && s.debugLevel != 2 && s.rdF oSecStatus 0 2 == 1

/-- Every partition destroyed by force and every shared region freed, with TORN reported first (R462 orders 3 and 4). A partition
whose creation was under way goes with its command torn (DEDUCED, log 111). -/
def State.clearTenants (s : State) : State :=
  let ps := (List.range 16).filter s.created
  let s1 := ps.foldl (fun v p => v.reportStep p 4) s
  let s2 := ps.foldl (fun v p =>
    let u := (v.forceDown p).clearSched p
    u.putPart p { partFree with scrub := true, quads := (u.part p).quads }) s1
  let isCreate (x : Scrub) : Bool := match x.kind with
    | .create _ => true
    | _ => false
  let cs := s2.scrubs.filter isCreate
  let s3 := cs.foldl (fun v x => v.ringDone x.cmd.1 x.cmd.2 .jobTorn 0 0) { s2 with scrubs := s2.scrubs.filter (fun x => !isCreate x) }
  let s4 := ((s3.regions.filter (fun e => e.2.origin)).map (·.1)).foldl (fun v e => (v.putRegion e region0).clearPoisonBit e) s3
  { s4 with lines := [] }

/-- DEBUG_SET at its accept point, its payload and state checked. -/
def State.setDebug (s : State) (c : Cmd) (level : Nat) (token : Option Signed) : State :=
  if !s.needsToken level then
    (if level = s.debugLevel then s else s.putLevel level).secDone c 0x94 .ok 0 0
  else
    match s.tokenCheck 2 token with
    | .ok =>
      if s.inService then
        let q := s.nextSeq c.ring
        let t := (s.addLive c 0x94 .scrub).clearTenants
        { t with scrubs := t.scrubs ++ [{ kind := .debug, quads := 0xFFFF#16, base := 0, len := 0, cmd := (c.ring, q) }] }
      else ((s.clearTenants.zeroFields (List.range 64)).grantD2).secDone c 0x94 .ok 0 0
    | st => s.secDone c 0x94 st 0 0

/-- DEBUG_SET. A grant of D2 in SEALED is not given without an identity (R463), nor to the keeper or standby (R461). -/
def execDebugSet (c : Cmd) (level : Nat) (reply : HostReply) (token : Option Signed) (s : State) : Out :=
  ran (.debugSet c level reply token)
    (let tok := s.needsToken level
     let state := !tok || (s.sec.idOk && !s.isKeeper && !s.isStandby)
     match verdict c (decide (level < 3)) (c.ring == 16) state (if tok then reply else .data) with
     | .ok => if s.fetches c.ring then (s.consume c.ring 1).setDebug c level token else s
     | st => s.secAnswer c 0x94 st (fun t => (t, st, 0, 0)))

/-! ### LIFECYCLE and SIGN_QUERY (R458, R465) -/

/-- A lifecycle record is written over the copy with the lower sequence number (R458). -/
def Flash.putLife (f : Flash) (state : Nat) : Flash :=
  let a := (f.life0.map (·.1)).getD 0
  let b := (f.life1.map (·.1)).getD 0
  let r := some (Nat.max a b + 1, state)
  if f.life0.isNone || (f.life1.isSome && a < b) then { f with life0 := r } else { f with life1 := r }

/-- The transitions of R458. -/
def lifeMove (cur target : Nat) : Bool := (cur == 0 && target == 1) || (cur == 1 && target == 0) || (decide (cur < 2) && target == 2)

/-- LIFECYCLE: the record is written, the command completes, and the module goes through a power-up reset (DEDUCED, log 112). -/
def execLifecycle (c : Cmd) (target : Nat) (reply : HostReply) (token : Option Signed) (s : State) : Out :=
  ran (.lifecycle c target reply token)
    (let state := (s.modState == stReady || s.modState == stBeacon) && (List.range 16).all (fun p => s.partState p == 0) &&
       s.sec.idOk && lifeMove s.flash.life target
     let v := match verdict c (decide (target < 3)) (c.ring == 16) state (if target = 2 then .data else reply) with
       | .ok => if target = 2 then Status.ok else s.tokenCheck target token
       | st => st
     let t := s.secAnswer c 0x95 v (fun t => ({ t with flash := t.flash.putLife target }, .ok, 0, 0))
     if s.fetches c.ring && v == .ok then t.powerUp else t)

/-- SIGN_QUERY. -/
def execSignQuery (c : Cmd) (s : State) : Out :=
  ran (.signQuery c)
    (s.secAnswer c 0x96 (verdict c true (c.ring == 16) true .data) (fun t => (t, .ok, t.sec.signNext, t.sec.signEnd)))

end Sys2Proof.Machine
end

