-- ==== Sys2Proof/Machine/Jtag.lean ====
section
/-! DEFINITION. The JTAG TAP (R460, R463): its instructions by debug level and state, and JTAG reset (R416). -/

namespace Sys2Proof.Machine

/-- The level that the TAP gives: D0 in STRIKE whatever the level kept (R463). -/
def State.tapLevel (s : State) : Nat := if s.modState = stStrike then 0 else s.debugLevel

/-- The TAP with an instruction, named by its place in the list of R460, and the data it shifts out. -/
def State.tapSet (s : State) (ir tdo : Nat) : State := { s with tap := { s.tap with ir := ir, tdo := tdo, driving := false } }

/-- A TAP instruction that needs a level: above it, or where it does not run, it is loaded as BYPASS; in OFF nothing answers. -/
def State.tapRun (s : State) (need : Nat) (here : Bool) (f : State → State) : State :=
  if s.power.off then s else if need ≤ s.tapLevel && here then f s else s.tapSet 1 0

/-- Requester of every TAP access (R395, R460). -/
def tapReq : Req := { id := 0x32, ownerCmd := false }

/-- IDCODE. -/
def execIdcode (s : State) : Out := ran .idcode (s.tapRun 0 true (fun t => t.tapSet 0 Config.idcode.toNat))

/-- BYPASS. -/
def execBypass (s : State) : Out := ran .bypass (s.tapRun 0 true (fun t => t.tapSet 1 0))

/-- SEC_STATUS. -/
def execSecStatus (s : State) : Out := ran .secStatus (s.tapRun 0 true (fun t => t.tapSet 2 (t.readReg tapReq.id oSecStatus).toNat))

/-- SAMPLE_PRELOAD: the boundary cells are loaded; what the pins show is free (DESIGN CHOICE, log 10). -/
def execSamplePreload (cells : Nat) (s : State) : Out :=
  ran (.samplePreload cells)
    (s.tapRun 1 true (fun t => let u := t.tapSet 3 (t.free 0).toNat; { u with tap := { u.tap with cells := cells } }.tock))

/-- EXTEST drives the pins in BEACON and DORMANT (R463; DEDUCED, log 113). -/
def execExtest (cells : Nat) (s : State) : Out :=
  ran (.extest cells)
    (s.tapRun 1 (s.modState == stBeacon || s.modState == stDormant) (fun t =>
      let u := t.tapSet 4 (t.free 0).toNat
      { u with tap := { u.tap with cells := cells, driving := true } }.tock))

/-- The register that an offset or an alias of one of its bits names. -/
def aliasedReg (off : Nat) : Nat := if aliasBase ≤ off && off < 0x1A0000000 then ((off - aliasBase) >>> 8) <<< 3 else off

/-- What a TAP at D1 reads: zero in the security block and in the KEY fields of `KMAP_DATA2` and `RGN_DATA2` (R460). -/
def State.tapRead (s : State) (off : Nat) : Word :=
  let v := s.busRead tapReq off
  let r := aliasedReg off
  if s.tapLevel = 2 then v
  else if r / 0x10000 = 2 then 0
  else if r = oKmapData2 || r = oRgnData2 then (if off = r then setFld v 0 16 0 else if (off - aliasBase) >>> 3 % 32 < 16 then 0 else v)
  else v

/-- REG_READ. -/
def execRegRead (off : Nat) (s : State) : Out :=
  ran (.regRead off) (s.tapRun 1 true (fun t => t.tapSet 5 (t.tapRead off).toNat))

/-- REG_WRITE. -/
def execRegWrite (off : Nat) (v : Word) (s : State) : Out :=
  ran (.regWrite off v) (s.tapRun 2 true (fun t => (t.busWrite tapReq off v).tapSet 6 0))

/-- CORE_HALT: while firmware runs (R463). -/
def execCoreHalt (core : Nat) (s : State) : Out :=
  ran (.coreHalt core)
    (s.tapRun 2 s.firmwareRuns (fun t => (t.putCore core { t.core core with halted := true }).tapSet 7 0))

/-- CORE_STEP: a halted core that has not stopped executes one instruction (DESIGN CHOICE, log 13). -/
def execCoreStep (core : Nat) (s : State) : Out :=
  ran (.coreStep core)
    (s.tapRun 2 s.firmwareRuns (fun t =>
      let x := t.core core
      (if x.halted && !x.stopped then t.putCore core { x with arch := Config.coreStep x.arch } else t).tapSet 8 0))

/-- An access of the TAP to module memory with the runtime credential (R460). -/
def tapAccess (o : Nat) (k : AccKind) : Access :=
  { origin := .tap, part := 0, key := noKey, runtime := true, fabric := false, off := o, kind := k, retire := false, poison := false,
    waitFill := false }

/-- The memory that answers the TAP: all of it in service, the vaults alone in DORMANT, none in BEACON (R463). -/
def State.tapMemory (s : State) (a : Long) (k : AccKind) : Bool :=
  let o := addrOff a
  addrClass a == 0 && addrPlain a && populated o k.nibs &&
  (s.inService || (s.modState == stDormant && decide (o + k.nibs ≤ vaultEnd)))

/-- MEM. -/
def execMem (addr : Long) (k : AccKind) (s : State) (u : Upsets := []) : Out :=
  ran (.mem addr k u)
    (s.tapRun 2 true (fun t =>
      if t.tapMemory addr k then
        let (v, r) := t.accessNow u (tapAccess (addrOff addr) k)
        v.tapSet 9 (if k.isAtomic then (nth 0 r.words 0).toNat else ofNibs r.data)
      else t.tapSet 9 0))

/-- JTAG_RESET (R416, R460). -/
def execJtagReset (s : State) : Out :=
  ran .jtagReset
    (if s.power.off then s else if s.tapLevel = 2 then s.resetTo 3 else { s with tap := { s.tap with ir := 0, tdo := 0, driving := false } })

end Sys2Proof.Machine
end

