-- ==== Sys2Proof/Machine/RegRows.lean ====
section
/-! DEFINITION. The commands that are register writes (chapters 8 to 14, 16, 18): each is one write, one guarded pair or one alias write of its requester on the register interface. -/

namespace Sys2Proof.Machine

/-! ### Chapter 14: writes by discipline -/

/-- UPDATE (R400): a write to `UPDATE`. -/
def execUpdate (r : Req) (v : Word) (s : State) : Out := ran (.update r v) (s.busWrite r oUpdate v)

/-- BLOCK_UPDATE_APPLY (R401): a block that `UPDATE` told to apply does so. -/
def execBlockUpdateApply (base : Nat) (s : State) : Out :=
  ran (.blockUpdateApply base) (if s.applying.contains base then s.applyBlock base else s)

/-- STROBED_WRITE (R399). -/
def execStrobedWrite (r : Req) (off : Nat) (v : Word) (s : State) : Out := ran (.strobedWrite r off v) (s.busWrite r off v)

/-- GUARDED_FIRST_WRITE (R404). -/
def execGuardedFirstWrite (r : Req) (off : Nat) (v : Word) (s : State) : Out :=
  ran (.guardedFirstWrite r off v) (s.busWrite r off v)

/-- GUARD_TWIN_WRITE (R404, R405): `off` is the twin's offset as written. -/
def execGuardTwinWrite (r : Req) (off : Nat) (v : Word) (s : State) : Out :=
  ran (.guardTwinWrite r off v) (s.busWrite r off v)

/-- BIT_ALIAS_WRITE (R402, R403): the alias of a bit of the register at `off`. -/
def execBitAliasWrite (r : Req) (off bit : Nat) (b : Bool) (s : State) : Out :=
  ran (.bitAliasWrite r off bit b) (s.busWrite r (aliasOff off bit) (BitVec.ofNat 32 (b2n b)))

/-- REGISTER_WRITE (R397). -/
def execRegisterWrite (r : Req) (off : Nat) (v : Word) (s : State) : Out :=
  ran (.registerWrite r off v) (s.busWrite r off v)

/-- The management interface (R395). -/
def mctpReq : Req := { id := 0x31, ownerCmd := false }

/-- An MCTP message and its reply (R420). An operation code other than x01 and x02 has no stated reply: its status byte is
free (DESIGN CHOICE, log 10; DESIGN CHOICE, log 36). -/
def State.mctp (s : State) (op byteOff : Nat) (v : Word) : State :=
  let off := 2 * byteOff
  let reply (t : State) (d : Word) (st : Nat) : State := { t with host := { t.host with mctp := some (d, st) } }
  if s.hostDead then s
  else if op = 1 then
    (if offsetOk off then reply s (s.busRead mctpReq off) 0 else reply s 0 Status.badDescriptor.code)
  else if op = 2 then
    reply (s.busWrite mctpReq off v) 0 (if offsetOk off then 0 else Status.badDescriptor.code)
  else (reply s 0 (fld (s.free 0) 0 8)).tock

/-- MCTP_REGISTER_ACCESS (R420). -/
def execMctpRegisterAccess (op byteOff : Nat) (v : Word) (s : State) : Out :=
  ran (.mctpRegisterAccess op byteOff v) (s.mctp op byteOff v)

/-! ### DMA (R351, R357, R363, R364) -/

/-- A write of `DMA_CTRL` with START = 1 that keeps its settings but for MODE and RCAST. -/
def State.startWrite (s : State) (r : Req) (ch : DmaCh) (mode : Nat) (cast : Bool) : State :=
  let o := oDmaCtrl (dmaKey ch)
  s.busWrite r o (setFld (setFld (setFld (s.rd o) 10 2 mode) 12 1 (b2n cast)) 31 1 1)

/-- DMA_COPY (R351). -/
def execDmaCopy (r : Req) (ch : DmaCh) (s : State) : Out := ran (.dmaCopy r ch) (s.startWrite r ch 0 false)
/-- DMA_PACK (R363). -/
def execDmaPack (r : Req) (ch : DmaCh) (s : State) : Out := ran (.dmaPack r ch) (s.startWrite r ch 1 false)
/-- DMA_UNPACK (R363). -/
def execDmaUnpack (r : Req) (ch : DmaCh) (s : State) : Out := ran (.dmaUnpack r ch) (s.startWrite r ch 2 false)
/-- FIELD_ROW_BROADCAST (R364). -/
def execFieldRowBroadcast (r : Req) (ch : DmaCh) (s : State) : Out :=
  ran (.fieldRowBroadcast r ch) (s.startWrite r ch 0 true)

/-! ### Slots and caches (R261, R263, R289) -/

/-- SLOT_MOVE_COPY (R261): the pair of `VLT_SLOT_DATA` with COPY = 1. -/
def execSlotMoveCopy (r : Req) (f site : Nat) (v : Word) (s : State) : Out :=
  ran (.slotMoveCopy r f site v) (s.busPair r (oVltSlotData f site) (setFld v 15 1 1))

/-- SLOT_SWITCH_POISON (R263): the pair with COPY = 0. -/
def execSlotSwitchPoison (r : Req) (f site : Nat) (v : Word) (s : State) : Out :=
  ran (.slotSwitchPoison r f site v) (s.busPair r (oVltSlotData f site) (setFld v 15 1 0))

/-- CACHE_CLEAN (R289): `SC_OP_CTRL` with KIND b01. -/
def execCacheClean (r : Req) (h len : Nat) (s : State) : Out :=
  ran (.cacheClean r h len) (s.busWrite r (oScOpCtrl h) (BitVec.ofNat 32 (len % 2 ^ 17 + 2 ^ 17)))

/-- CACHE_DROP (R289): `SC_OP_CTRL` with KIND b10. -/
def execCacheDrop (r : Req) (h len : Nat) (s : State) : Out :=
  ran (.cacheDrop r h len) (s.busWrite r (oScOpCtrl h) (BitVec.ofNat 32 (len % 2 ^ 17 + 2 ^ 18)))

/-! ### Fabric (R293, R297, R299, R306, R310, R312) -/

/-- REGION_COMMIT (R312). -/
def execRegionCommit (r : Req) (v : Word) (s : State) : Out := ran (.regionCommit r v) (s.busPair r oRgnData3 v)
/-- REGION_FLIP (R299). -/
def execRegionFlip (r : Req) (v : Word) (s : State) : Out := ran (.regionFlip r v) (s.busPair r oRgnFlip v)
/-- KEY_MAP_COMMIT (R312). -/
def execKeyMapCommit (r : Req) (v : Word) (s : State) : Out := ran (.keyMapCommit r v) (s.busPair r oKmapData2 v)
/-- ROUTE_COMMIT (R293). -/
def execRouteCommit (r : Req) (v : Word) (s : State) : Out := ran (.routeCommit r v) (s.busPair r oRouteData v)
/-- LINK_REMAP (R297). -/
def execLinkRemap (r : Req) (g : Nat) (v : Word) (s : State) : Out := ran (.linkRemap r g v) (s.busPair r (oLinkRemap g) v)
/-- KEEPER_SET (R306). -/
def execKeeperSet (r : Req) (v : Word) (s : State) : Out := ran (.keeperSet r v) (s.busPair r oFabKeeper v)
/-- TEARDOWN (R310): the pair of `FAB_TEARDOWN`. -/
def execTeardown (r : Req) (v : Word) (s : State) : Out := ran (.teardown r v) (s.busPair r oFabTeardown v)

/-! ### Link control (R346) -/

/-- LINK_ENABLE: `LINK_CTRL.ENABLE` = 1. -/
def execLinkEnable (r : Req) (k : Nat) (s : State) : Out := ran (.linkEnable r k) (s.busWrite r (oLinkCtrl k) 1)
/-- LINK_DISABLE: `LINK_CTRL.ENABLE` = 0. -/
def execLinkDisable (r : Req) (k : Nat) (s : State) : Out := ran (.linkDisable r k) (s.busWrite r (oLinkCtrl k) 0)
/-- LINK_CTRL_RETRAIN: `LINK_CTRL.RETRAIN` = 1 on an enabled link. -/
def execLinkCtrlRetrain (r : Req) (k : Nat) (s : State) : Out := ran (.linkCtrlRetrain r k) (s.busWrite r (oLinkCtrl k) 3)

/-! ### Bits that a write of 1 clears -/

/-- The W1C bit at [31]. -/
def bit31 : Word := 0x80000000

/-- TG_FAULT_VALID (R137). -/
def execTgFaultValid (r : Req) (f site : Nat) (s : State) : Out :=
  ran (.tgFaultValid r f site) (s.busWrite r (oTgFault f site) bit31)
/-- VLT_THROTTLE_PEAK_VALID (R266). -/
def execVltThrottlePeakValid (r : Req) (f site : Nat) (s : State) : Out :=
  ran (.vltThrottlePeakValid r f site) (s.busWrite r (oVltThrottle f site) bit31)
/-- VLT_ERR_NONZERO (R266). -/
def execVltErrNonzero (r : Req) (f site ch : Nat) (s : State) : Out :=
  ran (.vltErrNonzero r f site ch) (s.busWrite r (oVltErrCh f site ch) bit31)
/-- VLT_ERR_ADDR_VALID (R266). -/
def execVltErrAddrValid (r : Req) (f site : Nat) (s : State) : Out :=
  ran (.vltErrAddrValid r f site) (s.busWrite r (oVltErrAddr f site) bit31)
/-- TS_ERR_NONZERO (R266). -/
def execTsErrNonzero (r : Req) (f site : Nat) (s : State) : Out :=
  ran (.tsErrNonzero r f site) (s.busWrite r (oTsErr f site) bit31)
/-- TS_ERR_ADDR_VALID (R266). -/
def execTsErrAddrValid (r : Req) (f site : Nat) (s : State) : Out :=
  ran (.tsErrAddrValid r f site) (s.busWrite r (oTsErrAddr f site) bit31)
/-- SC_STATUS_THRASH (R289). -/
def execScStatusThrash (r : Req) (h : Nat) (s : State) : Out := ran (.scStatusThrash r h) (s.busWrite r (oScStatus h) 0x10)
/-- SC_ERR_NONZERO (R289). -/
def execScErrNonzero (r : Req) (h : Nat) (s : State) : Out := ran (.scErrNonzero r h) (s.busWrite r (oScErr h) bit31)
/-- FAB_ERR_NONZERO (R312). -/
def execFabErrNonzero (r : Req) (s : State) : Out := ran (.fabErrNonzero r) (s.busWrite r oFabErr bit31)
/-- LINK_REPLAY_NONZERO (R346). -/
def execLinkReplayNonzero (r : Req) (k : Nat) (s : State) : Out :=
  ran (.linkReplayNonzero r k) (s.busWrite r (oLinkReplay k) bit31)
/-- MC_GUARD_VALID (R408). -/
def execMcGuardValid (r : Req) (s : State) : Out := ran (.mcGuardValid r) (s.busWrite r oMcGuard bit31)
/-- EVR_LOST_NONZERO (R485). -/
def execEvrLostNonzero (r : Req) (s : State) : Out := ran (.evrLostNonzero r) (s.busWrite r oEvrLost bit31)
/-- RGN_POISON_CLEAR (R485). -/
def execRgnPoisonClear (r : Req) (e : Nat) (s : State) : Out :=
  ran (.rgnPoisonClear r e) (s.busWrite r (oRgnPoison (e / 32)) (BitVec.ofNat 32 (2 ^ (e % 32))))

/-! ### Recorder, host and power registers -/

/-- EVR_RELEASE (R477): the pair of `EVR_RELEASE`. -/
def execEvrRelease (r : Req) (v : Word) (s : State) : Out := ran (.evrRelease r v) (s.busPair r oEvrRelease v)
/-- REPLICA_COMMIT (R485): the pair of `REP_COMMIT`. -/
def execReplicaCommit (r : Req) (v : Word) (s : State) : Out := ran (.replicaCommit r v) (s.busPair r oRepCommit v)
/-- HOST_DMA_RING (R366). -/
def execHostDmaRing (r : Req) (n : Nat) (v : Word) (s : State) : Out :=
  ran (.hostDmaRing r n v) (s.busPair r (oHostDmaRing n) v)
/-- HOST_DMA_LIST (R349). -/
def execHostDmaList (r : Req) (hi : Bool) (v : Word) (s : State) : Out :=
  ran (.hostDmaList r hi v) (s.busPair r (if hi then oHostDmaListHi else oHostDmaListLo) v)
/-- PWR_CTRL_WAKE (R437). -/
def execPwrCtrlWake (r : Req) (s : State) : Out := ran (.pwrCtrlWake r) (s.busWrite r oPwrCtrl 1)

end Sys2Proof.Machine
end

