-- ==== Sys2Proof/Machine/Dispatch.lean ====
section
/-! DEFINITION. The dispatch of every command to its meaning: one arm per row of spec/opcode_table.json. -/

namespace Sys2Proof.Machine

def exec (i : Instr) (s : State) : Host.Outcome State Fault Refusal :=
  match i with
  | .iadd iss d a b => Sys2Proof.Machine.execIadd iss d a b s
  | .isub iss d a b => Sys2Proof.Machine.execIsub iss d a b s
  | .imul iss d a b => Sys2Proof.Machine.execImul iss d a b s
  | .imulh iss d a b => Sys2Proof.Machine.execImulh iss d a b s
  | .imad iss d a b c => Sys2Proof.Machine.execImad iss d a b c s
  | .iand iss d a b => Sys2Proof.Machine.execIand iss d a b s
  | .ior iss d a b => Sys2Proof.Machine.execIor iss d a b s
  | .ixor iss d a b => Sys2Proof.Machine.execIxor iss d a b s
  | .shl iss d a b => Sys2Proof.Machine.execShl iss d a b s
  | .shr iss d a b => Sys2Proof.Machine.execShr iss d a b s
  | .sar iss d a b => Sys2Proof.Machine.execSar iss d a b s
  | .imin iss signed d a b => Sys2Proof.Machine.execImin iss signed d a b s
  | .imax iss signed d a b => Sys2Proof.Machine.execImax iss signed d a b s
  | .sel iss d a b p => Sys2Proof.Machine.execSel iss d a b p s
  | .mov iss d b => Sys2Proof.Machine.execMov iss d b s
  | .popc iss d a => Sys2Proof.Machine.execPopc iss d a s
  | .clz iss d a => Sys2Proof.Machine.execClz iss d a s
  | .fadd iss d a b => Sys2Proof.Machine.execFadd iss d a b s
  | .fsub iss d a b => Sys2Proof.Machine.execFsub iss d a b s
  | .fmul iss d a b => Sys2Proof.Machine.execFmul iss d a b s
  | .ffma iss d a b c => Sys2Proof.Machine.execFfma iss d a b c s
  | .fmin iss d a b => Sys2Proof.Machine.execFmin iss d a b s
  | .fmax iss d a b => Sys2Proof.Machine.execFmax iss d a b s
  | .cvt iss d a b c m => Sys2Proof.Machine.execCvt iss d a b c m s
  | .cvtBlk iss d a b m => Sys2Proof.Machine.execCvtBlk iss d a b m s
  | .i2f iss signed d a => Sys2Proof.Machine.execI2f iss signed d a s
  | .f2i iss signed d a => Sys2Proof.Machine.execF2i iss signed d a s
  | .isetp iss c signed pd a b => Sys2Proof.Machine.execIsetp iss c signed pd a b s
  | .fsetp iss c pd a b => Sys2Proof.Machine.execFsetp iss c pd a b s
  | .pand iss pd pa pb => Sys2Proof.Machine.execPand iss pd pa pb s
  | .por iss pd pa pb => Sys2Proof.Machine.execPor iss pd pa pb s
  | .pxor iss pd pa pb => Sys2Proof.Machine.execPxor iss pd pa pb s
  | .p2g iss d => Sys2Proof.Machine.execP2g iss d s
  | .g2p iss a => Sys2Proof.Machine.execG2p iss a s
  | .bra iss t => Sys2Proof.Machine.execBra iss t s
  | .call iss t => Sys2Proof.Machine.execCall iss t s
  | .ret iss => Sys2Proof.Machine.execRet iss s
  | .exit iss => Sys2Proof.Machine.execExit iss s
  | .insnNop iss => Sys2Proof.Machine.execInsnNop iss s
  | .sys iss d sel => Sys2Proof.Machine.execSys iss d sel s
  | .ldt iss w sx d a b => Sys2Proof.Machine.execLdt iss w sx d a b s
  | .stt iss w d a b => Sys2Proof.Machine.execStt iss w d a b s
  | .ldg iss w sx retire d a => Sys2Proof.Machine.execLdg iss w sx retire d a s
  | .stg iss w retire d a => Sys2Proof.Machine.execStg iss w retire d a s
  | .fenceM iss => Sys2Proof.Machine.execFenceM iss s
  | .atomT iss fn grp d a off b c => Sys2Proof.Machine.execAtomT iss fn grp d a off b c s
  | .atomG iss fn grp d a b c => Sys2Proof.Machine.execAtomG iss fn grp d a b c s
  | .shf iss m d a b mask => Sys2Proof.Machine.execShf iss m d a b mask s
  | .vote iss m d pa mask => Sys2Proof.Machine.execVote iss m d pa mask s
  | .post iss cell n self a => Sys2Proof.Machine.execPost iss cell n self a s
  | .take iss cell n => Sys2Proof.Machine.execTake iss cell n s
  | .mxi iss d a imm => Sys2Proof.Machine.execMxi iss d a imm s
  | .mxw iss d t => Sys2Proof.Machine.execMxw iss d t s
  | .flush iss mask => Sys2Proof.Machine.execFlush iss mask s
  | .dmakGo iss ch a imm => Sys2Proof.Machine.execDmakGo iss ch a imm s
  | .dmakWait iss d ch => Sys2Proof.Machine.execDmakWait iss d ch s
  | .entryMerge tile a b => Sys2Proof.Machine.execEntryMerge tile a b s
  | .carrierRepack tile a b => Sys2Proof.Machine.execCarrierRepack tile a b s
  | .stallEvent place wait adder => Sys2Proof.Machine.execStallEvent place wait s adder
  | .orderListEntry r u => Sys2Proof.Machine.execOrderListEntry r u s
  | .rotaSlot r u => Sys2Proof.Machine.execRotaSlot r s u
  | .scheduleCheck => Sys2Proof.Machine.execScheduleCheck s
  | .mxdTakeUp tile u => Sys2Proof.Machine.execMxdTakeUp tile u s
  | .mxdStart tile job u ua => Sys2Proof.Machine.execMxdStart tile job u ua s
  | .stationaryLoadDone tile job u => Sys2Proof.Machine.execStationaryLoadDone tile job u s
  | .mxdComplete tile job u ua => Sys2Proof.Machine.execMxdComplete tile job u ua s
  | .tieSum p u ua => Sys2Proof.Machine.execTieSum p u ua s
  | .dmaCopy r ch => Sys2Proof.Machine.execDmaCopy r ch s
  | .dmaPack r ch => Sys2Proof.Machine.execDmaPack r ch s
  | .dmaUnpack r ch => Sys2Proof.Machine.execDmaUnpack r ch s
  | .fieldRowBroadcast r ch => Sys2Proof.Machine.execFieldRowBroadcast r ch s
  | .dmaReadBackDone ch u => Sys2Proof.Machine.execDmaReadBackDone ch s u
  | .homeAccess n u => Sys2Proof.Machine.execHomeAccess n u s
  | .cacheAccess half n u => Sys2Proof.Machine.execCacheAccess half n u s
  | .cacheFill half n u => Sys2Proof.Machine.execCacheFill half n u s
  | .thrashEvent half => Sys2Proof.Machine.execThrashEvent half s
  | .refreshInterval field site t0 t1 t2 t3 u => Sys2Proof.Machine.execRefreshInterval field site t0 t1 t2 t3 u s
  | .tileStoreScrub tile pair u => Sys2Proof.Machine.execTileStoreScrub tile pair u s
  | .recalibration field site ch ok => Sys2Proof.Machine.execRecalibration field site ch ok s
  | .rowRemap field site ch bank row u => Sys2Proof.Machine.execRowRemap field site ch bank row s u
  | .laneGroupSpare field site ch symbol => Sys2Proof.Machine.execLaneGroupSpare field site ch symbol s
  | .slotMoveCopy r field site v => Sys2Proof.Machine.execSlotMoveCopy r field site v s
  | .slotSwitchPoison r field site v => Sys2Proof.Machine.execSlotSwitchPoison r field site v s
  | .slotCopyDone field site u => Sys2Proof.Machine.execSlotCopyDone field site s u
  | .pinFillDone half entry u => Sys2Proof.Machine.execPinFillDone half entry s u
  | .cacheClean r half len => Sys2Proof.Machine.execCacheClean r half len s
  | .cacheDrop r half len => Sys2Proof.Machine.execCacheDrop r half len s
  | .cacheOpDone half u => Sys2Proof.Machine.execCacheOpDone half s u
  | .regionCommit r v => Sys2Proof.Machine.execRegionCommit r v s
  | .regionFlip r v => Sys2Proof.Machine.execRegionFlip r v s
  | .keyMapCommit r v => Sys2Proof.Machine.execKeyMapCommit r v s
  | .routeCommit r v => Sys2Proof.Machine.execRouteCommit r v s
  | .linkRemap r g v => Sys2Proof.Machine.execLinkRemap r g v s
  | .keeperSet r v => Sys2Proof.Machine.execKeeperSet r v s
  | .teardown r v => Sys2Proof.Machine.execTeardown r v s
  | .livenessIncrement => Sys2Proof.Machine.execLivenessIncrement s
  | .livenessRound m downs hops => Sys2Proof.Machine.execLivenessRound m downs hops s
  | .keeperTakeover reachable => Sys2Proof.Machine.execKeeperTakeover reachable s
  | .keeperReport jobSlot m memLost ckpts => Sys2Proof.Machine.execKeeperReport jobSlot m s memLost ckpts
  | .fwdEnter p => Sys2Proof.Machine.execFwdEnter p s
  | .bwdEnter p => Sys2Proof.Machine.execBwdEnter p s
  | .bwdClose p => Sys2Proof.Machine.execBwdClose p s
  | .clipEnter p u => Sys2Proof.Machine.execClipEnter p s u
  | .commitEnter p => Sys2Proof.Machine.execCommitEnter p s
  | .recordOrder p => Sys2Proof.Machine.execRecordOrder p s
  | .discardOrder p => Sys2Proof.Machine.execDiscardOrder p s
  | .recoveryReplay p b u => Sys2Proof.Machine.execRecoveryReplay p b s u
  | .checkpoint p largest othersValid peers u => Sys2Proof.Machine.execCheckpoint p largest othersValid peers s u
  | .rollBack p c decodable u => Sys2Proof.Machine.execRollBack p c decodable s u
  | .bucketStart p c u => Sys2Proof.Machine.execBucketStart p c s u
  | .idleFlit k h => Sys2Proof.Machine.execIdleFlit k h s
  | .fabricReq k h b => Sys2Proof.Machine.execFabricReq k h b s
  | .fabricRsp k h b u => Sys2Proof.Machine.execFabricRsp k h b s u
  | .reduce k h b u => Sys2Proof.Machine.execReduce k h b s u
  | .norm k h b u => Sys2Proof.Machine.execNorm k h b s u
  | .normResult k h b u => Sys2Proof.Machine.execNormResult k h b s u
  | .reservedKindFlit k h kind => Sys2Proof.Machine.execReservedKindFlit k h kind s
  | .linkReplay k => Sys2Proof.Machine.execLinkReplay k s
  | .linkTraining k t => Sys2Proof.Machine.execLinkTraining k t s
  | .linkTrainingTimeout k order => Sys2Proof.Machine.execLinkTrainingTimeout k order s
  | .linkRetrain k replays => Sys2Proof.Machine.execLinkRetrain k replays s
  | .laneSignalLoss k lane => Sys2Proof.Machine.execLaneSignalLoss k lane s
  | .linkEnable r k => Sys2Proof.Machine.execLinkEnable r k s
  | .linkDisable r k => Sys2Proof.Machine.execLinkDisable r k s
  | .linkCtrlRetrain r k => Sys2Proof.Machine.execLinkCtrlRetrain r k s
  | .update r v => Sys2Proof.Machine.execUpdate r v s
  | .blockUpdateApply base => Sys2Proof.Machine.execBlockUpdateApply base s
  | .strobedWrite r off v => Sys2Proof.Machine.execStrobedWrite r off v s
  | .guardedFirstWrite r off v => Sys2Proof.Machine.execGuardedFirstWrite r off v s
  | .guardTwinWrite r off v => Sys2Proof.Machine.execGuardTwinWrite r off v s
  | .bitAliasWrite r off bit b => Sys2Proof.Machine.execBitAliasWrite r off bit b s
  | .registerWrite r off v => Sys2Proof.Machine.execRegisterWrite r off v s
  | .mctpRegisterAccess op byteOff v => Sys2Proof.Machine.execMctpRegisterAccess op byteOff v s
  | .tgFaultValid r field site => Sys2Proof.Machine.execTgFaultValid r field site s
  | .vltThrottlePeakValid r field site => Sys2Proof.Machine.execVltThrottlePeakValid r field site s
  | .vltErrNonzero r field site ch => Sys2Proof.Machine.execVltErrNonzero r field site ch s
  | .vltErrAddrValid r field site => Sys2Proof.Machine.execVltErrAddrValid r field site s
  | .tsErrNonzero r field site => Sys2Proof.Machine.execTsErrNonzero r field site s
  | .tsErrAddrValid r field site => Sys2Proof.Machine.execTsErrAddrValid r field site s
  | .scStatusThrash r half => Sys2Proof.Machine.execScStatusThrash r half s
  | .scErrNonzero r half => Sys2Proof.Machine.execScErrNonzero r half s
  | .fabErrNonzero r => Sys2Proof.Machine.execFabErrNonzero r s
  | .linkReplayNonzero r k => Sys2Proof.Machine.execLinkReplayNonzero r k s
  | .mcGuardValid r => Sys2Proof.Machine.execMcGuardValid r s
  | .evrLostNonzero r => Sys2Proof.Machine.execEvrLostNonzero r s
  | .rgnPoisonClear r entry => Sys2Proof.Machine.execRgnPoisonClear r entry s
  | .evrRelease r v => Sys2Proof.Machine.execEvrRelease r v s
  | .replicaCommit r v => Sys2Proof.Machine.execReplicaCommit r v s
  | .hostDmaRing r n v => Sys2Proof.Machine.execHostDmaRing r n v s
  | .hostDmaList r hi v => Sys2Proof.Machine.execHostDmaList r hi v s
  | .pwrCtrlWake r => Sys2Proof.Machine.execPwrCtrlWake r s
  | .ringEnable r ring reply db => Sys2Proof.Machine.execRingEnable r ring reply db s
  | .ringDisable r ring => Sys2Proof.Machine.execRingDisable r ring s
  | .doorbellNotify ring reply cmdProd cplCons => Sys2Proof.Machine.execDoorbellNotify ring reply cmdProd cplCons s
  | .pcieCompletionTimeout n => Sys2Proof.Machine.execPcieCompletionTimeout n s
  | .nop c => Sys2Proof.Machine.execNop c s
  | .fence c => Sys2Proof.Machine.execFence c s
  | .progLoad c first fields reply insns bad tied lim => Sys2Proof.Machine.execProgLoad c first fields reply insns bad tied lim s
  | .schedLoad c reply img => Sys2Proof.Machine.execSchedLoad c reply img s
  | .regionDefine c d0 d1 d3 => Sys2Proof.Machine.execRegionDefine c d0 d1 d3 s
  | .jobUnload c => Sys2Proof.Machine.execJobUnload c s
  | .kernelLaunch c entry repack slots fields args kid => Sys2Proof.Machine.execKernelLaunch c entry repack slots fields args kid s
  | .kernelComplete kid => Sys2Proof.Machine.execKernelComplete kid s
  | .kernelAbort c kid => Sys2Proof.Machine.execKernelAbort c kid s
  | .dmaXfer c h paired reply img => Sys2Proof.Machine.execDmaXfer c h paired reply img s
  | .cacheOp c line16 len kind => Sys2Proof.Machine.execCacheOp c line16 len kind s
  | .pin c line16 len fill => Sys2Proof.Machine.execPin c line16 len fill s
  | .unpin c v => Sys2Proof.Machine.execUnpin c v s
  | .stepBegin c index reply b => Sys2Proof.Machine.execStepBegin c index reply b s
  | .stepAbort c => Sys2Proof.Machine.execStepAbort c s
  | .clipSet c reply v => Sys2Proof.Machine.execClipSet c reply v s
  | .tieDeclare c reply t => Sys2Proof.Machine.execTieDeclare c reply t s
  | .stepQuery c p => Sys2Proof.Machine.execStepQuery c p s
  | .stepTable c reply t u => Sys2Proof.Machine.execStepTable c reply t u s
  | .partCreate c p quads job key => Sys2Proof.Machine.execPartCreate c p quads job key s
  | .partDestroy c p force => Sys2Proof.Machine.execPartDestroy c p force s
  | .scrubComplete n => Sys2Proof.Machine.execScrubComplete n s
  | .frameLoad c reply img => Sys2Proof.Machine.execFrameLoad c reply img s
  | .sharedCreate c base len key replica => Sys2Proof.Machine.execSharedCreate c base len key replica s
  | .sharedSeal c e => Sys2Proof.Machine.execSharedSeal c e s
  | .keyGrant c p e module anymod base len key => Sys2Proof.Machine.execKeyGrant c p e module anymod base len key s
  | .keyRevoke c p e => Sys2Proof.Machine.execKeyRevoke c p e s
  | .sharedDestroy c e => Sys2Proof.Machine.execSharedDestroy c e s
  | .epochSet c tag => Sys2Proof.Machine.execEpochSet c tag s
  | .moduleQuery c => Sys2Proof.Machine.execModuleQuery c s
  | .powerQuery c => Sys2Proof.Machine.execPowerQuery c s
  | .powerReef c => Sys2Proof.Machine.execPowerReef c s
  | .powerReefLeave c => Sys2Proof.Machine.execPowerReefLeave c s
  | .powerStrike c => Sys2Proof.Machine.execPowerStrike c s
  | .powerDormant c => Sys2Proof.Machine.execPowerDormant c s
  | .powerWake c => Sys2Proof.Machine.execPowerWake c s
  | .powerLimits c cap lo hi => Sys2Proof.Machine.execPowerLimits c cap lo hi s
  | .eventRead c buf len n release => Sys2Proof.Machine.execEventRead c buf len n release s
  | .reset c => Sys2Proof.Machine.execReset c s
  | .certRead c buf len => Sys2Proof.Machine.execCertRead c buf len s
  | .attest c buf len part nonce => Sys2Proof.Machine.execAttest c buf len part nonce s
  | .revokeUpdate c reply l => Sys2Proof.Machine.execRevokeUpdate c reply l s
  | .fwInstall c reply img => Sys2Proof.Machine.execFwInstall c reply img s
  | .debugSet c level reply token => Sys2Proof.Machine.execDebugSet c level reply token s
  | .lifecycle c target reply token => Sys2Proof.Machine.execLifecycle c target reply token s
  | .signQuery c => Sys2Proof.Machine.execSignQuery c s
  | .nodeCacheBuild => Sys2Proof.Machine.execNodeCacheBuild s
  | .idcode => Sys2Proof.Machine.execIdcode s
  | .bypass => Sys2Proof.Machine.execBypass s
  | .secStatus => Sys2Proof.Machine.execSecStatus s
  | .samplePreload cells => Sys2Proof.Machine.execSamplePreload cells s
  | .extest cells => Sys2Proof.Machine.execExtest cells s
  | .regRead off => Sys2Proof.Machine.execRegRead off s
  | .regWrite off v => Sys2Proof.Machine.execRegWrite off v s
  | .coreHalt core => Sys2Proof.Machine.execCoreHalt core s
  | .coreStep core => Sys2Proof.Machine.execCoreStep core s
  | .mem addr k u => Sys2Proof.Machine.execMem addr k s u
  | .powerUpReset => Sys2Proof.Machine.execPowerUpReset s
  | .resetN => Sys2Proof.Machine.execResetN s
  | .jtagReset => Sys2Proof.Machine.execJtagReset s
  | .perstN => Sys2Proof.Machine.execPerstN s
  | .startupOrderComplete d => Sys2Proof.Machine.execStartupOrderComplete d s
  | .startupOrderTimeout => Sys2Proof.Machine.execStartupOrderTimeout s
  | .coolantWaitTimeout => Sys2Proof.Machine.execCoolantWaitTimeout s
  | .lampTimer => Sys2Proof.Machine.execLampTimer s
  | .pfwNAssert => Sys2Proof.Machine.execPfwNAssert s
  | .undervoltageWarning => Sys2Proof.Machine.execUndervoltageWarning s
  | .pfwNRelease => Sys2Proof.Machine.execPfwNRelease s
  | .holdEnd => Sys2Proof.Machine.execHoldEnd s
  | .resume => Sys2Proof.Machine.execResume s
  | .bulkStoreCollapse => Sys2Proof.Machine.execBulkStoreCollapse s
  | .governorSample watts avg1 avg10 volt amps => Sys2Proof.Machine.execGovernorSample watts avg1 avg10 volt amps s
  | .protectiveHold field junction supplyBad => Sys2Proof.Machine.execProtectiveHold field junction supplyBad s
  | .protectiveHoldExit field junction supplyBad u => Sys2Proof.Machine.execProtectiveHoldExit field junction supplyBad s u
  | .sharedRestore entry status data verify => Sys2Proof.Machine.execSharedRestore entry status data s verify
  | .recorderTake => Sys2Proof.Machine.execRecorderTake s
  | .recordWrite => Sys2Proof.Machine.execRecordWrite s
  | .shortRepairDone field site ch u => Sys2Proof.Machine.execShortRepairDone field site ch s u
  | .unpinComplete half entry u => Sys2Proof.Machine.execUnpinComplete half entry s u
  | .controlCoreStop core => Sys2Proof.Machine.execControlCoreStop core s
  | .coolantCrossing inlet outlet => Sys2Proof.Machine.execCoolantCrossing inlet outlet s
  | .pcieLinkUp => Sys2Proof.Machine.execPcieLinkUp s
  | .hostReadCompletion n reply data u => Sys2Proof.Machine.execHostReadCompletion n reply data s u

end Sys2Proof.Machine
end

