-- ==== Sys2Proof/Machine/Step.lean ====
section
/-! DEFINITION. One step: the command at the front of the queue takes effect on the state that holds the rest of the queue. On an empty queue a step of the replica pipeline passes (R24, DESIGN CHOICE, log 2). -/

namespace Sys2Proof.Machine

/-- The step. On an empty queue the step counter alone counts (DESIGN CHOICE, log 2, log 116, log 118). -/
def step (s : State) : Host.Outcome State Fault Refusal :=
  match s.pending with
  | [] => .next s.idle
  | c :: rest => exec c { s with pending := rest }

/-- The state with the command that a word spells put at the front of its queue. -/
def State.withFetchWord (s : State) (nbits w : Nat) : State :=
  match decodeTableWord nbits w with
  | some c => { s with pending := c :: s.pending }
  | none => s

end Sys2Proof.Machine
end

