-- ==== Sys2Proof/Safety.lean ====
section
/-! DEFINITION. What counts as a safe run: every state canonical in its memory and tables, and no step that stops. -/

namespace Sys2Proof.Machine

/-- A command is safe in a state when it answers a next state. -/
def safeAt (i : Instr) (s : State) : Prop := ∃ t, exec i s = .next t

/-- Every command waiting in the queue is well-formed, so that no step of the run stops. -/
def State.queueWf (s : State) : Bool := s.pending.all Instr.wf

end Sys2Proof.Machine
end

