-- ==== Sys2Proof/Certificates/Slice0/Obligations.lean ====
section
/-! DEFINITION. The statements for the provers: what the rules of spec/ say the commands and the module do. The predicates under Sys2Proof.Claim say shared hypotheses and conclusions once. -/

namespace Sys2Proof.Claim

open Sys2Proof.Machine

/-! ### The step and reset -/

/-- Some next state of a command that meets P. -/
def Goes (c : Instr) (s : State) (P : State → Prop) : Prop := ∃ t, exec c s = .next t ∧ P t

/-! ### Threads -/

/-- Entry e stands at position i.entry of the rotor list of tile i.tile and can issue an instruction that needs n (R106 to R108, R429,
R439): the core logic runs, the entry waits for nothing, its field is not held, no register that it names waits for memory, the
memory pipe has room for it, the rotor's visit falls on the entry, and the fetched codeword is good (R93). -/
abbrev Issues (s : State) (i : Iss) (n : Need) (e : Entry) : Prop :=
  (s.entries i.tile)[i.entry]? = some e ∧ s.inService = true ∧ e.wait = .none ∧ s.fieldHeld (i.tile / 192) = false ∧
  s.regWaits i.tile e.lanes (n.reads ++ n.writes) = false ∧ (pipeClass n.cls = true → s.pipeFull i.tile = false) ∧
  s.visits i n = true ∧ s.fetchBad i.tile e.pc.toNat i.fetch = false

/-- The state that the instruction finds: s, with a corrected error of its fetched codeword counted (R467, log 45). -/
def Fetched (s : State) (i : Iss) (e : Entry) : State := s.fetchCount i.tile e.pc.toNat i.fetch

/-- The rotor after: entry e at the next instruction, the pointer at its place, every other entry and tile as before. -/
def Advanced (s t : State) (i : Iss) (n : Need) (e : Entry) : Prop :=
  t.rotor i.tile = { (s.rotor i.tile).visit i n with
    entries := (s.entries i.tile).set i.entry { e with pc := e.pc + 1, stalled := false } } ∧
  ∀ u, u ≠ i.tile → t.rotor u = s.rotor u

/-- A lane executes: it is of the entry and its guard lets it (R105). -/
abbrev Active (s : State) (i : Iss) (e : Entry) (L : Nat) : Prop := L ∈ e.lanes ∧ s.guardOn i.tile i.gpred i.gneg L = true

/-- Every general register is as before but those of `regs` in the lanes that execute. -/
def GprFrame (s t : State) (i : Iss) (e : Entry) (regs : List Nat) : Prop :=
  ∀ u L r, u < 16384 → r < 64 → ¬ (u = i.tile ∧ Active s i e L ∧ r ∈ regs) → t.g u L r = s.g u L r

/-- Every predicate is as before but those of `ps` in the lanes that execute. -/
def PredFrame (s t : State) (i : Iss) (e : Entry) (ps : List Nat) : Prop :=
  ∀ u L p, u < 16384 → p < 8 → ¬ (u = i.tile ∧ Active s i e L ∧ p ∈ ps) → t.p u L p = s.p u L p

/-- Nothing but general registers, the rotors and the model's counter of free values differs from u. -/
def OnlyGpr (u t : State) : Prop := ({ t with gpr := u.gpr, rotors := u.rotors, tick := u.tick } : State) = u

/-- Nothing but predicates, the rotors and the model's counter of free values differs from u. -/
def OnlyPreds (u t : State) : Prop := ({ t with preds := u.preds, rotors := u.rotors, tick := u.tick } : State) = u

/-- The executing lanes receive what f gives for the lane in register d, where f gives a value; nothing else changes. -/
def WritesReg (s t : State) (i : Iss) (n : Need) (e : Entry) (d : Nat) (f : Nat → Option Word) : Prop :=
  (∀ L v, Active s i e L → f L = some v → t.g i.tile L d = v) ∧ GprFrame s t i e [d] ∧ OnlyGpr (Fetched s i e) t ∧ Advanced s t i n e

/-- The executing lanes receive what f gives for the lane in predicate pd, unless it is p7; nothing else changes. -/
def WritesPred (s t : State) (i : Iss) (n : Need) (e : Entry) (pd : Nat) (f : Nat → Option Bool) : Prop :=
  (∀ L v, Active s i e L → pd ≠ 7 → f L = some v → t.p i.tile L pd = v) ∧ (∀ u L, t.p u L 7 = true) ∧
  PredFrame s t i e [pd] ∧ OnlyPreds (Fetched s i e) t ∧ Advanced s t i n e

/-- The two-operand integer instructions with their results (R103): none where no result is stated. -/
def intOps : List ((Iss → Nat → Nat → Opd → Instr) × (Word → Word → Option Word)) :=
  [ (Instr.iadd, fun x y => some (BitVec.ofNat 32 (x.toNat + y.toNat))),
    (Instr.isub, fun x y => some (BitVec.ofInt 32 (x.toInt - y.toInt))),
    (Instr.imul, fun x y => some (BitVec.ofNat 32 (x.toNat * y.toNat))),
    (Instr.imulh, fun x y =>
      if x.toNat * y.toNat / 2 ^ 32 % 2 ^ 32 = (x.toInt * y.toInt / 2 ^ 32 % 2 ^ 32).toNat
      then some (BitVec.ofNat 32 (x.toNat * y.toNat / 2 ^ 32)) else none),
    (Instr.iand, fun x y => some (x &&& y)), (Instr.ior, fun x y => some (x ||| y)), (Instr.ixor, fun x y => some (x ^^^ y)),
    (Instr.shl, fun x y => if y.toNat < 32 then some (BitVec.ofNat 32 (x.toNat * 2 ^ y.toNat)) else none),
    (Instr.shr, fun x y => if y.toNat < 32 then some (BitVec.ofNat 32 (x.toNat / 2 ^ y.toNat)) else none),
    (Instr.sar, fun x y => if y.toNat < 32 then some (BitVec.ofInt 32 (x.toInt / 2 ^ y.toNat)) else none),
    (fun i => Instr.imin i true, fun x y => some (if x.toInt ≤ y.toInt then x else y)),
    (fun i => Instr.imin i false, fun x y => some (if x.toNat ≤ y.toNat then x else y)),
    (fun i => Instr.imax i true, fun x y => some (if x.toInt ≤ y.toInt then y else x)),
    (fun i => Instr.imax i false, fun x y => some (if x.toNat ≤ y.toNat then y else x)) ]

/-- The two-operand floating-point instructions with their results on codes (R103, R104). -/
def fpOps : List ((Iss → Nat → FOpd → FOpd → Instr) × (Word → Word → Word)) :=
  [ (Instr.fadd, fun x y => fAdd (f32Val x) (f32Val y)),
    (Instr.fsub, fun x y => fAdd (f32Val x) (f32Val (y ^^^ 0x80000000#32))),
    (Instr.fmul, fun x y => fMul (f32Val x) (f32Val y)),
    (Instr.fmin, fMinMax false), (Instr.fmax, fMinMax true) ]

/-- A floating-point operand with its modifiers (R103): the sign bit cleared by the absolute value, then flipped. -/
def fpCode (s : State) (t L : Nat) (o : FOpd) : Word :=
  let v := if o.abs then (s.opd t L o.src) % 0x80000000#32 else s.opd t L o.src
  if o.neg then v + 0x80000000#32 else v

/-- The predicate instructions of two predicate operands (R103). -/
def predOps : List ((Iss → Nat → Nat → Nat → Instr) × (Bool → Bool → Bool)) :=
  [(Instr.pand, and), (Instr.por, or), (Instr.pxor, xor)]

/-- What an integer comparison says of two numbers (log 8). -/
def cmpSays : Cmp → Int → Int → Bool
  | .eq, x, y => decide (x = y) | .ne, x, y => decide (x ≠ y) | .lt, x, y => decide (x < y)
  | .le, x, y => decide (x ≤ y) | .gt, x, y => decide (x > y) | .ge, x, y => decide (x ≥ y)

/-- The value of a selector of SYS for lane L of tile t (R95). -/
def sysSel (s : State) (t L : Nat) : Nat → Nat
  | 0 => L % 32 | 1 => L / 32 | 2 => t % 192 | 3 => t | 4 => t / 192 | 5 => s.moduleId
  | 6 => (s.group t (L / 32)).part | 7 => (s.group t (L / 32)).args | _ => (s.group t (L / 32)).index

/-- The members of a group instruction stand together (R115): the tile's only entry e holds the lanes of home group n whose bits are
set in v. -/
abbrev Members (s : State) (i : Iss) (e : Entry) (n : Nat) (v : Word) : Prop :=
  s.entries i.tile = [e] ∧ n < 16 ∧ v ≠ 0 ∧
  e.lanes = ((List.range 32).filter (fun k => v.getLsbD k)).map (fun k => k + 32 * n)

/-- The whole group stands together: every lane that has not exited, each with its guard on; the group has not halted (R115, R116). -/
abbrev WholeGroup (s : State) (i : Iss) (e : Entry) (n : Nat) : Prop :=
  Members s i e n (~~~ (s.group i.tile n).exited) ∧ (s.group i.tile n).halted = false ∧ ∀ L ∈ e.lanes, s.guardOn i.tile i.gpred i.gneg L = true

/-- No group slot of the tile has all its lanes exited. -/
abbrev NoneExited (s : State) (t : Nat) : Prop := ∀ n, n < 16 → (s.group t n).exited ≠ 0xFFFFFFFF#32

/-- The one entry of the tile stands at the next instruction, waiting for w. -/
def StandsAt (t : State) (i : Iss) (e : Entry) (pc : Pc) (w : Wait) : Prop :=
  t.entries i.tile = [{ lanes := e.lanes, pc := pc, wait := w, stalled := false }]

/-- Nothing but the rotor, the cells and the model's counter differs from u. -/
def OnlyCells (u t : State) : Prop := ({ t with cells := u.cells, rotors := u.rotors, tick := u.tick } : State) = u

/-- The registers that the mask operand of an ATOM with GROUP = 1 reads. -/
def grpRegs : Option Opd → List Nat
  | some m => m.regs
  | none => []

/-- An ATOM goes at once: GROUP = 0, or GROUP = 1 with its member lanes standing together under one mask (R115, R124). -/
def AtomReady (s : State) (i : Iss) (e : Entry) : Option Opd → Prop
  | none => True
  | some m => ∃ n v, Members s i e n v ∧ ∀ L ∈ e.lanes, s.opd i.tile L m = v

/-- No entry of the tile waits, and its memory pipe is empty. -/
abbrev TileQuiet (s : State) (t : Nat) : Prop := (∀ e ∈ s.entries t, e.wait = .none) ∧ s.pipe t = []

/-- An access to the store of tile t takes place at once: the memory pipe is empty, and the thread-issue entry of the tile's bank list is
current (R38, R133). -/
abbrev BanksFree (s : State) (t : Nat) : Prop := s.pipe t = [] ∧ s.hasTurn (.banks t) userThreads = true

/-- No earlier global access of lane L of tile t to n nibbles at offset o is under way (R101). -/
abbrev OwnClear (s : State) (t L o n : Nat) : Prop :=
  ∀ x ∈ s.accessesOut, x.origin.ofLane t L = true → o + n ≤ x.off ∨ x.off + x.kind.nibs ≤ o

/-- Where an access of tile t to its home stands: at once in the queue of the home, or on the mesh behind what is already there, with
the hops of R45 and R240 before it. -/
def OnItsWay (u t : State) (tile : Nat) (x : Access) : Prop :=
  (u.wayOut tile x = [] → t.homeQ = u.homeQ ++ [x] ∧ t.transit = u.transit) ∧
  (u.wayOut tile x ≠ [] → t.homeQ = u.homeQ ∧ t.transit = u.transit ++
    [{ hops := if x.pair then (u.wayOut tile x).flatMap (fun h => [h, h]) else u.wayOut tile x, cargo := .request x }])

/-- A source raises a report of a class (R473): it takes one of the source's two places, or with both taken is counted. -/
def Reports (s t : State) (cls : Cls) (st : Status) (x : Src) (rings : List Nat) : Prop :=
  if 2 ≤ (s.recorder.places.filter (fun p => p.src == x)).length then
    t.recorder = { s.recorder with unsent := t.recorder.unsent } ∧
    tget 0 t.recorder.unsent (unsentKey x cls.code) = tget 0 s.recorder.unsent (unsentKey x cls.code) + 1
  else ∃ rep : Report, rep.cls = cls ∧ rep.status = st ∧ rep.src = x ∧ rep.rings = rings ∧
    t.recorder = { s.recorder with places := s.recorder.places ++ [rep] }

/-- A register write of requester r at offset o passes its checks: it reaches a block that answers, r may write the register, and
the register's state does not forbid it (R8, R393, R395, R499). -/
def Takes (s : State) (r : Req) (o : Nat) : Prop :=
  ∃ b l row n, blkOf o = some (b, l) ∧ rowOf b.rows l = some (row, n) ∧ s.writeCheck r b l row = some .ok

/-- The rows that clear a W1C bit: the command, its register's offset, the bit, and the (offset, lowest bit, width) of the counts that
clear with it. -/
def w1cRows (r : Req) (f site ch h k e : Nat) : List (Instr × Nat × Nat × List (Nat × Nat × Nat)) :=
  [ (.tgFaultValid r f site, oTgFault f site, 31, [(oTgFault f site, 12, 16)]),
    (.vltThrottlePeakValid r f site, oVltThrottle f site, 31, []),
    (.vltErrNonzero r f site ch, oVltErrCh f site ch, 31, [(oVltErrCh f site ch, 0, 31)]),
    (.vltErrAddrValid r f site, oVltErrAddr f site, 31, []),
    (.tsErrNonzero r f site, oTsErr f site, 31, [(oTsErr f site, 0, 31)]),
    (.tsErrAddrValid r f site, oTsErrAddr f site, 31, []),
    (.scStatusThrash r h, oScStatus h, 4, []),
    (.scErrNonzero r h, oScErr h, 31, [(oScErr h, 0, 31)]),
    (.fabErrNonzero r, oFabErr, 31, [(oFabErr, 0, 31)]),
    (.linkReplayNonzero r k, oLinkReplay k, 31, [(oLinkReplay k - 16, 0, 32), (oLinkReplay k - 8, 0, 32), (oLinkReplay k, 0, 24)]),
    (.mcGuardValid r, oMcGuard, 31, [(oMcGuard, 0, 16)]),
    (.evrLostNonzero r, oEvrLost, 31, [(oEvrLost, 0, 31)]),
    (.rgnPoisonClear r e, oRgnPoison (e / 32), e % 32, []) ]

/-- The replica-table entry that the data registers and a commit value describe, and an empty one (R485). -/
def replicaOf (s : State) (v : Word) : Replica :=
  let d := s.rd oRepData0
  { kind := fld d 0 2, module := fld d 2 10, hostch := fld d 12 4, key := fld d 16 16,
    addr := (s.rd oRepData1).toNat + (s.rd oRepData2).toNat * 2 ^ 32, valid := flag v 0 }
def noReplica : Replica := { kind := 0, module := 0, hostch := 0, key := 0, addr := 0, valid := false }

end Sys2Proof.Claim

open Sys2Proof Sys2Proof.Machine Sys2Proof.Claim

/-! ### The machine as a whole -/

/-- A step runs the command at the front of the queue on the state that holds the rest of the queue. The queue is the model's
form of a block's inputs; log 2 names the step on an empty queue. -/
def Obligations.StepRunsFront : Prop :=
  (∀ (c : Instr) (q : List Instr) (s : State),
    step ({ s with pending := c :: q } : State) = exec c ({ s with pending := q } : State)) ∧
  (∀ s : State, s.pending = [] → step s = .next s.idle)

/-- R407, R409: after power-up reset every register holds its Reset value, no strobed value and no pair is pending, nothing is
stored in module memory, and start-up stands at order 1. -/
def Sys2Proof.Claim.ResetHoldsResetValues : Prop :=
  (∀ o, State.reset.rd o = resetOf o) ∧ State.reset.strobed = [] ∧ State.reset.pairs = [] ∧ State.reset.applying = [] ∧
  State.reset.mem = [] ∧ State.reset.pending = [] ∧ State.reset.modState = 0 ∧ State.reset.rdF oSuStatus 0 4 = 1 ∧
  (∀ p, State.reset.partState p = 0) ∧ (∀ k, State.reset.linkState k = 0) ∧ State.reset.recorder.log = []

/-! ### Thread instructions: registers and predicates -/

/-- R103, R105: the two-operand integer instructions complete wherever their entry can issue; each executing lane receives the
result of its own operands, and nothing else changes but the entry's program counter. -/
def Sys2Proof.Claim.IntegerResults : Prop :=
  ∀ op ∈ intOps, ∀ (i : Iss) (d a : Nat) (b : Opd) (s : State) (e : Entry),
    let n := need 0 [d] (a :: b.regs)
    (op.1 i d a b).wf = true → Issues s i n e →
    Goes (op.1 i d a b) s (fun t => WritesReg s t i n e d (fun L => op.2 (s.g i.tile L a) (s.opd i.tile L b)))

/-- R103: IMAD, SEL, MOV, POPC and CLZ. -/
def Sys2Proof.Claim.IntegerOtherResults : Prop :=
  ∀ (i : Iss) (d a c p : Nat) (b : Opd) (s : State) (e : Entry),
    issOk i = true → regOk d = true → regOk a = true → regOk c = true → predOk p = true → opdOk b = true →
    let imad := need 0 [d] (a :: c :: b.regs)
    let sel : Need := { need 0 [d] (a :: b.regs) with preads := [p] }
    let mov := need 0 [d] b.regs
    let one := need 0 [d] [a]
    (Issues s i imad e → Goes (.imad i d a b c) s (fun t => WritesReg s t i imad e d (fun L =>
      some (BitVec.ofNat 32 ((s.g i.tile L a).toNat * (s.opd i.tile L b).toNat + (s.g i.tile L c).toNat))))) ∧
    (Issues s i sel e → Goes (.sel i d a b p) s (fun t => WritesReg s t i sel e d (fun L =>
      some (if s.p i.tile L p then s.g i.tile L a else s.opd i.tile L b)))) ∧
    (Issues s i mov e → Goes (.mov i d b) s (fun t => WritesReg s t i mov e d (fun L => some (s.opd i.tile L b)))) ∧
    (Issues s i one e → Goes (.popc i d a) s (fun t => WritesReg s t i one e d (fun L =>
      some (BitVec.ofNat 32 (((List.range 32).filter (fun n => (s.g i.tile L a).getLsbD n)).length))))) ∧
    (Issues s i one e → Goes (.clz i d a) s (fun t =>
      WritesReg s t i one e d (fun L => some (t.g i.tile L d)) ∧
      ∀ L, Active s i e L → (t.g i.tile L d).toNat ≤ 32 ∧
        (s.g i.tile L a).toNat < 2 ^ (32 - (t.g i.tile L d).toNat) ∧
        ((t.g i.tile L d).toNat < 32 → 2 ^ (31 - (t.g i.tile L d).toNat) ≤ (s.g i.tile L a).toNat)))

/-- Integer instructions write the result of each executing lane and nothing else: the conjunction of the parts above. -/
def Obligations.IntegerInstructions : Prop :=
  Sys2Proof.Claim.IntegerResults ∧ Sys2Proof.Claim.IntegerOtherResults

/-- R103, R104: FADD, FSUB, FMUL, FMIN and FMAX round the exact result once, on operands with their modifiers; FFMA rounds
a × b + c once. -/
def Sys2Proof.Claim.FloatResults : Prop :=
  (∀ op ∈ fpOps, ∀ (i : Iss) (d : Nat) (a b : FOpd) (s : State) (e : Entry),
    let n := need 1 [d] (a.src.regs ++ b.src.regs)
    (op.1 i d a b).wf = true → Issues s i n e →
    Goes (op.1 i d a b) s (fun t => WritesReg s t i n e d (fun L =>
      some (op.2 (fpCode s i.tile L a) (fpCode s i.tile L b))))) ∧
  (∀ (i : Iss) (d : Nat) (a b c : FOpd) (s : State) (e : Entry),
    let n := need 1 [d] (a.src.regs ++ b.src.regs ++ c.src.regs)
    (Instr.ffma i d a b c).wf = true → Issues s i n e →
    Goes (.ffma i d a b c) s (fun t => WritesReg s t i n e d (fun L =>
      some (fFma (f32Val (fpCode s i.tile L a)) (f32Val (fpCode s i.tile L b)) (f32Val (fpCode s i.tile L c))))))

/-- R104: FMIN and FMAX return the other operand when exactly one is NaN, the canonical NaN when both are, and treat −0 as
less than +0. -/
def Sys2Proof.Claim.FloatMinMaxRule : Prop :=
  ∀ (i : Iss) (d : Nat) (a b : FOpd) (s : State) (e : Entry) (big : Bool),
    (Instr.fmin i d a b).wf = true → Issues s i (need 1 [d] (a.src.regs ++ b.src.regs)) e →
    Goes (if big then .fmax i d a b else .fmin i d a b) s (fun t => ∀ L, Active s i e L →
      let x := fpCode s i.tile L a
      let y := fpCode s i.tile L b
      (f32Val x = .nan → f32Val y = .nan → t.g i.tile L d = 0x7FC00000#32) ∧
      (f32Val x = .nan → f32Val y ≠ .nan → t.g i.tile L d = y) ∧
      (f32Val x ≠ .nan → f32Val y = .nan → t.g i.tile L d = x) ∧
      (x = 0x80000000#32 → y = 0#32 → t.g i.tile L d = if big then y else x) ∧
      (x = 0#32 → y = 0x80000000#32 → t.g i.tile L d = if big then x else y))

/-- Floating-point instructions round once; FMIN and FMAX follow their NaN and zero rule: the conjunction of the parts above. -/
def Obligations.FloatInstructions : Prop :=
  Sys2Proof.Claim.FloatResults ∧ Sys2Proof.Claim.FloatMinMaxRule

/-- R120, R500: CVT encodes the value of its source under the rounding its control names, in the low bits of d or, for P32, in the
pair at d; into a block-scaled format it writes element code zero where the source is not finite or the scale is xFF. -/
def Sys2Proof.Claim.ConvertResults : Prop :=
  ∀ (i : Iss) (d a c : Nat) (b : Opd) (m : CvtMod) (fs fd : Fmt) (s : State) (e : Entry),
    (Instr.cvt i d a b c m).wf = true → fmtOf m.src = some fs → fmtOf m.dst = some fd →
    let n := need 2 (fmtRegs fd d) (fmtRegs fs a ++ b.regs ++ (if fs.scaled || fd.scaled then [c] else []))
    Issues s i n e →
    Goes (.cvt i d a b c m) s (fun t =>
      GprFrame s t i e (if fd = .p32 then [d, d + 1] else [d]) ∧ OnlyGpr (Fetched s i e) t ∧ Advanced s t i n e ∧
      ∀ L, Active s i e L →
        let scale := (s.g i.tile L c).toNat % 256
        let v := s.cvtSrc i.tile L a fs scale
        let code := cvtCode fd m.ctrl (s.rnd i.tile m.ctrl (s.opd i.tile L b).toNat) scale v
        t.g i.tile L d = BitVec.ofNat 32 code ∧
        (fd = .p32 → t.g i.tile L (d + 1) = BitVec.ofNat 32 (code / 2 ^ 32)) ∧
        (fd.scaled = true → (v = .nan ∨ (∃ g, v = .inf g) ∨ scale = 255) → t.g i.tile L d = 0#32))

/-- R103, R104: I2F rounds the integer to nearest even; F2I of a code whose value is an integer in range returns that integer. -/
def Sys2Proof.Claim.IntegerFloatConversions : Prop :=
  ∀ (i : Iss) (sg : Bool) (d a : Nat) (s : State) (e : Entry),
    issOk i = true → regOk d = true → regOk a = true →
    let k := need 2 [d] [a]
    (Issues s i k e → Goes (.i2f i sg d a) s (fun t => WritesReg s t i k e d (fun L =>
      let x : Int := if sg then (s.g i.tile L a).toInt else ((s.g i.tile L a).toNat : Int)
      some (rne32 (decide (x < 0)) ⟨x, 0⟩)))) ∧
    (Issues s i (need 2 [d] [a, a]) e → Goes (.f2i i sg d a) s (fun t =>
      WritesReg s t i (need 2 [d] [a, a]) e d (fun L => some (t.g i.tile L d)) ∧
      ∀ L g x n, Active s i e L → f32Val (s.g i.tile L a) = .fin g x →
        (if 0 ≤ x.e then n = x.m * 2 ^ x.e.toNat else x.m = n * 2 ^ (-x.e).toNat) →
        (if sg then -(2 ^ 31) else 0) ≤ n → n < (if sg then 2 ^ 31 else 2 ^ 32) →
        t.g i.tile L d = BitVec.ofInt 32 n))

/-- CVT, I2F and F2I convert as their controls name: the conjunction of the parts above. -/
def Obligations.ConversionInstructions : Prop :=
  Sys2Proof.Claim.ConvertResults ∧ Sys2Proof.Claim.IntegerFloatConversions

/-- R92, R103: the predicate instructions, P2G and G2P; a write to p7 is ignored. The codes of comparisons and the bit that P2G
and G2P give each predicate are log 8. -/
def Sys2Proof.Claim.PredicateResults : Prop :=
  (∀ (i : Iss) (c : Cmp) (sg : Bool) (pd a : Nat) (b : Opd) (s : State) (e : Entry),
    let n : Need := { need 3 [] (a :: b.regs) with pwrites := [pd] }
    (Instr.isetp i c sg pd a b).wf = true → Issues s i n e →
    Goes (.isetp i c sg pd a b) s (fun t => WritesPred s t i n e pd (fun L =>
      some (if sg then cmpSays c (s.g i.tile L a).toInt (s.opd i.tile L b).toInt
        else cmpSays c (s.g i.tile L a).toNat (s.opd i.tile L b).toNat)))) ∧
  (∀ (i : Iss) (c : Cmp) (pd : Nat) (a b : FOpd) (s : State) (e : Entry),
    let n : Need := { need 3 [] (a.src.regs ++ b.src.regs) with pwrites := [pd] }
    (Instr.fsetp i c pd a b).wf = true → Issues s i n e →
    Goes (.fsetp i c pd a b) s (fun t => WritesPred s t i n e pd (fun L => fcmp c (fpCode s i.tile L a) (fpCode s i.tile L b)))) ∧
  (∀ op ∈ predOps, ∀ (i : Iss) (pd pa pb : Nat) (s : State) (e : Entry),
    let n : Need := { need 3 [] [] with preads := [pa, pb], pwrites := [pd] }
    (op.1 i pd pa pb).wf = true → Issues s i n e →
    Goes (op.1 i pd pa pb) s (fun t => WritesPred s t i n e pd (fun L => some (op.2 (s.p i.tile L pa) (s.p i.tile L pb))))) ∧
  (∀ (i : Iss) (d : Nat) (s : State) (e : Entry), issOk i = true → regOk d = true →
    let n : Need := { need 3 [d] [] with preads := List.range 8 }
    Issues s i n e →
    Goes (.p2g i d) s (fun t => WritesReg s t i n e d (fun L => some (t.g i.tile L d)) ∧
      ∀ L k, Active s i e L → k < 32 → (t.g i.tile L d).getLsbD k = (decide (k < 8) && s.p i.tile L k))) ∧
  (∀ (i : Iss) (a : Nat) (s : State) (e : Entry), issOk i = true → regOk a = true →
    let n : Need := { need 3 [] [a] with pwrites := List.range 8 }
    Issues s i n e →
    Goes (.g2p i a) s (fun t => PredFrame s t i e [0, 1, 2, 3, 4, 5, 6] ∧ OnlyPreds (Fetched s i e) t ∧ Advanced s t i n e ∧
      ∀ L k, Active s i e L → k < 7 → t.p i.tile L k = (s.g i.tile L a).getLsbD k))

/-- R95, R103: SYS reads the selector's value into d; NOP changes nothing but the entry's program counter. -/
def Sys2Proof.Claim.SysAndNopResults : Prop :=
  (∀ (i : Iss) (d x : Nat) (s : State) (e : Entry), (Instr.sys i d x).wf = true → Issues s i (need 12 [d] []) e →
    Goes (.sys i d x) s (fun t => WritesReg s t i (need 12 [d] []) e d (fun L => some (BitVec.ofNat 32 (sysSel s i.tile L x))))) ∧
  (∀ (i : Iss) (s : State) (e : Entry), issOk i = true → Issues s i (need 4 [] []) e →
    Goes (.insnNop i) s (fun t => t.gpr = s.gpr ∧ t.preds = s.preds ∧ OnlyGpr (Fetched s i e) t ∧ Advanced s t i (need 4 [] []) e))

/-- Predicate instructions, SYS and NOP write what they name and nothing else: the conjunction of the parts above. -/
def Obligations.PredicateInstructions : Prop :=
  Sys2Proof.Claim.PredicateResults ∧ Sys2Proof.Claim.SysAndNopResults

/-! ### Thread instructions: control -/

/-- R92, R103, R105, R111: BRA, CALL and RET. Every executing lane stands at its target afterwards and every other lane at the next
instruction; the entries that replace the entry share one program counter each, hold every lane of it once, stand at its place
in ascending order of their lowest lane, and CALL leaves the return index in g63. -/
def Obligations.BranchesSplitEntries : Prop :=
  ∀ (i : Iss) (tg : Target) (s : State) (e : Entry) (c : Instr),
    issOk i = true → targetOk tg = true → e.lanes.Pairwise (· < ·) →
    (c = .bra i tg ∧ Issues s i (need 4 [] (targetRegs tg)) e ∨ c = .call i tg ∧ Issues s i (need 4 [63] (targetRegs tg)) e ∨
      c = .ret i ∧ Issues s i (need 4 [] [63]) e) →
    Goes c s (fun t =>
      let dest (L : Nat) : Pc := if s.guardOn i.tile i.gpred i.gneg L then
          (if c = .ret i then (s.g i.tile L 63).truncate 13 else match tg with
            | .direct n => BitVec.ofNat 13 n
            | .ind r => (s.g i.tile L r).truncate 13)
        else e.pc + 1
      (∃ l : List Entry,
        t.entries i.tile = (s.entries i.tile).take i.entry ++ l ++ (s.entries i.tile).drop (i.entry + 1) ∧
        (∀ x ∈ l, x.wait = .none ∧ x.lanes ≠ [] ∧ x.lanes.Pairwise (· < ·) ∧ ∀ L ∈ x.lanes, L ∈ e.lanes ∧ dest L = x.pc) ∧
        (∀ L ∈ e.lanes, ∃ x ∈ l, L ∈ x.lanes) ∧ (l.map (·.pc)).Nodup ∧
        (l.map (fun x => nth 0 x.lanes 0)).Pairwise (· < ·)) ∧
      (∀ u, u ≠ i.tile → t.entries u = s.entries u) ∧
      GprFrame s t i e (if c = .call i tg then [63] else []) ∧ OnlyGpr (Fetched s i e) t ∧
      (c = .call i tg → ∀ L, Active s i e L → t.g i.tile L 63 = (e.pc + 1).zeroExtend 32))

/-- R96: EXIT ends the executing lanes: they leave the rotor list and are marked as exited, and the entry's other lanes, if any, go
on at the next instruction. Stated where no entry of the tile waits and no operation of the group is under way. -/
def Sys2Proof.Claim.ExitEndsLanes : Prop :=
  ∀ (i : Iss) (s : State) (e : Entry), issOk i = true → Issues s i (need 4 [] []) e → s.entries i.tile = [e] → s.pipe i.tile = [] →
    Goes (.exit i) s (fun t =>
      let rest := e.lanes.filter (fun L => !s.guardOn i.tile i.gpred i.gneg L)
      t.entries i.tile = (if rest = [] then [] else [{ e with lanes := rest, pc := e.pc + 1, stalled := false }]) ∧
      t.gpr = s.gpr ∧ t.preds = s.preds ∧ t.mem = s.mem ∧ t.regs = (Fetched s i e).regs ∧
      (∀ n, n < 16 → (s.group i.tile n).live = true → (s.group i.tile n).halted = false →
        let x := (s.group i.tile n).exited ||| laneMask n (e.lanes.filter (s.guardOn i.tile i.gpred i.gneg))
        (x ≠ 0xFFFFFFFF#32 → (t.group i.tile n).exited = x ∧ (t.group i.tile n).live = true) ∧
        (x = 0xFFFFFFFF#32 → (∀ L ∈ rest, L / 32 ≠ n) → ({ s with rotors := [] } : State).slotQuiet i.tile n = true →
          t.group i.tile n = groupFree)))

/-! ### Thread instructions: memory -/

/-- R97, R98, R136: LDT of an entry whose executing lanes all address in range, aligned and readable: each lane receives its data,
extended as its width says; a pair for N16. Memory stays, and where no codeword it reads holds an error nothing but the
destinations and the count of the bank list changes. Stated where the pipe is empty and the thread-issue entry current. -/
def Obligations.TileLoadResults : Prop :=
  ∀ (i : Iss) (w : Width) (sx : Bool) (d a : Nat) (b : Opd) (s : State) (e : Entry),
    let n := need 5 (widthRegs w d) (a :: b.regs)
    (Instr.ldt i w sx d a b).wf = true → Issues s i n e → BanksFree s i.tile →
    let addr (L : Nat) : Nat := (s.g i.tile L a + s.opd i.tile L b).toNat
    (∀ L, Active s i e L → tileAddrOk (addr L) w.nibs = true ∧ s.readsPoison i.mem (storeBase i.tile + addr L) w.nibs = false ∧
      OwnClear s i.tile L (storeBase i.tile + addr L) w.nibs) →
    Goes (.ldt i w sx d a b) s (fun t =>
      (∀ L, Active s i e L →
        let v := ofNibs (s.seen i.mem (storeBase i.tile + addr L) w.nibs)
        (w = .n16 → t.g i.tile L d = BitVec.ofNat 32 v ∧ t.g i.tile L (d + 1) = BitVec.ofNat 32 (v / 2 ^ 32)) ∧
        (w ≠ .n16 → t.g i.tile L d = if sx then BitVec.ofInt 32 (signedOf v (4 * w.nibs)) else BitVec.ofNat 32 v)) ∧
      GprFrame s t i e (widthRegs w d) ∧ Advanced s t i n e ∧ t.mem = s.mem ∧ t.poison = s.poison ∧ t.preds = s.preds ∧
      t.groups = s.groups ∧
      (i.mem = [] → ({ t with gpr := s.gpr, rotors := s.rotors, lists := s.lists } : State) = Fetched s i e))

/-- R97, R98, R134: STT of an entry whose executing lanes all address in range, aligned and outside fenced regions, over codewords
without errors: every nibble of module memory that an executing lane writes takes the value of the highest such lane, and
every other nibble stays. -/
def Obligations.TileStoreResults : Prop :=
  ∀ (i : Iss) (w : Width) (d a : Nat) (b : Opd) (s : State) (e : Entry),
    let n := need 5 [] (widthRegs w d ++ a :: b.regs)
    (Instr.stt i w d a b).wf = true → Issues s i n e → BanksFree s i.tile → i.mem = [] → e.lanes.Pairwise (· < ·) →
    let addr (L : Nat) : Nat := storeBase i.tile + (s.g i.tile L a + s.opd i.tile L b).toNat
    let data (L : Nat) : Nat := if w = .n16 then (s.g i.tile L d).toNat + 2 ^ 32 * (s.g i.tile L (d + 1)).toNat
      else (s.g i.tile L d).toNat
    (∀ L, Active s i e L → tileAddrOk (addr L - storeBase i.tile) w.nibs = true ∧
      s.storeFenced i.tile (addr L - storeBase i.tile) = false ∧ s.writesDropped (addr L) = false ∧
      s.anyPoison (addr L) w.nibs = false ∧ OwnClear s i.tile L (addr L) w.nibs) →
    Goes (.stt i w d a b) s (fun t =>
      (∀ x L, Active s i e L → addr L ≤ x → x < addr L + w.nibs →
        (∀ L', Active s i e L' → L < L' → ¬ (addr L' ≤ x ∧ x < addr L' + w.nibs)) →
        getNib t.mem x = BitVec.ofNat 4 (data L / 16 ^ (x - addr L))) ∧
      (∀ x, (∀ L, Active s i e L → ¬ (addr L ≤ x ∧ x < addr L + w.nibs)) → getNib t.mem x = getNib s.mem x) ∧
      t.gpr = s.gpr ∧ Advanced s t i n e ∧
      ({ t with mem := s.mem, poison := s.poison, rotors := s.rotors, lists := s.lists } : State) = Fetched s i e ∧
      t.poison = s.poison)

/-- R45, R97, R99, R300, R302: LDG and STG of one executing lane whose address passes the tests at the source and whose home is this
module: the access goes on its way to its home with the key that R300 supplies, and the thread goes on. Stated where the
memory pipe is empty. -/
def Sys2Proof.Claim.GlobalAccessesReachTheirHome : Prop :=
  ∀ (i : Iss) (w : Width) (sx retire store : Bool) (d a L : Nat) (s : State) (e : Entry),
    let n := if store then need 6 [] (widthRegs w d ++ [a, a + 1]) else need 6 (widthRegs w d) [a, a + 1]
    (Instr.ldg i w sx retire d a).wf = true → Issues s i n e → s.pipe i.tile = [] →
    e.lanes.filter (s.guardOn i.tile i.gpred i.gneg) = [L] →
    let addr : Long := s.g i.tile L (a + 1) ++ s.g i.tile L a
    s.sourceTest addr w.nibs = .ok → s.addrHome addr = s.moduleId →
    Goes (if store then .stg i w retire d a else .ldg i w sx retire d a) s (fun t =>
      let part := (s.group i.tile (L / 32)).part
      OnItsWay (Fetched s i e) t i.tile
        { origin := .lane i.tile L (if store then none else some d) w (if store then false else sx) e.pc.toNat addr.toNat,
          part := part, key := s.keyFor part s.moduleId (addr.toNat % 2 ^ 44), runtime := false,
          fabric := decide (addr.toNat / 2 ^ 62 = 1), off := addr.toNat % 2 ^ 44,
          kind := if store then .store (nibsOf ((s.g i.tile L d).toNat +
              (if w = .n16 then 2 ^ 32 * (s.g i.tile L (d + 1)).toNat else 0)) w.nibs) else .load w.nibs,
          retire := retire, poison := false, waitFill := false } ∧
      ({ t with homeQ := s.homeQ, transit := s.transit, rotors := s.rotors } : State) = Fetched s i e ∧ Advanced s t i n e)

/-- R122, R123: ATOM.T of lanes that all address one good word of the tile's own store: the word holds all updates applied in lane
order, each lane receives the word as it stood before its own update, and no other nibble changes. -/
def Obligations.TileAtomicsApplyInLaneOrder : Prop :=
  ∀ (i : Iss) (fn : AtomFn) (grp : Option Opd) (d a b c o : Nat) (off : Opd) (s : State) (e : Entry),
    let n := need 7 [d] (a :: b :: (if fn = .cas then [c] else []) ++ off.regs ++ grpRegs grp)
    (Instr.atomT i fn grp d a off b c).wf = true → Issues s i n e →
    AtomReady s i e grp → BanksFree s i.tile → i.mem = [] →
    let act := e.lanes.filter (s.guardOn i.tile i.gpred i.gneg)
    act ≠ [] → act.Nodup → (∀ L ∈ act, (s.g i.tile L a + s.opd i.tile L off).toNat = o) →
    tileAddrOk o 8 = true → s.storeFenced i.tile o = false → s.writesDropped (storeBase i.tile + o) = false →
    s.anyPoison (storeBase i.tile + o) 8 = false → (∀ L ∈ act, OwnClear s i.tile L (storeBase i.tile + o) 8) →
    let word := BitVec.ofNat 32 (s.load (storeBase i.tile + o) 8)
    let before (n : Nat) : Word := (act.take n).foldl (fun x L => atomNew fn x (s.g i.tile L b) (s.g i.tile L c)) word
    Goes (.atomT i fn grp d a off b c) s (fun t =>
      BitVec.ofNat 32 (t.load (storeBase i.tile + o) 8) = before act.length ∧
      (∀ n L, act[n]? = some L → t.g i.tile L d = before n) ∧
      (∀ x, ¬ (storeBase i.tile + o ≤ x ∧ x < storeBase i.tile + o + 8) → getNib t.mem x = getNib s.mem x) ∧
      GprFrame s t i e [d] ∧ Advanced s t i n e ∧
      ({ t with mem := s.mem, gpr := s.gpr, rotors := s.rotors, lists := s.lists } : State) = Fetched s i e)

/-- R123, R302: ATOM.G of lanes that all address one word of this module's memory goes on its way as one combined update. Stated
where the memory pipe is empty. -/
def Sys2Proof.Claim.GlobalAtomicsCombine : Prop :=
  ∀ (i : Iss) (fn : AtomFn) (grp : Option Opd) (d a b c : Nat) (addr : Long) (s : State) (e : Entry),
    let n := need 7 [d] (a :: (a + 1) :: b :: (if fn = .cas then [c] else []) ++ grpRegs grp)
    (Instr.atomG i fn grp d a b c).wf = true → Issues s i n e → AtomReady s i e grp → s.pipe i.tile = [] →
    let act := e.lanes.filter (s.guardOn i.tile i.gpred i.gneg)
    act ≠ [] → (∀ L ∈ act, s.g i.tile L (a + 1) ++ s.g i.tile L a = addr) →
    s.sourceTest addr 8 = .ok → s.addrHome addr = s.moduleId →
    Goes (.atomG i fn grp d a b c) s (fun t =>
      let part := (s.group i.tile (nth 0 act 0 / 32)).part
      OnItsWay (Fetched s i e) t i.tile
        { origin := .lanes i.tile act d e.pc.toNat addr.toNat, part := part,
          key := s.keyFor part s.moduleId (addr.toNat % 2 ^ 44), runtime := false,
          fabric := decide (addr.toNat / 2 ^ 62 = 1), off := addr.toNat % 2 ^ 44,
          kind := .atomic fn (act.map (fun L => (s.g i.tile L b, s.g i.tile L c))),
          retire := false, poison := false, waitFill := false } ∧
      ({ t with homeQ := s.homeQ, transit := s.transit, rotors := s.rotors } : State) = Fetched s i e ∧ Advanced s t i n e)

/-- LDG, STG and ATOM.G go on their way home with the key the map supplies: the conjunction of the parts above. -/
def Obligations.GlobalAccessesAreSent : Prop :=
  Sys2Proof.Claim.GlobalAccessesReachTheirHome ∧ Sys2Proof.Claim.GlobalAtomicsCombine

/-- R101: FENCE.M. With no global access of the executing lanes under way the entry goes on at once; otherwise those lanes wait at the
fence. Stated where every lane executes, its group has not halted, no other entry of the tile waits and the memory pipe is
empty. -/
def Sys2Proof.Claim.FenceWaitsForAccesses : Prop :=
  ∀ (i : Iss) (s : State) (e : Entry), issOk i = true → Issues s i (need 6 [] []) e → s.entries i.tile = [e] → e.lanes ≠ [] →
    s.pipe i.tile = [] → (s.group i.tile (homeOf (nth 0 e.lanes 0))).halted = false →
    (∀ L ∈ e.lanes, s.guardOn i.tile i.gpred i.gneg L = true) → NoneExited s i.tile →
    Goes (.fenceM i) s (fun t =>
      (t.entries i.tile = if s.outstanding.any (fun o => e.lanes.any (fun L => o.ofLane i.tile L))
        then [{ lanes := e.lanes, pc := e.pc, wait := .fence, stalled := false }]
        else [{ lanes := e.lanes, pc := e.pc + 1, wait := .none, stalled := false }]) ∧
      ({ t with rotors := s.rotors } : State) = Fetched s i e ∧ ∀ u, u ≠ i.tile → t.entries u = s.entries u)

/-! ### Group instructions -/

/-- R115, R116, R118: SHF with its member lanes together under one mask: each member with its guard on receives register a of its
source lane, or of itself where the source is no member lane. -/
def Obligations.ShuffleResults : Prop :=
  ∀ (i : Iss) (m : ShfMode) (d a n : Nat) (b mask : Opd) (v : Word) (s : State) (e : Entry),
    let k := need 8 [d] (a :: b.regs ++ mask.regs)
    (Instr.shf i m d a b mask).wf = true → Issues s i k e → Members s i e n v →
    (∀ L ∈ e.lanes, s.opd i.tile L mask = v) →
    Goes (.shf i m d a b mask) s (fun t => WritesReg s t i k e d (fun L =>
      let k : Int := (L % 32 : Nat)
      let x : Int := ((s.opd i.tile L b).toNat : Int)
      let j : Int := match m with
        | .idx => x | .up => k - x | .down => k + x | .xor => (((L % 32) ^^^ (s.opd i.tile L b).toNat : Nat) : Int)
      some (if 0 ≤ j ∧ j < 32 ∧ v.getLsbD j.toNat then s.g i.tile (32 * n + j.toNat) a else s.g i.tile L a)))

/-- R115, R116, R119: VOTE with its member lanes together under one mask: a lane with its guard off contributes false, ALL and ANY
write predicate d, BALLOT register d. -/
def Sys2Proof.Claim.VoteResults : Prop :=
  ∀ (i : Iss) (m : VoteMode) (d pa n : Nat) (mask : Opd) (v : Word) (s : State) (e : Entry),
    let k : Need := if m = .ballot then { need 8 [d] mask.regs with preads := [pa] }
      else { need 8 [] mask.regs with preads := [pa], pwrites := [d] }
    (Instr.vote i m d pa mask).wf = true → Issues s i k e → Members s i e n v →
    (∀ L ∈ e.lanes, s.opd i.tile L mask = v) →
    let yes (L : Nat) : Prop := s.guardOn i.tile i.gpred i.gneg L = true ∧ s.p i.tile L pa = true
    Goes (.vote i m d pa mask) s (fun t =>
      (m = .ballot → WritesReg s t i k e d (fun L => some (t.g i.tile L d)) ∧
        ∀ L j, Active s i e L → j < 32 → ((t.g i.tile L d).getLsbD j = true ↔ v.getLsbD j = true ∧ yes (j + 32 * n))) ∧
      (m ≠ .ballot → WritesPred s t i k e d (fun L => some (t.p i.tile L d)) ∧
        ∀ L, Active s i e L → d ≠ 7 → (t.p i.tile L d = true ↔
          if m = .all then ∀ L' ∈ e.lanes, yes L' else ∃ L' ∈ e.lanes, yes L')))

/-- R121: CVT.BLK of a whole group whose members all execute into a block-scaled format: d of each lane holds its element under the
scale of R90, d + 1 the scale; lanes that have exited supply zero. -/
def Sys2Proof.Claim.ConvertBlockResults : Prop :=
  ∀ (i : Iss) (d a b n : Nat) (m : CvtMod) (fs fd : Fmt) (s : State) (e : Entry),
    (Instr.cvtBlk i d a b m).wf = true → fmtOf m.src = some fs → fmtOf m.dst = some fd → fs.scaled = false → fd.scaled = true →
    let need1 := need 2 [d, d + 1] (fmtRegs fs a ++ [b])
    Issues s i need1 e → WholeGroup s i e n →
    Goes (.cvtBlk i d a b m) s (fun t =>
      let vals := (List.range 32).map (fun k =>
        if (s.group i.tile n).exited.getLsbD k then Val.fin false dy0 else s.cvtSrc i.tile (32 * n + k) a fs 0)
      let modes := (List.range 32).map (fun k => s.rnd i.tile m.ctrl (s.g i.tile (32 * n + k) b).toNat)
      let blk := convBlock fd modes vals
      (∀ L ∈ e.lanes, t.g i.tile L d = BitVec.ofNat 32 (nth 0 blk.1 (L % 32)) ∧ t.g i.tile L (d + 1) = BitVec.ofNat 32 blk.2) ∧
      GprFrame s t i e [d, d + 1] ∧ OnlyGpr (Fetched s i e) t ∧ Advanced s t i need1 e)

/-- VOTE and CVT.BLK act on the whole of their members: the conjunction of the parts above. -/
def Obligations.VoteAndConvertBlock : Prop :=
  Sys2Proof.Claim.VoteResults ∧ Sys2Proof.Claim.ConvertBlockResults

/-- R127, R128: POST of a group that has no store or atomic under way to its own tile raises the cell's count by n, at most to 2^32 - 1, and
goes on; to another tile of the job on this module it sends the addition on its way there and goes on; it waits where a store of the
group is under way. TAKE by the cell's taker goes on with the count lowered by n where it reaches n, and waits otherwise. No other
cell changes. Stated where the memory pipe is empty. -/
def Sys2Proof.Claim.PostAndTakeResults : Prop :=
  (∀ (i : Iss) (cell : Opd) (c a n k u : Nat) (self : Bool) (s : State) (e : Entry),
    let x := need 9 [] ((if self then [] else [a]) ++ cell.regs)
    (Instr.post i cell c self a).wf = true → Issues s i x e → WholeGroup s i e n → NoneExited s i.tile → s.pipe i.tile = [] →
    (∀ L ∈ e.lanes, (s.opd i.tile L cell).toNat = k ∧ s.g i.tile L a = s.g i.tile (nth 0 e.lanes 0) a) →
    (self = false → (s.g i.tile (nth 0 e.lanes 0) a).toNat % 2 ^ 24 = s.moduleId * 2 ^ 14 + u ∧ u < 12288 ∧
      ∃ q, s.partOfField (u / 192) = some q ∧ s.jobOf q = s.jobOf (s.group i.tile n).part) →
    (s.storesOut i.tile n = true → Goes (.post i cell c self a) s (fun t => OnlyCells (Fetched s i e) t ∧ t.cells = s.cells ∧
      StandsAt t i e e.pc (.post (k % 64) c (if self then none else some (s.moduleId * 2 ^ 14 + u))))) ∧
    (s.storesOut i.tile n = false → self = true → Goes (.post i cell c self a) s (fun t =>
      t.cell i.tile (k % 64) = BitVec.ofNat 32 (Nat.min ((s.cell i.tile (k % 64)).toNat + c) (2 ^ 32 - 1)) ∧
      (∀ u' k', k' < 64 → ¬ (u' = i.tile ∧ k' = k % 64) → t.cell u' k' = s.cell u' k') ∧
      StandsAt t i e (e.pc + 1) .none ∧ t.gpr = s.gpr ∧ t.preds = s.preds ∧ t.mem = s.mem ∧ t.groups = s.groups ∧
      ((s.cell i.tile (k % 64)).toNat + c < 2 ^ 32 → OnlyCells (Fetched s i e) t))) ∧
    (s.storesOut i.tile n = false → self = false → Goes (.post i cell c self a) s (fun t =>
      let part := (s.group i.tile n).part
      let dest := postAddr s.moduleId u
      OnItsWay (Fetched s i e) t i.tile
        { origin := .post i.tile n e.pc.toNat, part := part, key := s.keyFor part s.moduleId (addrOff dest), runtime := false,
          fabric := true, off := addrOff dest, kind := .post u (k % 64) c, retire := false, poison := false, waitFill := false } ∧
      StandsAt t i e (e.pc + 1) .none ∧
      ({ t with homeQ := s.homeQ, transit := s.transit, rotors := s.rotors, tick := s.tick } : State) = Fetched s i e))) ∧
  (∀ (i : Iss) (cell : Opd) (c n k : Nat) (s : State) (e : Entry) (img : SchedImage),
    (Instr.take i cell c).wf = true → Issues s i (need 9 [] cell.regs) e → WholeGroup s i e n → NoneExited s i.tile →
    s.pipe i.tile = [] → (∀ L ∈ e.lanes, (s.opd i.tile L cell).toNat = k) →
    (s.part (s.group i.tile n).part).sched = some img → (i.tile, k % 64, Taker.slot n) ∈ img.takers →
    Goes (.take i cell c) s (fun t =>
      (c ≤ (s.cell i.tile (k % 64)).toNat →
        t.cell i.tile (k % 64) = BitVec.ofNat 32 ((s.cell i.tile (k % 64)).toNat - c) ∧ StandsAt t i e (e.pc + 1) .none) ∧
      ((s.cell i.tile (k % 64)).toNat < c → t.cells = s.cells ∧ StandsAt t i e e.pc (.take (k % 64) c)) ∧
      (∀ u' k', k' < 64 → ¬ (u' = i.tile ∧ k' = k % 64) → t.cell u' k' = s.cell u' k') ∧ OnlyCells (Fetched s i e) t))

/-- FENCE.M, POST and TAKE wait and count as the rendezvous rules say: the conjunction of the parts above. -/
def Obligations.FencePostAndTake : Prop :=
  Sys2Proof.Claim.FenceWaitsForAccesses ∧ Sys2Proof.Claim.PostAndTakeResults

/-- R129, R130, R131: MXI allocates the group's lowest free token, writes it to d of every member and queues the descriptor as copied;
MXW on a token whose operation is done writes its status and frees it, on a free token it writes WRONG_STATE, and on one still
under way it waits; FLUSH queues its spar mask. -/
def Sys2Proof.Claim.MatrixIssueResults : Prop :=
  (∀ (i : Iss) (d a imm n tok o : Nat) (s : State) (e : Entry),
    let x := need 10 [d] [a]
    (Instr.mxi i d a imm).wf = true → Issues s i x e → WholeGroup s i e n → i.mem = [] →
    (∀ L ∈ e.lanes, s.g i.tile L a = s.g i.tile (nth 0 e.lanes 0) a) →
    (s.g i.tile (nth 0 e.lanes 0) a + BitVec.ofNat 32 imm).toNat = o → o % 64 = 0 → o + 64 ≤ tsSize →
    s.anyPoison (storeBase i.tile + o) 64 = false →
    tok < 16 → tfind (s.group i.tile n).tokens tok = none → (∀ k, k < tok → (tfind (s.group i.tile n).tokens k).isSome) →
    Goes (.mxi i d a imm) s (fun t =>
      (∀ L ∈ e.lanes, t.g i.tile L d = BitVec.ofNat 32 tok) ∧ GprFrame s t i e [d] ∧ Advanced s t i x e ∧
      tfind (t.group i.tile n).tokens tok = some .busy ∧
      t.mxu i.tile = { s.mxu i.tile with
        issue := (s.mxu i.tile).issue ++ [MxItem.mxd n tok (BitVec.ofNat 256 (s.load (storeBase i.tile + o) 64))] } ∧
      ({ t with gpr := s.gpr, rotors := s.rotors, groups := s.groups, mx := s.mx, tick := s.tick } : State) = Fetched s i e)) ∧
  (∀ (i : Iss) (d r n tok : Nat) (s : State) (e : Entry),
    (Instr.mxw i d r).wf = true → Issues s i (need 10 [d] [r]) e → WholeGroup s i e n → NoneExited s i.tile → s.pipe i.tile = [] →
    (∀ L ∈ e.lanes, (s.g i.tile L r).toNat = tok) →
    Goes (.mxw i d r) s (fun t =>
      (match tfind (s.group i.tile n).tokens tok with
       | some .busy => StandsAt t i e e.pc (.mxw d tok) ∧ t.gpr = s.gpr ∧ t.groups = s.groups
       | some (.done st) => StandsAt t i e (e.pc + 1) .none ∧ (∀ L ∈ e.lanes, t.g i.tile L d = BitVec.ofNat 32 st.code) ∧
           tfind (t.group i.tile n).tokens tok = none
       | none => StandsAt t i e (e.pc + 1) .none ∧ (∀ L ∈ e.lanes, t.g i.tile L d = BitVec.ofNat 32 Status.wrongState.code) ∧
           t.groups = s.groups) ∧
      GprFrame s t i e [d] ∧
      ({ t with gpr := s.gpr, rotors := s.rotors, groups := s.groups, tick := s.tick } : State) = Fetched s i e)) ∧
  (∀ (i : Iss) (mask n : Nat) (s : State) (e : Entry),
    (Instr.flush i mask).wf = true → Issues s i (need 10 [] []) e → WholeGroup s i e n →
    Goes (.flush i mask) s (fun t =>
      t.mxu i.tile = { s.mxu i.tile with issue := (s.mxu i.tile).issue ++ [MxItem.flush n mask] } ∧ Advanced s t i (need 10 [] []) e ∧
      ({ t with rotors := s.rotors, mx := s.mx } : State) = Fetched s i e))

/-- R132, R357: DMAK.GO by the channel's owner on an idle channel loads the descriptor and goes on: with one that passes its checks the transfer
is under way, and where the offset is no multiple of 128 n the channel completes with BAD_DESCRIPTOR. DMAK.WAIT on an idle channel writes its status code to d of every
member and goes on. On a busy channel both wait. Stated where the memory pipe is empty. -/
def Sys2Proof.Claim.DmakResults : Prop :=
  ∀ (i : Iss) (ch : Opd) (d a imm n c : Nat) (s : State) (e : Entry) (img : SchedImage),
    issOk i = true → opdOk ch = true → regOk d = true → regOk a = true → WholeGroup s i e n → NoneExited s i.tile → s.pipe i.tile = [] →
    (∀ L ∈ e.lanes, (s.opd i.tile L ch).toNat % 8 = c ∧ s.opd i.tile L ch = s.opd i.tile (nth 0 e.lanes 0) ch ∧
      s.g i.tile L a = s.g i.tile (nth 0 e.lanes 0) a) →
    (s.part (s.group i.tile n).part).sched = some img → (i.tile / 192, c, i.tile, n) ∈ img.dmaOwners →
    let k := i.tile / 192 * 8 + c
    let off := (s.g i.tile (nth 0 e.lanes 0) a + BitVec.ofNat 32 imm).toNat
    let started := (Fetched s i e).dmakStart i.tile k off (s.group i.tile n).part
    let loaded := (Fetched s i e).dmaLoad k ((List.range 16).map (fun j =>
      BitVec.ofNat 32 (s.load (storeBase i.tile + off + 8 * j) 8)))
    (Issues s i (need 11 [] (a :: ch.regs)) e → Goes (.dmakGo i ch a imm) s (fun t =>
      (s.dmaBusy k = true → StandsAt t i e e.pc (.dmakGo k off) ∧
        ({ t with rotors := s.rotors, tick := s.tick } : State) = Fetched s i e) ∧
      (s.dmaBusy k = false → StandsAt t i e (e.pc + 1) .none ∧ t.regs = started.regs ∧ t.dma = started.dma ∧
        t.gpr = s.gpr ∧ t.mem = s.mem ∧
        (off % 128 ≠ 0 → t.dmaBusy k = false ∧ t.rdF (oDmaStatus k) 1 8 = Status.code .badDescriptor) ∧
        (off % 128 = 0 → off + 128 ≤ tsSize → s.anyPoison (storeBase i.tile + off) 128 = false →
          (loaded.dmaCheck k (dmaDesc (loaded.dmaRegs k))).1 = .ok → t.dmaBusy k = true ∧
          ∃ x, tfind t.dma k = some x ∧ x.regs = loaded.dmaRegs k ∧ x.part = some (s.group i.tile n).part ∧ x.run = 0 ∧ x.met = [])))) ∧
    (Issues s i (need 11 [d] ch.regs) e → Goes (.dmakWait i d ch) s (fun t =>
      (s.dmaBusy k = true → StandsAt t i e e.pc (.dmakWait d k) ∧ t.gpr = s.gpr) ∧
      (s.dmaBusy k = false → StandsAt t i e (e.pc + 1) .none ∧
        ∀ L ∈ e.lanes, t.g i.tile L d = BitVec.ofNat 32 (s.rdF (oDmaStatus k) 1 8)) ∧
      GprFrame s t i e [d] ∧ OnlyGpr (Fetched s i e) t))

/-- MXI, MXW, FLUSH, DMAK.GO and DMAK.WAIT: the conjunction of the parts above. -/
def Obligations.IssueInstructions : Prop :=
  Sys2Proof.Claim.MatrixIssueResults ∧ Sys2Proof.Claim.DmakResults

/-! ### The rotor -/

/-- R112, R113: two runnable entries at one program counter become one at the earlier list position with the lanes of both:
ENTRY_MERGE where they share a home group, CARRIER_REPACK where they share none and every group is of one kernel launched
with REPACK. Nothing but the rotor of the tile changes. -/
def Sys2Proof.Claim.EntriesJoin : Prop :=
  ∀ (tile a b : Nat) (x y : Entry) (s : State) (repack : Bool),
    tile < 12288 → s.inService = true → a < b → (s.entries tile)[a]? = some x → (s.entries tile)[b]? = some y →
    s.runnable tile x = true → s.runnable tile y = true → x.pc = y.pc → x.lanes.length + y.lanes.length ≤ 32 →
    (repack = false → ∃ L ∈ x.lanes, ∃ L' ∈ y.lanes, L / 32 = L' / 32) →
    (repack = true → x.lanes ≠ [] ∧ (∀ L ∈ x.lanes, ∀ L' ∈ y.lanes, L / 32 ≠ L' / 32) ∧
      ∃ k, ∀ L, L ∈ x.lanes ∨ L ∈ y.lanes → (s.group tile (L / 32)).repack = true ∧ (s.group tile (L / 32)).kernel = k) →
    Goes (if repack then .carrierRepack tile a b else .entryMerge tile a b) s (fun t =>
      ∃ z : Entry, t.entries tile = ((s.entries tile).set a z).eraseIdx b ∧ z.pc = x.pc ∧ z.wait = .none ∧
        z.lanes.Pairwise (· < ·) ∧ (∀ L, L ∈ z.lanes ↔ L ∈ x.lanes ∨ L ∈ y.lanes) ∧
        ({ t with rotors := s.rotors } : State) = s ∧ ∀ u, u ≠ tile → t.entries u = s.entries u)

/-- R53, R56, R117: STALL_EVENT on a group one of whose entries waits for lanes, a TAKE, an MXW or a DMAK and has not been reported raises a
report of class x4 from the tile for the group's partition: it takes one of the source's two places, or with both taken is counted
(R473). The group goes on waiting. Once every such entry has been reported no report is raised, and with LIMIT = 0 nothing happens. -/
def Sys2Proof.Claim.StallEventsReport : Prop :=
  ∀ (tile n : Nat) (s : State) (e : Entry), tile < 12288 → n < 16 → s.inService = true →
    let mine (x : Entry) : Bool := x.wait.stalls && x.lanes.any (fun L => L / 32 == n)
    (s.rd oChkStall = 0 → exec (.stallEvent tile n) s = .next s) ∧
    (s.rd oChkStall ≠ 0 → (s.entries tile).filter (fun x => mine x && !x.stalled) = [e] →
      Goes (.stallEvent tile n) s (fun t =>
        Reports s t .sync .ok (s.srcTile tile) [(s.group tile n).part] ∧
        t.entries tile = (s.entries tile).map (fun x => if mine x then { x with stalled := true } else x) ∧
        ({ t with recorder := s.recorder, rotors := s.rotors } : State) = s)) ∧
    (s.rd oChkStall ≠ 0 → (s.entries tile).filter (fun x => mine x && !x.stalled) = [] →
      Goes (.stallEvent tile n) s (fun t =>
        t.recorder.places = s.recorder.places ∧ t.recorder.unsent = s.recorder.unsent ∧ t.entries tile = s.entries tile ∧
        ({ t with recorder := s.recorder, rotors := s.rotors } : State) = s))

/-- R20, R107 to R109: the rotor's visit. An entry that waits, or whose turn has not come while an earlier entry behind the pointer is
runnable, does not issue: NOP, as any other instruction, leaves the state as it is. With no pair open, the visit falls on an entry
exactly where no runnable entry stands between the pointer and it. -/
def Sys2Proof.Claim.RotorVisitsInOrder : Prop :=
  ∀ (i : Iss) (s : State) (e : Entry), issOk i = true → (s.entries i.tile)[i.entry]? = some e →
    (e.wait ≠ .none ∨ s.visits i (need 4 [] []) = false → exec (.insnNop i) s = .next s) ∧
    ((s.rotor i.tile).mate = none → ∀ n : Need,
      (s.visits i n = true ↔ ∀ (j : Nat) (x : Entry), (s.entries i.tile)[j]? = some x →
        turnOf (s.entries i.tile).length (s.rotor i.tile).ptr j < turnOf (s.entries i.tile).length (s.rotor i.tile).ptr i.entry →
        s.runnable i.tile x = false))

/-- EXIT ends lanes, entries merge and repack, a stalled group is reported, the rotor visits in order: the conjunction of the parts
above. -/
def Obligations.EntriesJoinAndEnd : Prop :=
  Sys2Proof.Claim.ExitEndsLanes ∧ Sys2Proof.Claim.EntriesJoin ∧ Sys2Proof.Claim.StallEventsReport ∧
  Sys2Proof.Claim.RotorVisitsInOrder

/-! ### Orders of service and the checker -/

/-- R35, R36: where the user of the current entry of a bank list or of a vault port's list presents nothing, an OFFER entry passes and the
next comes, the first after the last, and a WAIT entry stays; where it presents an access, the entry stays. Stated where the port
is not held and nothing waits at any tile. -/
def Sys2Proof.Claim.AccessOrderEntriesPass : Prop :=
  ∀ (r : ListRes) (s : State) (e : AolEntry),
    ((∃ t, r = .banks t) ∨ ∃ f site ch, r = .vault f site ch) → listOk r = true → s.inService = true → (∀ u, TileQuiet s u) →
    (s.aol r).current = some e → s.resHeld r = false →
    Goes (.orderListEntry r []) s (fun t =>
      let a := s.aol r
      (t.aol r).entries = a.entries ∧
      (e.wait = false → s.presents r e.user = false →
        (t.aol r).pos = (a.pos + 1) % a.entries.length ∧ (t.aol r).made = 0) ∧
      (e.wait = true ∨ s.presents r e.user = true → (t.aol r).pos = a.pos ∧ (t.aol r).made = a.made) ∧
      (∀ q, listKey q ≠ listKey r → q ≠ .hostDma → t.aol q = s.aol q) ∧ t.mem = s.mem ∧ t.gpr = s.gpr ∧ t.regs = s.regs)

/-- R39, R45, R46, R58: a slot of a mesh rota carries, of the flits whose next hop it is, the one of its source that waits longest. With
another rota ahead that flit waits there behind the others; off its last rota an access is at its home behind those that came
before it. With none waiting, or an unused slot, nothing is carried. The rota goes on to its next slot. -/
def Sys2Proof.Claim.MeshSlotsCarry : Prop :=
  ∀ (r : RotaRes) (s : State), ((∃ f site dir, r = .mesh f site dir) ∨ ∃ side line, r = .edge side line) → rotaOk r = true →
    s.corePowered = true →
    Goes (.rotaSlot r []) s (fun t => t.rota r = (s.rota r).advance ∧
      (∀ src, (s.rota r).turn = some src →
        (∀ n x, s.transit[n]? = some x → x.hops.head? = some (r, src) →
          (∀ k y, k < n → s.transit[k]? = some y → y.hops.head? ≠ some (r, src)) →
          (x.hops.tail ≠ [] → t.transit = s.transit.eraseIdx n ++ [{ x with hops := x.hops.tail }] ∧
            ({ t with transit := s.transit, rotas := s.rotas } : State) = s) ∧
          (∀ a, x.hops.tail = [] → x.cargo = .request a → t.transit = s.transit.eraseIdx n ∧ t.homeQ = s.homeQ ++ [a] ∧
            ({ t with transit := s.transit, homeQ := s.homeQ, rotas := s.rotas } : State) = s)) ∧
        ((∀ x ∈ s.transit, x.hops.head? ≠ some (r, src)) → ({ t with rotas := s.rotas } : State) = s)) ∧
      ((s.rota r).turn = none → ({ t with rotas := s.rotas } : State) = s))

/-- R320, R322: the slot of an UP link's rota, with no replay asked for and replay places free, sends the longest-waiting flit of the
slot's source with the next SEQ, and the rota goes on to its next slot; with none waiting it sends IDLE, which takes no SEQ. -/
def Sys2Proof.Claim.LinkSlotsSend : Prop :=
  ∀ (k src : Nat) (s : State), k < 64 → s.linkState k = lkUp → (s.link k).nakIn = false → (s.link k).replay.length < 128 →
    (s.rota (.link k)).turn = some src →
    Goes (.rotaSlot (.link k) []) s (fun t =>
      let l := s.link k
      let h : Sent := { flit := none, slot := (s.rota (.link k)).pos, seq := l.txSeq, ack := (l.rxSeq + 4095) % 4096, nak := l.nakDue }
      (t.rota (.link k)).pos = ((s.rota (.link k)).pos + 1) % (s.rota (.link k)).slots.length ∧
      (match l.waiting.find? (fun f => flitSource f == src) with
       | none => (t.link k).wire = l.wire ++ [h] ∧ (t.link k).waiting = l.waiting ∧ (t.link k).replay = l.replay ∧
           (t.link k).txSeq = l.txSeq % 4096
       | some f => (t.link k).wire = l.wire ++ [{ h with flit := some f }] ∧ (t.link k).waiting = l.waiting.erase f ∧
           (t.link k).replay = l.replay ++ [{ h with flit := some f }] ∧ (t.link k).txSeq = (l.txSeq + 1) % 4096) ∧
      ({ t with links := s.links, rotas := s.rotas } : State) = s ∧ ∀ j, j ≠ k → t.link j = s.link j)

/-- Access order lists, mesh rotas and link rotas serve their users in turn: the conjunction of the parts above. -/
def Obligations.OrdersServeInTurn : Prop :=
  Sys2Proof.Claim.AccessOrderEntriesPass ∧ Sys2Proof.Claim.MeshSlotsCarry ∧ Sys2Proof.Claim.LinkSlotsSend

/-- R49, R50: the checker examines the load at the head of its queue: a partition's image that passes every test takes force, its
lists whole; an image that fails a test changes no list, no rota, no channel and no schedule. -/
def Obligations.CheckerEnforcesOrRejects : Prop :=
  ∀ (p : Nat) (img : SchedImage) (tag : Word) (rest : List ChkLoad) (s : State), p < 16 → s.inService = true →
    s.checker = .part p img tag :: rest →
    Goes .scheduleCheck s (fun t => t.checker = rest ∧
      (s.checkImage p img = (0, none, none) →
        (t.part p).sched = some img ∧ ∀ e ∈ img.lists, t.aol e.1 = { entries := e.2, pos := 0, made := 0 }) ∧
      ((s.checkImage p img).1 ≠ 0 → t.lists = s.lists ∧ t.rotas = s.rotas ∧ t.chans = s.chans ∧ t.parts = s.parts))

/-! ### The matrix unit -/

/-- The matrix-issue list after its entry e has counted one operation (R36, R154): at its quantum, or where an OFFER entry's group has
nothing more, the next entry comes. -/
def Sys2Proof.Claim.OperationCounted (a b : Aol) (e : AolEntry) (more : Bool) : Prop :=
  b.entries = a.entries ∧
  (if e.quantum ≤ a.made + 1 ∨ e.wait = false ∧ more = false then b.pos = (a.pos + 1) % a.entries.length ∧ b.made = 0
   else b.pos = a.pos ∧ b.made = a.made + 1)

/-- R129, R154, R155, R160: matrix issue takes up the earliest item of the current entry's group and the entry counts one operation. A
descriptor that passes its checks, meets no fence, fills no gate and disturbs none, swaps nothing in, reads no mask and finds a place
in the queue of each of its spars becomes the last job, with the seed and epoch of that moment; one that fails its checks completes
with BAD_DESCRIPTOR and touches nothing. With no item of the group a WAIT entry waits and an OFFER entry passes. Stated for a tile of a
field that is not held (log 122), for the failing descriptor where no entry of the tile waits. -/
def Sys2Proof.Claim.MatrixTakeUp : Prop :=
  ∀ (tile k tok : Nat) (m : Mxd) (e : AolEntry) (s : State), tile < 12288 → s.inService = true →
    (s.aol (.matrix tile)).current = some e → s.fieldHeld (tile / 192) = false →
    let items := (s.mxu tile).issue
    let more := (items.eraseIdx k).any (fun x => x.slot == e.user)
    let d := mxDesc m
    let spars := arraySpars d.array ++ (if d.op = 3 then arraySpars (partnerArray d.array) else [])
    (indexOf (fun x : MxItem => x.slot == e.user) items = some k → items[k]? = some (.mxd e.user tok m) →
      d.ok = true → d.swap = false → d.fill = false → d.masken = false → s.mxFenced tile d = none →
      (∀ g, g < 4 → (s.mxu tile).gateTouches g spars = false) → (s.mxu tile).room spars = true →
      Goes (.mxdTakeUp tile []) s (fun t =>
        (t.mxu tile).issue = items.eraseIdx k ∧
        (∃ j, (t.mxu tile).jobs = (s.mxu tile).jobs ++ [j] ∧ j.array = d.array ∧ j.started = false ∧ j.loaded = false ∧
          j.torn = false ∧ j.reqs = [{ slot := e.user, token := tok, d := m,
                                       mask := if d.preload then [] else List.replicate d.m true,
                                       seed := s.seed tile, epoch := s.epoch tile, tie := false }]) ∧
        Sys2Proof.Claim.OperationCounted (s.aol (.matrix tile)) (t.aol (.matrix tile)) e more ∧
        ({ t with mx := s.mx, lists := s.lists } : State) = s)) ∧
    (indexOf (fun x : MxItem => x.slot == e.user) items = some k → items[k]? = some (.mxd e.user tok m) → d.ok = false →
      e.user < 16 → (s.group tile e.user).halted = false → TileQuiet s tile → NoneExited s tile →
      Goes (.mxdTakeUp tile []) s (fun t =>
        (t.mxu tile).issue = items.eraseIdx k ∧ (t.mxu tile).jobs = (s.mxu tile).jobs ∧
        tfind (t.group tile e.user).tokens tok = some (.done .badDescriptor) ∧
        (t.rd (oMxDone (tile / 192) (s.tileSite tile))).toNat =
          ((s.rd (oMxDone (tile / 192) (s.tileSite tile))).toNat + 1) % 2 ^ 32 ∧
        Sys2Proof.Claim.OperationCounted (s.aol (.matrix tile)) (t.aol (.matrix tile)) e more ∧
        ({ t with mx := s.mx, lists := s.lists, groups := s.groups, regs := s.regs } : State) = s)) ∧
    (indexOf (fun x : MxItem => x.slot == e.user) items = none →
      Goes (.mxdTakeUp tile []) s (fun t =>
        (e.wait = true → t = s) ∧
        (e.wait = false → (t.aol (.matrix tile)).pos = ((s.aol (.matrix tile)).pos + 1) % (s.aol (.matrix tile)).entries.length ∧
          (t.aol (.matrix tile)).made = 0 ∧ ({ t with lists := s.lists } : State) = s)))

/-- R143, R147, R148, R155, R156, R185: a job of one GEMM request, first on every spar it uses and with its first tile of B loaded, starts
in operand delivery's turn at the banks: each fed row of the array takes, in every column, its group sums of A times B in order onto
its old value with ACC = 1 and onto zero with ACC = 0, the first chunk of B as it was loaded and the rest as the store holds it. No
other accumulator, register or memory nibble changes. Stated where no read codeword holds an error and the field is not held
(log 122). -/
def Obligations.MatrixStartAccumulates : Prop :=
  ∀ (tile id : Nat) (j : MxJob) (r : MxReq) (s : State), tile < 12288 → s.inService = true →
    s.fieldHeld (tile / 192) = false → (s.mxu tile).job id = some j → j.started = false → j.torn = false →
    (s.mxu tile).ahead j = [] → j.reqs = [r] → (j.loaded = true ∨ j.noLoad = true) →
    (∀ c ∈ j.reads tile, s.poisoned c = false) →
    let d := mxDesc r.d
    d.op = 0 → d.ok = true → d.preload = false → d.swap = false → r.mask.length = d.m →
    (d.k = 0 ∨ s.hasTurn (.banks tile) userOperands = true) →
    Goes (.mxdStart tile id [] []) s (fun t =>
      let a (i k : Nat) : Elem := s.mxElem tile [] d.opA (d.placeA i k).1 (d.placeA i k).2
      let b (k n : Nat) : Elem := s.mxB tile [] d j.tile k n
      (∀ i n, i < d.m → n < d.n → r.mask[i]? = some true →
        t.accAt tile d.array (d.row + i) n = feedAcc (s.accAt tile d.array (d.row + i) n) d.acc
          ((List.range d.k).any (fun k => (a i k).2 || (b k n).2))
          (groupSums d.group d.chunk d.k (fun k => some (elemMul (a i k) (b k n))))) ∧
      (∀ i n, i < arrayRows d.array → n < arrayC d.array →
        ¬ (d.row ≤ i ∧ i < d.row + d.m ∧ n < d.n ∧ r.mask[i - d.row]? = some true) →
        t.accAt tile d.array i n = s.accAt tile d.array i n) ∧
      (∃ j', (t.mxu tile).job id = some j' ∧ j'.started = true ∧ j'.reqs = [r]) ∧
      ({ t with acc := s.acc, mx := s.mx, lists := s.lists } : State) = s)

/-- R146, R148, R157: the stationary load of a job that feeds, with no job ahead on its spars and every earlier job that needs a load loaded,
in operand delivery's turn at the banks: the tile of B's first chunk, as the store holds it now, stands in the shadow registers for the
job, and a tile that stood there without a job is lost. Nothing else changes. Stated where no codeword of the tile holds an error and
the field is not held (log 122). -/
def Sys2Proof.Claim.StationaryLoadBringsTile : Prop :=
  ∀ (tile id : Nat) (j : MxJob) (s : State), tile < 12288 → s.inService = true → s.fieldHeld (tile / 192) = false →
    (s.mxu tile).job id = some j → j.loaded = false → j.noLoad = false → j.torn = false → j.desc.preload = false →
    (s.mxu tile).ahead j = [] →
    (∀ x ∈ (s.mxu tile).jobs.takeWhile (fun x => x.id != j.id), x.loaded = true ∨ x.noLoad = true) →
    s.hasTurn (.banks tile) userOperands = true → (∀ c ∈ j.desc.readsB tile 0 j.desc.chunk, s.poisoned c = false) →
    Goes (.stationaryLoadDone tile id []) s (fun t =>
      (t.mxu tile).jobs = (s.mxu tile).jobs.map (fun x =>
        if x.id = j.id then { j with loaded := true, tile := s.firstTile tile [] j.desc } else x) ∧
      (t.mxu tile).issue = (s.mxu tile).issue ∧
      (∀ y ∈ (t.mxu tile).preload, y ∈ (s.mxu tile).preload ∧ ∀ i ∈ arraySpars (mxDesc y.2.d).array, i ∉ j.spars) ∧
      (t.aol (.banks tile)) = (s.useBanks tile).aol (.banks tile) ∧ ({ t with mx := s.mx, lists := s.lists } : State) = s)

/-- Matrix issue takes up a descriptor; a stationary load brings the first tile of B: the conjunction of the parts above. -/
def Obligations.MatrixJobsAreTakenUpAndLoaded : Prop :=
  Sys2Proof.Claim.MatrixTakeUp ∧ Sys2Proof.Claim.StationaryLoadBringsTile

/-- R130, R158, R160: a started job of one request that exports nothing leaves its queues when it completes: its token is done with the
status that the request met, and the count of completed descriptors rises by one. Memory and accumulators stay. Stated where no entry of
the tile waits, its group has a lane left and its field is not held (log 122). -/
def Sys2Proof.Claim.MatrixCompletionOfJob : Prop :=
  ∀ (tile id : Nat) (j : MxJob) (r : MxReq) (met : Status) (s : State), tile < 12288 → s.inService = true →
    s.fieldHeld (tile / 192) = false → (s.mxu tile).job id = some j → j.started = true → (j.loaded = true ∨ j.noLoad = true) →
    j.torn = false → j.reqs = [r] → j.met = [met] → r.tie = false → r.slot < 16 → (s.group tile r.slot).halted = false →
    TileQuiet s tile → NoneExited s tile →
    ((mxDesc r.d).expo = 0 ∨ (mxDesc r.d).preload = true) →
    Goes (.mxdComplete tile id [] []) s (fun t =>
      (t.mxu tile).jobs = (s.mxu tile).jobs.filter (fun x => x.id != j.id) ∧
      tfind (t.group tile r.slot).tokens r.token = some (.done met) ∧
      (∀ n, n < 16 → n ≠ r.slot → t.group tile n = s.group tile n) ∧
      (t.rd (oMxDone (tile / 192) (s.tileSite tile))).toNat =
        ((s.rd (oMxDone (tile / 192) (s.tileSite tile))).toNat + 1) % 2 ^ 32 ∧
      ({ t with mx := s.mx, groups := s.groups, regs := s.regs } : State) = s)

/-- R130, R158, R161, R192: a started job of one GEMM request that exports its full result in an unscaled format writes, in the export's turn
at the banks, the code of each element's sum for every fed row at its place in C; no other nibble changes, its token is done with the
status that it met, and the job leaves its queues. Stated where no exported element is marked, no codeword of C is poisoned, no entry
of the tile waits and its field is not held (log 122). -/
def Sys2Proof.Claim.MatrixCompletionExports : Prop :=
  ∀ (tile id : Nat) (j : MxJob) (r : MxReq) (met : Status) (s : State), tile < 12288 → s.inService = true →
    s.fieldHeld (tile / 192) = false → (s.mxu tile).job id = some j → j.started = true → (j.loaded = true ∨ j.noLoad = true) →
    j.torn = false → j.reqs = [r] → j.met = [met] → met ≠ .badDescriptor → r.tie = false → r.slot < 16 →
    (s.group tile r.slot).halted = false → TileQuiet s tile → NoneExited s tile →
    let d := mxDesc r.d
    let o := d.opC
    let w := o.format.nibs
    let at' (i : Nat) : Nat := storeBase tile + o.at i 0
    let fed (i : Nat) : Prop := i < d.m ∧ r.mask[i]? = some true
    d.ok = true → d.expo = 1 → d.op ≠ 3 → d.preload = false → o.format.scaled = false → r.mask.length = d.m →
    s.hasTurn (.banks tile) userExport = true →
    (∀ i, fed i → s.writesDropped (at' i) = false ∧ s.anyPoison (at' i) (d.n * w) = false ∧
      ∀ n, n < d.n → (s.accAt tile d.array (d.row + i) n).poison = false) →
    Goes (.mxdComplete tile id [] []) s (fun t =>
      (∀ i n x, fed i → n < d.n → x < w →
        let code := nth 0 (exportCodes r o.format d.cvt (fun e => storeBase tile + o.at i e)
          ((List.range d.n).map (fun k => (s.accAt tile d.array (d.row + i) k).sum))).1 n
        getNib t.mem (at' i + n * w + x) = BitVec.ofNat 4 (code / 16 ^ x)) ∧
      (∀ a, (∀ i, fed i → ¬ (at' i ≤ a ∧ a < at' i + d.n * w)) → getNib t.mem a = getNib s.mem a) ∧
      (t.mxu tile).jobs = (s.mxu tile).jobs.filter (fun x => x.id != j.id) ∧
      tfind (t.group tile r.slot).tokens r.token = some (.done met) ∧
      ({ t with mem := s.mem, mx := s.mx, groups := s.groups, regs := s.regs, lists := s.lists } : State) = s)

/-- R216: in BWD, once the backward kernels have exited, the tie-sum of the declared tensors is made once. For one tensor of at most 1,024
elements each gradient element becomes the B16 code of the exact sum of its uses. Registers, groups and other partitions stay. Stated
where no codeword is poisoned, nothing is fenced, the scratch span lies apart from the slots and no tied tensor lies in a held field
(log 122). -/
def Sys2Proof.Claim.TieSumRunsOnce : Prop :=
  ∀ (p : Nat) (s : State), p < 16 → s.inService = true → s.phase p = phBwd → (s.part p).step.tieDone = false →
    s.tagDone p .bwd (s.part p).step.bwdRun = true → (∀ y ∈ (s.part p).ties, s.fieldHeld (y.tile / 192) = false) →
    Goes (.tieSum p [] []) s (fun t => (t.part p).step.tieDone = true ∧ t.gpr = s.gpr ∧ t.groups = s.groups ∧
      (∀ q, q ≠ p → t.part q = s.part q) ∧ ((s.part p).ties = [] → ({ t with parts := s.parts } : State) = s) ∧
      (∀ y, (s.part p).ties = [y] → tieOk y = true → y.elems ≤ 1024 → s.poison = [] → (∀ e ∈ s.regions, s.fenced e.2 = false) →
        let d := tieDesc y 0 y.elems
        (∀ k e, k < y.uses → e < y.elems → d.opA.at k e + 4 ≤ y.scratch ∨ y.scratch + 1024 ≤ d.opA.at k e) →
        ∀ e x, e < y.elems → x < 4 →
          getNib t.mem (storeBase y.tile + y.grad + 4 * e + x) = BitVec.ofNat 4 (encElem .b16 false .rne
            (feedAcc accZero false false (groupSums 16 d.chunk y.uses (fun k =>
              some (vMul (s.mxElem y.tile [] d.opA k e).1 (scaledVal .b16 0x3F80 0))))).sum / 16 ^ x)))

/-- A matrix job completes its token and exports its result; a tie-sum runs once: the conjunction of the parts above. -/
def Obligations.MatrixCompletion : Prop :=
  Sys2Proof.Claim.MatrixCompletionOfJob ∧ Sys2Proof.Claim.MatrixCompletionExports ∧ Sys2Proof.Claim.TieSumRunsOnce

/-- R278, R359, R360, R365: a transfer whose last read-back has arrived completes: BUSY reads 0, RESULT the status it met, in the order of
R359, and the channel holds no transfer; with a destination elsewhere nothing else changes. Stated for a transfer that no ring command
waits for, with no thread waiting. -/
def Sys2Proof.Claim.DmaReadBackCompletes : Prop :=
  ∀ (ch : DmaCh) (x : Xfer) (s : State), dmaChOk ch = true → s.inService = true → tfind s.dma (dmaKey ch) = some x →
    x.readBack = true → x.away = 0 → s.readBackAway (dmaKey ch) = false → x.cmd = none → (∀ u, TileQuiet s u) →
    Goes (.dmaReadBackDone ch []) s (fun t =>
      let d := dmaDesc x.regs
      t.dmaBusy (dmaKey ch) = false ∧ t.rdF (oDmaStatus (dmaKey ch)) 1 8 = (metStatus x.met).code ∧
      tfind t.dma (dmaKey ch) = none ∧ (∀ k, k ≠ dmaKey ch → tfind t.dma k = tfind s.dma k) ∧ t.gpr = s.gpr ∧ t.rotors = s.rotors ∧
      (s.mineSide d.dstHost d.dst = false → (∀ o, o ≠ oDmaStatus (dmaKey ch) → t.rd o = s.rd o) ∧
        ({ t with dma := s.dma, regs := s.regs, groups := s.groups } : State) = s))

/-! ### Homes and the system cache -/

/-- The answer to an access of tile `tile` that was served at its home, or at its slice: with no hop between, the requester has it;
else it is on its way back behind what is already there (R45, R273, R302). -/
def Sys2Proof.Claim.AnswerLeaves (s t : State) (slice : Bool) (tile : Nat) (a : Access) (r : Reply) : Prop :=
  t.transit = if s.wayBack slice tile a = [] then s.transit else s.transit ++ [{ hops := s.wayBack slice tile a, cargo := .reply a r }]

/-- No access ahead at the home or at a slice holds this one back, and it needs no other port's turn (R58, R101). -/
abbrev Sys2Proof.Claim.NextAtHome (s : State) (n : Nat) (a : Access) : Prop :=
  s.homeQ[n]? = some a ∧ (∀ b ∈ s.homeQ.take n, s.samePlace b a = false ∧ conflicts b a = false) ∧
  (∀ b ∈ s.cacheQ, conflicts b a = false)

/-- R35, R98, R301, R302: an access of a lane that waits at its home, passes every test and goes to vault DRAM or a tile store takes effect
in its user's turn at the port: a store writes its data to memory, a load's data leave for the lane, whose register has them at once
where no hop lies between; no other nibble changes. It leaves the queue. Out of its user's turn it waits. Stated where no codeword it
touches holds an error, nothing of the lane's tile waits, and the port is free. -/
def Sys2Proof.Claim.HomeAppliesAccess : Prop :=
  ∀ (n tile L pc addr user : Nat) (p : ListRes) (d : Option Nat) (w : Width) (sx : Bool) (a : Access) (s : State), s.inService = true →
    Sys2Proof.Claim.NextAtHome s n a → a.origin = .lane tile L d w sx pc addr → tile < 16384 →
    s.homePort a = some (p, user) → s.homeTests a = .ok → s.sharedPoison a = false → s.portHeld (s.physAt a.off) = false →
    (a.kind = .load w.nibs ∧ (∃ r, d = some r ∧ r < 64 ∧ (w = .n16 → r < 63)) ∨ ∃ data, a.kind = .store data ∧ d = none) →
    (s.hasTurn p user = false → exec (.homeAccess n []) s = .next s) ∧
    (s.hasTurn p user = true → a.poison = false → a.retire = false → s.writesDropped (s.physAt a.off) = false →
      s.anyPoison (s.physAt a.off) a.kind.nibs = false → TileQuiet s tile →
      Goes (.homeAccess n []) s (fun t =>
        let o := s.physAt a.off
        let data := (List.range w.nibs).map (fun i => getNib s.mem (o + i))
        t.homeQ = s.homeQ.eraseIdx n ∧ t.regs = s.regs ∧ t.rotors = s.rotors ∧ t.cacheQ = s.cacheQ ∧
        (a.kind = .load w.nibs → t.mem = s.mem ∧
          Sys2Proof.Claim.AnswerLeaves s t false tile a { st := .ok, data := data, words := [] } ∧
          (s.wayBack false tile a ≠ [] → t.gpr = s.gpr) ∧
          (s.wayBack false tile a = [] → ∀ r, d = some r →
            (w = .n16 → t.g tile L r = BitVec.ofNat 32 (s.load o 16) ∧ t.g tile L (r + 1) = BitVec.ofNat 32 (s.load o 16 / 2 ^ 32)) ∧
            (w ≠ .n16 → t.g tile L r = if sx then BitVec.ofInt 32 (signedOf (s.load o w.nibs) (4 * w.nibs))
              else BitVec.ofNat 32 (s.load o w.nibs)) ∧
            ∀ u L' r', u < 16384 → r' < 64 → ¬ (u = tile ∧ L' = L ∧ (r' = r ∨ w = .n16 ∧ r' = r + 1)) →
              t.g u L' r' = s.g u L' r')) ∧
        (∀ data, a.kind = .store data → t.gpr = s.gpr ∧
          Sys2Proof.Claim.AnswerLeaves s t false tile a (Reply.only .ok) ∧
          (∀ i v, data[i]? = some v → getNib t.mem (o + i) = v) ∧
          ∀ x, ¬ (o ≤ x ∧ x < o + data.length) → getNib t.mem x = getNib s.mem x)))

/-- R136, R301, R312: an access of a lane that a test at its home refuses changes no memory nibble, no general register and no cache
line, and leaves the queue; its status goes back, and halts the lane's group at once where no hop lies between. -/
def Sys2Proof.Claim.HomeRefusesAccess : Prop :=
  ∀ (n tile L pc addr : Nat) (d : Option Nat) (w : Width) (sx : Bool) (a : Access) (s : State), s.inService = true →
    Sys2Proof.Claim.NextAtHome s n a → a.origin = .lane tile L d w sx pc addr → a.kind.isPost = false →
    s.homeTests a ≠ .ok → TileQuiet s tile →
    Goes (.homeAccess n []) s (fun t =>
      t.homeQ = s.homeQ.eraseIdx n ∧ t.mem = s.mem ∧ t.poison = s.poison ∧ t.gpr = s.gpr ∧ t.lines = s.lines ∧
      t.cacheQ = s.cacheQ ∧ Sys2Proof.Claim.AnswerLeaves s t false tile a (Reply.only (s.homeTests a)) ∧
      (s.wayBack false tile a = [] → (t.group tile (L / 32)).halted = true))

/-- An access at its home takes effect, or is refused and changes no data: the conjunction of the parts above. -/
def Obligations.HomesApplyOrRefuse : Prop :=
  Sys2Proof.Claim.HomeAppliesAccess ∧ Sys2Proof.Claim.HomeRefusesAccess

/-- R274, R284: a load that finds its line present, alive and valid in the bytes it reads takes its data from the line, and they leave
for the lane, whose register has them at once where no hop lies between: module memory and every line stay. -/
def Sys2Proof.Claim.CacheHitsReadTheLine : Prop :=
  ∀ (n tile L pc addr r way : Nat) (w : Width) (sx : Bool) (a : Access) (x : Line) (s : State), s.inService = true →
    s.cacheQ[n]? = some a → a.origin = .lane tile L (some r) w sx pc addr → a.kind = .load w.nibs → w ≠ .n16 → tile < 16384 → r < 64 →
    (∀ b ∈ s.cacheQ.take n, conflicts b a = false ∧ holdsBack b a = false) → s.evictHeld a.off = false → a.retire = false →
    TileQuiet s tile →
    s.findWay (halfOf a.off) (a.off / 256) = some way → s.lineAt (lineKey (halfOf a.off) (a.off / 256) way) = some x →
    x.dead = false → x.poison = 0 → x.valid (a.off % 256) w.nibs = true →
    Goes (.cacheAccess (halfOf a.off) n []) s (fun t =>
      let data := x.get (a.off % 256) w.nibs
      t.cacheQ = s.cacheQ.eraseIdx n ∧ t.lines = s.lines ∧ t.mem = s.mem ∧
      Sys2Proof.Claim.AnswerLeaves s t true tile a { st := .ok, data := data, words := [] } ∧
      (s.wayBack true tile a = [] → t.g tile L r = extendLoad w sx data) ∧ (s.wayBack true tile a ≠ [] → t.gpr = s.gpr))

/-- R37, R274, R282: in the mesh local port's turn at the vault a fill for a waiting load brings the sectors it needs from module memory: afterwards its bytes are valid, bytes that
were valid keep their values, and module memory stays. -/
def Sys2Proof.Claim.CacheFillsBringSectors : Prop :=
  ∀ (n way : Nat) (a : Access) (x : Line) (s : State), s.inService = true → s.cacheQ[n]? = some a → a.waitFill = true →
    s.portHeld a.off = false → s.evictHeld a.off = false → s.hasTurn (s.fillPort a.off).1 (s.fillPort a.off).2 = true →
    (∃ w, a.kind = .load w) → a.off % 256 + a.kind.nibs ≤ 256 →
    s.findWay (halfOf a.off) (a.off / 256) = some way → s.lineAt (lineKey (halfOf a.off) (a.off / 256) way) = some x →
    x.num = a.off / 256 →
    Goes (.cacheFill (halfOf a.off) n []) s (fun t =>
      ∃ y, t.lineAt (lineKey (halfOf a.off) (a.off / 256) way) = some y ∧ y.valid (a.off % 256) a.kind.nibs = true ∧
        t.cacheQ = s.cacheQ ∧ t.mem = s.mem ∧
        ∀ b, b < 128 → x.mask.getLsbD b = true → y.mask.getLsbD b = true ∧ y.get (2 * b) 2 = x.get (2 * b) 2)

/-- A cache hit reads its line; a fill brings the sectors it needs: the conjunction of the parts above. -/
def Obligations.CacheServesLines : Prop :=
  Sys2Proof.Claim.CacheHitsReadTheLine ∧ Sys2Proof.Claim.CacheFillsBringSectors

/-- R284: a counting window that is full ends with its counts at zero; with at least LIMIT misses THRASH is set and the event reported.
A window that is not full, or a WINDOW of 0, goes on. -/
def Sys2Proof.Claim.ThrashWindowsEnd : Prop :=
  ∀ (h : Nat) (s : State), h < 2 → s.inService = true →
    Goes (.thrashEvent h) s (fun t =>
      let win := s.rdF (oScThrashCfg h) 0 16
      if win = 0 ∨ (s.half h).winAcc < win then t = s
      else (t.half h).winAcc = 0 ∧ (t.half h).winMiss = 0 ∧ (t.half h).pins = (s.half h).pins ∧ t.lines = s.lines ∧
        (s.rdF (oScThrashCfg h) 16 16 ≤ (s.half h).winMiss → t.rdF (oScStatus h) 4 1 = 1 ∧
          Reports s t .cache .ok { kind := 3, index := h } [16]) ∧
        ((s.half h).winMiss < s.rdF (oScThrashCfg h) 16 16 → t.regs = s.regs ∧ t.recorder = s.recorder))

/-- R282, R283, R289: the fill of a pin entry, an unpin and a clean or drop complete: the entry's fill is over with its range still
pinned; an unpinned entry is empty; the half carries out no operation any more. Stated where no ring command waits. -/
def Sys2Proof.Claim.CacheOperationsComplete : Prop :=
  ∀ (h e : Nat) (s : State), h < 2 → e < 8 → s.inService = true → (∀ r, (s.ring r).live = []) →
    let x := tget pin0 (s.half h).pins e
    (x.busy = true → x.fill = true → 0 < x.ways → s.rangeHeld x.base x.len = false → Goes (.pinFillDone h e []) s (fun t =>
      tget pin0 (t.half h).pins e = { x with busy := false })) ∧
    (x.busy = true → x.fill = false → 0 < x.ways → s.linesHeld (s.linesIn h x.base x.len) = false →
      Goes (.unpinComplete h e []) s (fun t =>
      tget pin0 (t.half h).pins e = { pin0 with result := .ok } ∧ t.gpr = s.gpr)) ∧
    (∀ o, (s.half h).op = some o → (o.drop = true ∨ s.linesHeld (s.linesIn h o.base o.len) = false) →
      Goes (.cacheOpDone h []) s (fun t =>
      (t.half h).op = none ∧ t.rdF (oScStatus h) 8 8 = 0 ∧ (t.half h).pins = (s.half h).pins ∧
      (o.drop = true → t.mem = s.mem ∧ ∀ k y, t.lineAt k = some y → keyHalf k = h →
        ¬ (o.base ≤ y.num / 16 ∧ y.num / 16 < o.base + o.len))))

/-- Counting windows, pins, unpins, cleans and drops come to their end: the conjunction of the parts above. -/
def Obligations.CacheWindowsAndOperationsEnd : Prop :=
  Sys2Proof.Claim.ThrashWindowsEnd ∧ Sys2Proof.Claim.CacheOperationsComplete

/-! ### Vaults -/

/-- R246, R252, R253, R266: a refresh interval of a vault that serves stores the four readings and moves the throttle level: level k holds
afterwards where the hottest tier reaches its entry, or where it held and the tier stands above its exit. Above 115 °C the vault
goes into self-refresh and its field into hold. Stated for scrubbed codewords without errors. -/
def Sys2Proof.Claim.RefreshReadsSensorsAndThrottles : Prop :=
  ∀ (f site t0 t1 t2 t3 : Nat) (s : State), f < 64 → site < 196 → s.selfRefresh = false → (s.vault f site).hold = false →
    t0 ≤ 255 → t1 ≤ 255 → t2 ≤ 255 → t3 ≤ 255 → s.rdF (oVltThrottle f site) 0 3 ≤ 4 →
    Goes (.refreshInterval f site t0 t1 t2 t3 []) s (fun t =>
      let hot := Nat.max (Nat.max t0 t1) (Nat.max t2 t3)
      let old := s.rdF (oVltThrottle f site) 0 3
      let new := t.rdF (oVltThrottle f site) 0 3
      t.rdF (oVltTemp f site) 0 8 = t0 ∧ t.rdF (oVltTemp f site) 8 8 = t1 ∧ t.rdF (oVltTemp f site) 16 8 = t2 ∧
      t.rdF (oVltTemp f site) 24 8 = t3 ∧
      (1 ≤ new ↔ 95 ≤ hot ∨ 1 ≤ old ∧ 92 < hot) ∧ (2 ≤ new ↔ 100 ≤ hot ∨ 2 ≤ old ∧ 97 < hot) ∧
      (3 ≤ new ↔ 108 ≤ hot ∨ 3 ≤ old ∧ 105 < hot) ∧ (4 ≤ new ↔ 115 < hot ∨ 4 ≤ old ∧ 110 < hot) ∧ new ≤ 4 ∧
      (115 < hot → (t.vault f site).hold = true ∧ t.fieldHeld f = true) ∧ t.mem = s.mem ∧ ∀ c, t.poisoned c = s.poisoned c)

/-- R257, R266: a scrub of a tile-store bank pair takes its next codeword; one without errors stays as it is, no other pair moves, and
TS_PASSES counts the passes that all 16 pairs have completed. -/
def Sys2Proof.Claim.TileStoreScrubMovesOn : Prop :=
  ∀ (tile pair : Nat) (s : State), tile < 12288 → pair < 16 → s.inService = true →
    Goes (.tileStoreScrub tile pair []) s (fun t =>
      tget 0 t.tsScrub (tile * 16 + pair) = tget 0 s.tsScrub (tile * 16 + pair) + 1 ∧
      (∀ k, k ≠ tile * 16 + pair → tget 0 t.tsScrub k = tget 0 s.tsScrub k) ∧ t.mem = s.mem ∧
      (∀ c, t.poisoned c = s.poisoned c) ∧
      (let done := t.rdF (oMemScrub (tile / 192) (s.tileSite tile)) 16 16
       (∀ m, m < 16 → done ≤ tget 0 t.tsScrub (tile * 16 + m) / 12288) ∧
       ∃ m, m < 16 ∧ done = Nat.min (tget 0 t.tsScrub (tile * 16 + m) / 12288) 65535) ∧
      ∀ o, o ≠ oMemScrub (tile / 192) (s.tileSite tile) → t.rd o = s.rd o)

/-- A refresh interval reads the sensors and throttles; a tile-store scrub moves on: the conjunction of the parts above. -/
def Obligations.RefreshAndTileStoreScrub : Prop :=
  Sys2Proof.Claim.RefreshReadsSensorsAndThrottles ∧ Sys2Proof.Claim.TileStoreScrubMovesOn

/-- R258, R259, R260: a recalibration, a row remap and a lane-group spare start a short repair where their condition holds, none runs on the
channel and 65,536 service units have passed since its last one: the port is held, SHORT_ACTIVE reads 1, the spare used is counted and
the repair is reported. Where the calibration fails or no spare is left, NEEDS_LONG reads 1. No nibble of memory changes, and poison
stays. -/
def Sys2Proof.Claim.ShortRepairsRun : Prop :=
  ∀ (f site ch bank row sym : Nat) (s : State), f < 64 → site < 196 → ch < 4 → bank < 32 → row < 4096 → sym < 36 →
    s.inService = true → (s.vault f site).short.length = 4 → (s.vault f site).shortAge.length = 4 →
    nth false (s.vault f site).short ch = false → 65536 ≤ nth 0 (s.vault f site).shortAge ch →
    let v := s.vault f site
    let o := oVltRepairCh f site ch
    let begun (t : State) : Prop := nth false (t.vault f site).short ch = true ∧ nth 0 (t.vault f site).shortAge ch = 0 ∧
      t.rdF o 11 1 = 1 ∧ t.rdF o 12 1 = s.rdF o 12 1 ∧ Reports s t .repair .ok (srcSite f site) [16]
    let kept (t : State) : Prop := t.mem = s.mem ∧ (∀ c, t.poisoned c = s.poisoned c) ∧ t.slots = s.slots ∧ t.gpr = s.gpr
    (v.calTemp.length = 4 → (nth 0 v.calTemp ch + 8 ≤ s.hottest f site ∨ s.hottest f site + 8 ≤ nth 0 v.calTemp ch) →
      Goes (.recalibration f site ch true) s (fun t => begun t ∧ kept t ∧
        (t.vault f site).calTemp = v.calTemp.set ch (s.hottest f site)) ∧
      Goes (.recalibration f site ch false) s (fun t => kept t ∧ nth false (t.vault f site).short ch = true ∧
        t.rdF o 11 1 = 1 ∧ t.rdF o 12 1 = 1 ∧ (t.vault f site).calTemp = v.calTemp)) ∧
    ((ch, bank, row) ∈ v.rowsNow → (ch, bank, row) ∈ v.rowsLast →
      Goes (.rowRemap f site ch bank row []) s (fun t =>
        (ch, bank, row) ∉ (t.vault f site).rowsNow ∧ kept t ∧
        (tget 0 v.spareRows (ch * 32 + bank) < 8 →
          tget 0 (t.vault f site).spareRows (ch * 32 + bank) = tget 0 v.spareRows (ch * 32 + bank) + 1 ∧ begun t ∧
          t.rdF o 0 9 = Nat.min (s.rdF o 0 9 + 1) 511) ∧
        (8 ≤ tget 0 v.spareRows (ch * 32 + bank) → t.rdF o 12 1 = 1 ∧ (t.vault f site).spareRows = v.spareRows ∧
          (t.vault f site).short = v.short ∧ Reports s t .repair .ok (srcSite f site) [16]))) ∧
    (v.symRun.length = 4 → (nth (0, []) v.symRun ch).1 = sym → 16 ≤ (nth (0, []) v.symRun ch).2.length →
      Goes (.laneGroupSpare f site ch sym) s (fun t =>
        nth (0, []) (t.vault f site).symRun ch = (0, []) ∧ kept t ∧
        (s.rdF o 9 2 < 2 → t.rdF o 9 2 = s.rdF o 9 2 + 1 ∧ begun t) ∧
        (2 ≤ s.rdF o 9 2 → t.rdF o 12 1 = 1 ∧ (t.vault f site).short = v.short ∧ Reports s t .repair .ok (srcSite f site) [16])))

/-- R258: at the end of a short repair the channel serves again: SHORT_ACTIVE reads 0. Stated where no reduction channel waits for the
port: one that does goes on at once. -/
def Sys2Proof.Claim.ShortRepairsEnd : Prop :=
  ∀ (f site ch : Nat) (s : State), f < 64 → site < 196 → ch < 4 → s.inService = true → (s.vault f site).short.length = 4 →
    (∀ p, p < 16 → s.chansOf p = []) →
    let o := oVltRepairCh f site ch
    Goes (.shortRepairDone f site ch []) s (fun t =>
      nth false (t.vault f site).short ch = false ∧ (∀ c, c ≠ ch → nth false (t.vault f site).short c = nth false (s.vault f site).short c) ∧
      t.rdF o 11 1 = 0 ∧ t.mem = s.mem ∧ t.poison = s.poison ∧ t.slots = s.slots ∧ t.gpr = s.gpr ∧ ∀ q, q ≠ o → t.rd q = s.rd q)

/-- Short repairs run and end: the conjunction of the parts above. -/
def Obligations.ShortRepairsRunAndEnd : Prop :=
  Sys2Proof.Claim.ShortRepairsRun ∧ Sys2Proof.Claim.ShortRepairsEnd

/-- R439: a junction above 105 °C holds its field, a core supply out of range holds every field; a field leaves hold where its junctions
stand at 100 °C or less, its vaults at 110 °C or less and the supply is in range, and its vaults then serve again. The exit is stated
where no reduction channel waits for a port. -/
def Sys2Proof.Claim.ProtectiveHoldEntersAndLeaves : Prop :=
  ∀ (f junction : Nat) (s : State), f < 64 →
    (105 < junction → Goes (.protectiveHold f junction false) s (fun t => t.fieldHeld f = true ∧ t.mem = s.mem ∧ t.gpr = s.gpr ∧
      ∀ g, g < 64 → g ≠ f → t.fieldHeld g = s.fieldHeld g)) ∧
    Goes (.protectiveHold f junction true) s (fun t => ∀ g, g < 64 → t.fieldHeld g = true) ∧
    (junction ≤ 100 → s.fieldHeld f = true → (∀ site, site < 196 → s.hottest f site ≤ 110) → (∀ p, p < 16 → s.chansOf p = []) →
      Goes (.protectiveHoldExit f junction false []) s (fun t => t.fieldHeld f = false ∧
        (∀ site, site < 196 → (t.vault f site).hold = false) ∧ ∀ g, g < 64 → g ≠ f → t.fieldHeld g = s.fieldHeld g))

/-- R261, R262, R263, R264, R267: the guarded pair of VLT_SLOT_DATA. With COPY = 1 the copy of the selected slot begins and the entry keeps its
place until the copy is done, when it switches; with COPY = 0 the entry switches at once and every codeword of the slot is
poisoned. No nibble of memory changes, and a poisoned codeword of the slot stays poisoned in its new place. The copy's end is stated for
data without errors, in a state where no group, ring command or reduction channel waits. -/
def Sys2Proof.Claim.SlotMovesSwitchEntries : Prop :=
  (∀ (r : Req) (f site n : Nat) (v : Word) (s : State),
    reqOk r = true → f < 64 → site < 196 → Takes s r (oVltSlotData f site) → s.pairOf r.id = none →
    s.rdF (oVltSlotSel f site) 0 12 = n →
    let e : SlotEntry := { target := fld v 12 3, tier := fld v 10 2, frame := fld v 0 10 }
    s.slotCheck f site n e = .ok →
    Goes (.slotMoveCopy r f site v) s (fun t =>
      (t.vault f site).copy = some { slot := n, dest := e } ∧ t.slots = s.slots ∧ t.mem = s.mem ∧ t.poison = s.poison) ∧
    Goes (.slotSwitchPoison r f site v) s (fun t =>
      t.slotEntry f site n = e ∧ (∀ m, m < 4096 → m ≠ n → t.slotEntry f site m = s.slotEntry f site m) ∧ t.mem = s.mem ∧
      ∀ tile j i, s.tileAt f site = some tile → j < 128 → i < 64 → t.poisoned (granuleOff tile n j / 32 + i) = true)) ∧
  (∀ (f site : Nat) (c : SlotCopy) (s : State), f < 64 → site < 196 → c.slot < 4096 → s.inService = true →
    (s.vault f site).copy = some c → s.rotors = [] → s.groups = [] → (∀ p, p < 16 → s.chansOf p = []) →
    Goes (.slotCopyDone f site []) s (fun t =>
      (t.vault f site).copy = none ∧ t.slotEntry f site c.slot = c.dest ∧ t.mem = s.mem ∧
      (∀ k, k < 2 ^ 41 → t.poisoned k = s.poisoned k) ∧ Reports s t .repair .ok (srcSite f site) [16] ∧
      ∀ m, m < 4096 → m ≠ c.slot → t.slotEntry f site m = s.slotEntry f site m))

/-- Protective hold enters and leaves; slot moves switch their entries: the conjunction of the parts above. -/
def Obligations.FieldHoldsAndSlotMoves : Prop :=
  Sys2Proof.Claim.ProtectiveHoldEntersAndLeaves ∧ Sys2Proof.Claim.SlotMovesSwitchEntries

/-! ### Register writes -/

/-- R397, R399, R400, R401: a register write stores its RW fields at once and keeps its strobed fields pending, which UPDATE tells the blocks
of its groups to apply and a block applies all together; no other register changes. -/
def Sys2Proof.Claim.WritesStrobesAndUpdates : Prop :=
  (∀ (r : Req) (o l n : Nat) (b : Blk) (row : Row) (v : Word) (s : State) (strobed : Bool),
    reqOk r = true → o % 8 = 0 → o < twinBase → s.pairOf r.id = none → Takes s r o →
    blkOf o = some (b, l) → rowOf b.rows l = some (row, n) → row.guarded = false → tabled b l = false →
    (b = .mc ∧ l ≠ 0 ∨ b = .sc ∧ l % 0x4000 ≠ 0x68 ∨ b = .fab ∨ b = .chk ∨ ∃ f site, b = .tile f site) →
    v &&& row.mask .w1c = 0 →
    Goes (if strobed then .strobedWrite r o v else .registerWrite r o v) s (fun t =>
      t.rd o = ((s.rd o &&& ~~~ row.mask .rw) ||| (v &&& row.mask .rw)) ∧
      (row.mask .s ≠ 0 → tfind t.strobed o =
        some (((tfind s.strobed o).getD (s.rd o) &&& ~~~ row.mask .s) ||| (v &&& row.mask .s))) ∧
      (row.mask .s = 0 → t.strobed = s.strobed) ∧ (∀ q, q ≠ o → t.rd q = s.rd q ∧ tfind t.strobed q = tfind s.strobed q) ∧
      ({ t with regs := s.regs, strobed := s.strobed } : State) = s)) ∧
  (∀ (r : Req) (v : Word) (s : State), reqOk r = true → s.pairOf r.id = none → Takes s r oUpdate →
    Goes (.update r v) s (fun t =>
      (∀ base, base ∈ t.applying ↔ base ∈ s.applying ∨
        ∃ e ∈ s.strobed, v.getLsbD (s.groupOfOff e.1) = true ∧ ∃ b l, blkOf e.1 = some (b, l) ∧ b.base = base) ∧
      t.strobed = s.strobed ∧ t.rdF oUpdPending 16 16 = (s.rdF oUpdPending 16 16 + 1) % 65536 ∧
      ∀ q, q ≠ oUpdPending → t.rd q = s.rd q)) ∧
  (∀ (base : Nat) (s : State), base ∈ s.applying → (s.strobed.map (·.1)).Nodup →
    Goes (.blockUpdateApply base) s (fun t =>
      let mine (o : Nat) : Prop := ∃ b l, blkOf o = some (b, l) ∧ b.base = base
      (∀ o v, tfind s.strobed o = some v → mine o → t.rd o = v ∧ tfind t.strobed o = none) ∧
      (∀ o, ¬ mine o → t.rd o = s.rd o ∧ tfind t.strobed o = tfind s.strobed o) ∧ base ∉ t.applying))

/-- R404, R405, R406: a first write of a guarded pair is pending and changes no register; a twin write with the complement completes the
pair and stores the G fields; any other twin write discards the pair and raises a guard fault, which captures the requester and
the offset. -/
def Sys2Proof.Claim.GuardedPairs : Prop :=
  ∀ (r : Req) (o l n : Nat) (b : Blk) (row : Row) (v w : Word) (s : State),
    reqOk r = true → o % 8 = 0 → o < 0x5000000 → Takes s r o → blkOf o = some (b, l) → rowOf b.rows l = some (row, n) →
    row.guarded = true →
    (s.pairOf r.id = none → Goes (.guardedFirstWrite r o v) s (fun t =>
      t.pairOf r.id = some (o, v) ∧ ({ t with pairs := s.pairs } : State) = s ∧
      ∀ id, id ≠ r.id → t.pairOf id = s.pairOf id)) ∧
    (s.pairOf r.id = some (o, v) → (b = .pwr ∨ b = .mc ∨ b = .chk) →
      Goes (.guardTwinWrite r (o + twinBase) (~~~ v)) s (fun t =>
        t.rd o = ((s.rd o &&& ~~~ row.mask .g) ||| (v &&& row.mask .g)) ∧ t.pairOf r.id = none ∧ ∀ q, q ≠ o → t.rd q = s.rd q)) ∧
    (s.pairOf r.id = some (o, v) → w ≠ ~~~ v → Goes (.guardTwinWrite r (o + twinBase) w) s (fun t =>
      t.pairOf r.id = none ∧ t.rdF oMcGuard 31 1 = 1 ∧ t.rdF oMcGuard 16 11 = r.id % 2048 ∧
      t.rdF oMcGuard 0 16 = Nat.min (s.rdF oMcGuard 0 16 + 1) 65535 ∧ t.rd oMcGuardAddr = BitVec.ofNat 32 (o + twinBase) ∧
      (∀ q, q ≠ oMcGuard → q ≠ oMcGuardAddr → t.rd q = s.rd q) ∧
      Reports s t .guard .guardFault (srcCentral 0) [16]))

/-- R402, R403: a write to the alias of an RW bit of a register of the central control block, fabric or checker changes that bit alone;
an alias write of 0 to a W1C bit clears it and its counts, and of 1 does nothing. -/
def Sys2Proof.Claim.BitAliases : Prop :=
  ∀ (r : Req) (o l n i : Nat) (b : Blk) (row : Row) (x : Bool) (s : State),
    reqOk r = true → i < 32 → o % 8 = 0 → o < 0x5000000 → s.pairOf r.id = none → Takes s r o →
    blkOf o = some (b, l) → rowOf b.rows l = some (row, n) → row.guarded = false → row.mask .s = 0 →
    (b = .mc ∧ l ≠ 0 ∨ b = .fab ∨ b = .chk) → s.readReg r.id o &&& row.mask .rw = s.rd o &&& row.mask .rw →
    (row.accOf i = .rw → Goes (.bitAliasWrite r o i x) s (fun t =>
      (∀ j, j < 32 → (t.rd o).getLsbD j = if j = i then x else (s.rd o).getLsbD j) ∧ (∀ q, q ≠ o → t.rd q = s.rd q) ∧
      ({ t with regs := s.regs } : State) = s)) ∧
    (row.accOf i = .w1c → Goes (.bitAliasWrite r o i x) s (fun t =>
      (x = true → t = s) ∧ (x = false → (t.rd o).getLsbD i = false)))

/-- Guarded pairs complete or break; a bit alias acts on one bit: the conjunction of the parts above. -/
def Obligations.GuardedPairsAndAliases : Prop :=
  Sys2Proof.Claim.GuardedPairs ∧ Sys2Proof.Claim.BitAliases

/-- R420: an MCTP message with operation x01 returns the register's value, one with x02 writes it; each replies with status x00 where the
offset names an aligned register. -/
def Sys2Proof.Claim.MctpAccesses : Prop :=
  ∀ (byteOff : Nat) (v : Word) (s : State), offsetOk (2 * byteOff) = true → s.hostDead = false →
    Goes (.mctpRegisterAccess 1 byteOff v) s (fun t =>
      t.host.mctp = some (s.busRead mctpReq (2 * byteOff), 0) ∧ ({ t with host := s.host } : State) = s) ∧
    Goes (.mctpRegisterAccess 2 byteOff v) s (fun t =>
      t.host.mctp = some (0, 0) ∧ ∀ q, t.rd q = (s.busWrite mctpReq (2 * byteOff) v).rd q)

/-- Register writes, strobed writes, UPDATE and MCTP accesses: the conjunction of the parts above. -/
def Obligations.RegisterWrites : Prop :=
  Sys2Proof.Claim.WritesStrobesAndUpdates ∧ Sys2Proof.Claim.MctpAccesses

/-- R7, R137, R266, R289, R312, R346, R408, R485: writing 1 to a W1C bit clears it and the counts it stands for, and changes no other
register. -/
def Obligations.ClearingWritesClear : Prop :=
  ∀ (r : Req) (f site ch h k e : Nat) (s : State),
    reqOk r = true → f < 64 → site < 196 → ch < 4 → h < 2 → k < 64 → e < 4096 → s.pairOf r.id = none →
    ∀ c ∈ w1cRows r f site ch h k e, Takes s r c.2.1 →
      Goes c.1 s (fun t => (t.rd c.2.1).getLsbD c.2.2.1 = false ∧
        (∀ z ∈ c.2.2.2, t.rdF z.1 z.2.1 z.2.2 = 0) ∧
        (∀ q, q ≠ c.2.1 → (∀ z ∈ c.2.2.2, q ≠ z.1) → t.rd q = s.rd q) ∧ ({ t with regs := s.regs } : State) = s)

/-- R351, R357, R363, R364: START on an idle channel whose descriptor passes its checks begins a transfer of the mode named: BUSY reads 1,
DONE reads 0, nothing is copied yet and no nibble of memory changes. -/
def Sys2Proof.Claim.DmaStarts : Prop :=
  ∀ (r : Req) (ch : DmaCh) (mode : Nat) (cast : Bool) (s : State),
    reqOk r = true → dmaChOk ch = true → mode < 3 → (cast = true → mode = 0) → s.pairOf r.id = none →
    let k := dmaKey ch
    let o := oDmaCtrl k
    let regs := (s.dmaRegs k).set 15 (setFld (setFld (s.rd o) 10 2 mode) 12 1 (b2n cast))
    Takes s r o → flag (s.rd o) 31 = false → (s.dmaCheck k (dmaDesc regs)).1 = .ok →
    Goes (if cast then .fieldRowBroadcast r ch else if mode = 0 then .dmaCopy r ch else if mode = 1 then .dmaPack r ch else .dmaUnpack r ch)
      s (fun t => t.dmaBusy k = true ∧ t.rd (oDmaDone k) = 0 ∧
        (∃ x, tfind t.dma k = some x ∧ x.regs = regs ∧ x.run = 0 ∧ x.off = 0 ∧ x.runs = (dmaDesc regs).runs ∧ x.away = 0 ∧ x.met = [] ∧
          (dmaDesc x.regs).mode = mode ∧ (dmaDesc x.regs).rcast = cast) ∧
        (∀ j, j ≠ k → tfind t.dma j = tfind s.dma j) ∧ ({ t with regs := s.regs, dma := s.dma } : State) = s)

/-- DMA transfers start in the mode named and complete with the status they met: the conjunction of the parts above. -/
def Obligations.DmaTransfers : Prop :=
  Sys2Proof.Claim.DmaStarts ∧ Sys2Proof.Claim.DmaReadBackCompletes

/-- R289, R324, R325, R346, R437: SC_OP_CTRL starts a clean or a drop on a half that carries out none; LINK_CTRL trains, stops and retrains a
link; WAKE asks a module in STRIKE to wake. -/
def Obligations.ControlWritesAct : Prop :=
  (∀ (r : Req) (h len : Nat) (drop : Bool) (s : State), reqOk r = true → h < 2 → len < 2 ^ 17 → s.pairOf r.id = none →
    Takes s r (oScOpCtrl h) → (s.half h).op = none → 0 < len →
    ((s.rd (oScOpBase h)).toNat + len) * 4096 ≤ vaultEnd → s.cachedUnits none (s.rd (oScOpBase h)).toNat len = true →
    Goes (if drop then .cacheDrop r h len else .cacheClean r h len) s (fun t =>
      (t.half h).op = some { drop := drop, base := (s.rd (oScOpBase h)).toNat, len := len, both := false } ∧
      (t.readReg r.id (oScStatus h)).getLsbD 5 = true ∧
      (∀ g, g < 2 → g ≠ h → t.half g = s.half g) ∧ ({ t with halves := s.halves } : State) = s)) ∧
  (∀ (r : Req) (k : Nat) (s : State), reqOk r = true → k < 64 → s.pairOf r.id = none → Takes s r (oLinkCtrl k) →
    ((s.linkState k = lkOff ∨ s.linkState k = lkDown) → flag (s.rd (oLinkExpect k)) 16 = true →
      Goes (.linkEnable r k) s (fun t => t.linkState k = lkTraining ∧ t.rdF (oLinkCtrl k) 0 1 = 1 ∧
        Reports s t .link .ok (srcLink k) [16] ∧ t.mem = s.mem ∧ ∀ j, j < 64 → j ≠ k → t.linkState j = s.linkState j)) ∧
    Goes (.linkDisable r k) s (fun t => t.linkState k = lkOff ∧ t.rdF (oLinkCtrl k) 0 1 = 0 ∧ t.links = s.links ∧ t.mem = s.mem ∧
      (s.linkState k ≠ lkOff → Reports s t .link .ok (srcLink k) [16]) ∧ ∀ j, j < 64 → j ≠ k → t.linkState j = s.linkState j) ∧
    (s.linkState k = lkUp → Goes (.linkCtrlRetrain r k) s (fun t => t.linkState k = lkRetrain ∧ t.rdF (oLinkCtrl k) 0 1 = 1 ∧
      t.rdF (oLinkReplay k) 16 8 = Nat.min (s.rdF (oLinkReplay k) 16 8 + 1) 255 ∧ Reports s t .link .ok (srcLink k) [16] ∧
      t.mem = s.mem ∧ ∀ j, j < 64 → j ≠ k → t.linkState j = s.linkState j))) ∧
  (∀ (r : Req) (s : State), reqOk r = true → s.pairOf r.id = none → Takes s r oPwrCtrl → s.modState = stStrike →
    s.rdF oPwrState 12 1 = 1 → Goes (.pwrCtrlWake r) s (fun t => t.power = { s.power with wake := true } ∧ t.modState = stStrike ∧
      ({ t with power := s.power, regs := s.regs } : State) = s))

/-- R293, R297, R299, R300, R306, R312: the guarded pairs of the fabric block. A region commit that passes puts the entry in force and a
refused one only records its status; a flip selects the live copy of a valid staged entry; key map, route, remap and keeper entries take
their values, and with a remap the flits of a logical link that wait at a link which is DOWN go ahead of those at its new link. The
keeper's value is stated where no partition holds a step table and the directory is empty, so that no report and no copy goes out. -/
def Sys2Proof.Claim.FabricPairsTakeForce : Prop :=
  ∀ (r : Req) (v : Word) (s : State), reqOk r = true → s.pairOf r.id = none →
    (Takes s r oRgnData3 → Goes (.regionCommit r v) s (fun t =>
      let e := s.rdF oRgnSel 0 12
      let x := s.regionOf e v
      let fits : Prop := (x.valid = true ∨ x.torn = true) → s.regionFormOk e x = true
      let runs : Prop := s.partState x.part = 3 ∨ ((s.region e).valid = true ∨ (s.region e).torn = true) ∧ s.partState (s.region e).part = 3
      let clears : Prop := (s.region e).valid = true ∧ ∃ b, x = { s.region e with valid := false, torn := b, origin := false }
      (e = 4095 → t.rdF oRgnSel 12 8 = Status.notAuthorized.code ∧ t.regions = s.regions) ∧
      (e ≠ 4095 → ¬ fits → t.rdF oRgnSel 12 8 = Status.badDescriptor.code ∧ t.regions = s.regions) ∧
      (e ≠ 4095 → fits → runs → ¬ clears → t.rdF oRgnSel 12 8 = Status.wrongState.code ∧ t.regions = s.regions) ∧
      (e ≠ 4095 → fits → (¬ runs ∨ clears) → t.rdF oRgnSel 12 8 = 0 ∧ t.region e = x ∧ t.rd oRgnData3 = v &&& 0x1FFFFF#32) ∧
      (∀ d, d ≠ e → t.region d = s.region d) ∧ ({ t with regions := s.regions, regs := s.regs } : State) = s)) ∧
    (Takes s r oRgnFlip → Goes (.regionFlip r v) s (fun t =>
        let e := fld v 0 12
        let old := s.region e
        (e ≠ 4095 → old.valid = true → old.staged = true →
          t.region e = { old with live := flag v 12 } ∧ t.rdF oRgnSel 12 8 = 0 ∧ t.rd oRgnFlip = v &&& 0x1FFF#32) ∧
        (e = 4095 → t.rdF oRgnSel 12 8 = Status.notAuthorized.code ∧ t.regions = s.regions) ∧
        (e ≠ 4095 → ¬ (old.valid = true ∧ old.staged = true) →
          t.rdF oRgnSel 12 8 = Status.badDescriptor.code ∧ t.regions = s.regions) ∧
        (∀ d, d ≠ e → t.region d = s.region d) ∧ ({ t with regions := s.regions, regs := s.regs } : State) = s)) ∧
    (Takes s r oKmapData2 → Goes (.keyMapCommit r v) s (fun t =>
      let a := s.rd oKmapData0
      t.kmap (s.rdF oKmapSel 4 4) (s.rdF oKmapSel 0 4) =
        { base := fld a 0 20, module := fld a 20 10, anymod := flag a 30, valid := flag a 31, len := s.rdF oKmapData1 0 20,
          key := fld v 0 16 } ∧
      (∀ p i, p < 16 → i < 16 → ¬ (p = s.rdF oKmapSel 4 4 ∧ i = s.rdF oKmapSel 0 4) → t.kmap p i = s.kmap p i) ∧
      ({ t with kmaps := s.kmaps, regs := s.regs } : State) = s)) ∧
    (Takes s r oRouteData → Goes (.routeCommit r v) s (fun t =>
      t.route (s.rdF oRouteSel 0 10) = { group := fld v 0 3, valid := flag v 3 } ∧
      (∀ d, d ≠ s.rdF oRouteSel 0 10 → t.route d = s.route d) ∧ ({ t with routes := s.routes } : State) = s)) ∧
    (∀ g, g < 8 → Takes s r (oLinkRemap g) → (∀ k, k < 64 → s.linkState k ≠ lkDown) → Goes (.linkRemap r g v) s (fun t =>
      t.rdF (oLinkRemap g) 0 24 = fld v 0 24 ∧ t.links = s.links ∧ ({ t with regs := s.regs } : State) = s)) ∧
    (∀ g k m, g < 8 → k < 8 → m < 8 → Takes s r (oLinkRemap g) → s.linkState (8 * g + fld (s.rd (oLinkRemap g)) (3 * k) 3) = lkDown →
      fld v (3 * k) 3 = m → fld (s.rd (oLinkRemap g)) (3 * k) 3 ≠ m → s.linkState (8 * g + m) ≠ lkDown →
      (∀ j, j < 8 → j ≠ k → fld v (3 * j) 3 = fld (s.rd (oLinkRemap g)) (3 * j) 3) →
      Goes (.linkRemap r g v) s (fun t =>
        let a := s.link (8 * g + fld (s.rd (oLinkRemap g)) (3 * k) 3)
        let b := s.link (8 * g + m)
        let out := (a.replay.filterMap (·.flit)).filter (fun f => f.via == k) ++ a.waiting.filter (fun f => f.via == k)
        t.rdF (oLinkRemap g) 0 24 = fld v 0 24 ∧
        (t.link (8 * g + fld (s.rd (oLinkRemap g)) (3 * k) 3)).waiting = a.waiting.filter (fun f => f.via != k) ∧
        ((∀ f ∈ b.waiting, f.isSecond = false) → (t.link (8 * g + m)).waiting = out ++ b.waiting) ∧
        ({ t with regs := s.regs, links := s.links } : State) = s)) ∧
    (Takes s r oFabKeeper → (∀ p, p < 16 → (s.part p).table = none) → s.dirSlots = [] → Goes (.keeperSet r v) s (fun t =>
      t.keeperId = fld v 0 10 ∧ t.standbyId = fld v 10 10 ∧ t.hasStandby = !flag v 20 ∧
      (∀ q, q ≠ oFabKeeper → t.rd q = s.rd q) ∧ t.mem = s.mem ∧ t.links = s.links ∧ t.ops = s.ops))

/-- R310, R311: a teardown order for a job with a partition or a region on this module puts every such partition into HELD, marks every
such region TORN and no longer valid. Where the job has regions here and no partition, the teardown is counted and reported. -/
def Sys2Proof.Claim.TeardownHoldsPartitions : Prop :=
  ∀ (r : Req) (v : Word) (s : State), reqOk r = true → s.pairOf r.id = none → Takes s r oFabTeardown →
    (∀ p ∈ s.jobParts (fld v 0 16), (s.part p).table = none ∧ (s.part p).step.begun = false) →
    Goes (.teardown r v) s (fun t =>
      (∀ p ∈ s.jobParts (fld v 0 16), t.phase p = phHeld) ∧
      (∀ e ∈ s.jobRegions (fld v 0 16), (t.region e).valid = false ∧ (t.region e).torn = true) ∧
      (s.jobParts (fld v 0 16) = [] → s.jobRegions (fld v 0 16) ≠ [] →
        t.rdF oFabErr 24 7 = Nat.min (s.rdF oFabErr 24 7 + 1) 127 ∧ t.rdF oFabErr 31 1 = 1 ∧
        Reports s t .teardown .jobTorn (srcCentral 5) [16] ∧ t.mem = s.mem))

/-- The guarded pairs of the fabric block take force; a teardown holds the job's partitions: the conjunction of the parts above. -/
def Obligations.FabricPairs : Prop :=
  Sys2Proof.Claim.FabricPairsTakeForce ∧ Sys2Proof.Claim.TeardownHoldsPartitions

/-- R366, R477, R485: a release drops the oldest records of the log and moves EVR_FIRST on; a commit of the replica table takes the entry;
the host channels' rings and their order list take their values while no host channel is busy. -/
def Obligations.RecorderAndHostPairs : Prop :=
  ∀ (r : Req) (v : Word) (s : State), reqOk r = true → s.pairOf r.id = none →
    (Takes s r oEvrRelease → Goes (.evrRelease r v) s (fun t =>
      let m := Nat.min (fld v 0 13) s.recorder.log.length
      t.recorder.log = s.recorder.log.drop m ∧ t.rd oEvrFirst = s.rd oEvrFirst + BitVec.ofNat 32 m ∧
      t.recorder.counts = s.recorder.counts)) ∧
    (Takes s r oRepCommit → s.rdF oRepSel 0 12 ≠ 0 → Goes (.replicaCommit r v) s (fun t =>
      tfind t.replicas (s.rdF oRepSel 0 12) = if replicaOf s v = noReplica then none else some (replicaOf s v))) ∧
    (∀ n, n < 4 → Takes s r (oHostDmaRing n) → s.hostDmaBusy = false → Goes (.hostDmaRing r n v) s (fun t =>
      t.rd (oHostDmaRing n) = v ∧ ∀ q, q ≠ oHostDmaRing n → t.rd q = s.rd q)) ∧
    (∀ hi, Takes s r (if hi then oHostDmaListHi else oHostDmaListLo) → s.hostDmaBusy = false → Goes (.hostDmaList r hi v) s (fun t =>
      t.rd (if hi then oHostDmaListHi else oHostDmaListLo) = v ∧
      ∀ q, q ≠ (if hi then oHostDmaListHi else oHostDmaListLo) → t.rd q = s.rd q))

/-! ### The training step -/

/-- R197, R199, R207, R227: with a step begun in IDLE, no update pending, no weight write in flight and no slot of its vaults moving, FWD is
entered: weight regions of the partition are fenced, the record's VALID word in the commit slot is zero, and STEP_BEGIN is
accepted on the ring. Every other nibble of memory stays. -/
def Sys2Proof.Claim.FwdEnterFences : Prop :=
  ∀ (p : Nat) (s : State), p < 16 → s.inService = true → s.phase p = phIdle → (s.part p).step.begun = true →
    s.updatesApplied p = true → s.weightWrites p = false → s.slotMoves p = false →
    Goes (.fwdEnter p) s (fun t => t.phase p = phFwd ∧ (t.part p).step.begun = false ∧
      t.load (oCommitSlot p + 120) 8 = 0 ∧
      (∀ o, ¬ (oCommitSlot p + 120 ≤ o ∧ o < oCommitSlot p + 128) → getNib t.mem o = getNib s.mem o) ∧
      t.rd (oRingCmdCons p) = s.rd (oRingCmdCons p) + 1 ∧ t.regions = s.regions ∧
      (∀ e ∈ t.regions, e.2.part = p → e.2.weight = true → t.fenced e.2 = true) ∧ ∀ q, q < 16 → q ≠ p → t.phase q = s.phase q)

/-- R197, R198, R207, R218: BWD is entered when the last forward kernel has exited, REDUCE when the backward kernels and the tie-sums are
complete, when the fence clears, and CLIP, or UPDATE with clipping off or no norm channel, when every other channel has
delivered. With clipping, CLIP is entered: the norm channel waits there while its memory waits, and else forms its own totals. Memory,
regions and other partitions stay. -/
def Sys2Proof.Claim.PhasesFollow : Prop :=
  ∀ (p : Nat) (s : State), p < 16 → s.inService = true →
    (s.phase p = phFwd → s.tagDone p .fwd (s.part p).step.fwdRun = true → Goes (.bwdEnter p) s (fun t =>
      t.phase p = phBwd ∧ ({ t with regs := s.regs } : State) = s ∧ ∀ q, q < 16 → q ≠ p → t.phase q = s.phase q)) ∧
    (s.phase p = phBwd → s.tagDone p .bwd (s.part p).step.bwdRun = true →
      ((s.part p).step.tieDone = true ∨ (s.part p).ties = []) → Goes (.bwdClose p) s (fun t =>
      t.phase p = phReduce ∧ ({ t with regs := s.regs } : State) = s ∧
      (∀ e ∈ t.regions, e.2.part = p → t.fenced e.2 = false) ∧ ∀ q, q < 16 → q ≠ p → t.phase q = s.phase q)) ∧
    (s.phase p = phReduce → s.reduced p = true → Goes (.clipEnter p []) s (fun t =>
      (s.normChan p = none ∨ (s.part p).clip.mode = 0 → t.phase p = phUpdate ∧ ({ t with regs := s.regs } : State) = s ∧
        ∀ q, q < 16 → q ≠ p → t.phase q = s.phase q) ∧
      (∀ c, s.normChan p = some c → (s.part p).clip.mode ≠ 0 → (s.chan p c).started = 0 →
        let d := chanDesc (s.chan p c).desc
        let u := s.setPhase p phClip
        (u.normWaits [] p d = true → t.phase p = phClip ∧ ({ t with regs := s.regs } : State) = s) ∧
        (u.normWaits [] p d = false → 0 < d.len → (s.chan p c).held = [] → (s.chan p c).final = [] →
          (t.chan p c).started = 1 ∧ (t.chan p c).desc = (s.chan p c).desc ∧ t.regions = s.regions ∧ t.parts = s.parts)))) ∧
    (s.phase p = phUpdate → s.writesOpen p = false → (s.part p).table = none → Goes (.commitEnter p) s (fun t =>
      t.phase p = phCommit ∧ ({ t with regs := s.regs } : State) = s))

/-- R223, R226, R228, R231: a record present for the step in COMMIT or HELD is applied: KIND x01 makes the copy of the step the live one of
every staged region of the partition, also of one that a teardown revoked, KIND x02 changes no selection; the step counts as
committed and the partition is IDLE. Stated for a partition without a step table, whose report goes nowhere. -/
def Sys2Proof.Claim.RecordOrderCommits : Prop :=
  ∀ (p k : Nat) (s : State), p < 16 → s.inService = true → (s.phase p = phCommit ∨ s.phase p = phHeld) → s.recordOf p = some k →
    (s.part p).table = none → (s.regions.map (·.1)).Nodup → (∀ e ∈ s.regions, e.1 < 4096) →
    Goes (.recordOrder p) s (fun t => t.phase p = phIdle ∧ t.rd (oStepCommitted p) = s.rd (oStepIndex p) ∧ t.mem = s.mem ∧
      (k = 2 → t.regions = s.regions) ∧
      (k = 1 → ∀ e ∈ s.regions, e.1 ≠ 4095 → (e.2.valid = true ∨ e.2.torn = true) → e.2.staged = true → e.2.part = p → e.2.origin = false →
        t.region e.1 = { e.2 with live := (s.rd (oStepIndex p)).toNat % 2 == 1 }) ∧
      (∀ e, (s.region e).part ≠ p → t.region e = s.region e))

/-- R200, R201, R225: a discard of a step that has begun and is not committed leaves every copy and every selection as it is and returns the
partition to IDLE; the committed step stays. -/
def Sys2Proof.Claim.DiscardChangesNoCopy : Prop :=
  ∀ (p : Nat) (s : State), p < 16 → s.inService = true → s.phase p ≠ phIdle →
    ¬ (s.phase p = phCommit ∧ s.rdF (oStepPhase p) 4 1 = 1) →
    Goes (.discardOrder p) s (fun t => t.phase p = phIdle ∧ t.mem = s.mem ∧ t.poison = s.poison ∧ t.regions = s.regions ∧
      t.lines = s.lines ∧ t.rd (oStepCommitted p) = s.rd (oStepCommitted p))

/-- A step record moves the live selection alone; a discard changes no copy: the conjunction of the parts above. -/
def Obligations.RecordsCommitAndDiscardsKeep : Prop :=
  Sys2Proof.Claim.RecordOrderCommits ∧ Sys2Proof.Claim.DiscardChangesNoCopy

/-- R231, R440, R443: a peer checkpoint of a step that fits the peer store leaves a valid header of its generation; a roll-back of a held
partition to a step that stands in its peer store returns it to IDLE with that step committed; a recovery replay in HELD
applies the present record that has not been applied. Stated for a module without cached regions whose peer store no region covers, whose
header is not poisoned, and for data without errors. -/
def Obligations.CheckpointRollBackReplay : Prop :=
  (∀ (p c largest : Nat) (tb : StepTable) (peers : List (Nat × List (List Nib))) (s : State), p < 16 → s.inService = true →
    (s.part p).copying = some c → (s.part p).table = some tb → s.phase p ≠ phCommit → c < 2 ^ 32 → tb.job < 65536 →
    (∀ e ∈ s.regions, e.2.cached = false) →
    (∀ o, s.peerBase ≤ o → o < s.peerBase + (s.rd oPwrPeerLen).toNat * unit16 → s.regionAt o = none) →
    s.anyPoison (s.oPeerHeader (c / tb.interval % 2)) 128 = false →
    1 + 2 * (groupIds tb).1.length * cdiv largest ((groupIds tb).1.length - 2) ≤ (s.rd oPwrPeerLen).toNat →
    Goes (.checkpoint p largest true peers []) s (fun t => (t.part p).copying = none ∧ t.phase p = s.phase p ∧ t.regions = s.regions ∧
      t.headerStep tb.job (c / tb.interval % 2) = some c)) ∧
  (∀ (p c : Nat) (tb : StepTable) (s : State), p < 16 → s.inService = true → (s.part p).table = some tb → s.phase p = phHeld →
    (s.ckptAt tb.job c).isSome = true → c < 2 ^ 32 → (∀ e ∈ s.regions, e.2.cached = false) →
    Goes (.rollBack p c true []) s (fun t => t.phase p = phIdle ∧ t.rd (oStepCommitted p) = BitVec.ofNat 32 c)) ∧
  (∀ (p k : Nat) (s : State), p < 16 → s.inService = true → s.phase p = phHeld → s.recordOf p = some k → (s.part p).table = none →
    s.rd (oStepCommitted p) ≠ s.rd (oStepIndex p) →
    Goes (.recoveryReplay p none []) s (fun t => t.phase p = phIdle ∧ t.rd (oStepCommitted p) = s.rd (oStepIndex p) ∧ t.mem = s.mem))

/-- R331, R332: an ordinary reduction channel whose last bucket has finished starts its next bucket in REDUCE, where its trailer does not
wait at a port. -/
def Sys2Proof.Claim.BucketsStart : Prop :=
  ∀ (p c : Nat) (s : State), p < 16 → c < 32 → s.inService = true → s.phase p = phReduce →
    let x := s.chan p c
    let d := chanDesc x.desc
    x.present = true → d.norm = false → d.early = false → x.complete = false → x.started = x.finished → x.started < d.buckets →
    x.held = [] → s.trailerWaits d = false → Goes (.bucketStart p c []) s (fun t => (t.chan p c).started = x.started + 1 ∧ (t.chan p c).desc = x.desc ∧
      t.regions = s.regions ∧ t.gpr = s.gpr)

/-- The phases of a training step follow one another; buckets start in REDUCE: the conjunction of the parts above. -/
def Obligations.PhasesFollowOneAnother : Prop :=
  Sys2Proof.Claim.FwdEnterFences ∧ Sys2Proof.Claim.PhasesFollow ∧ Sys2Proof.Claim.BucketsStart

/-! ### The keeper -/

/-- R308: a module's liveness word rises by one. The keeper, or the standby for the keeper, counts a round in which the module's word has not
changed, and at the limit of FAB_LIVE_CFG, or with every link to it DOWN, declares the module lost; else it reads the word again. Stated
where the directory holds no job, so that no teardown is ordered. -/
def Sys2Proof.Claim.LivenessCounts : Prop :=
  (∀ s : State, s.inService = true → Goes .livenessIncrement s (fun t =>
    t.load oLiveness 16 = (s.load oLiveness 16 + 1) % 2 ^ 64 ∧
    (∀ o, ¬ (oLiveness ≤ o ∧ o < oLiveness + 16) → getNib t.mem o = getNib s.mem o) ∧ t.regs = s.regs)) ∧
  (∀ (m : Nat) (downs : List (Nat × Nat)) (hops : List ((Nat × Nat) × (Nat × Nat))) (s : State), m < 1024 → s.inService = true →
    m ≠ s.moduleId → (s.isKeeper = true ∨ s.isStandby = true ∧ m = s.keeperId) → s.dirSlots = [] → Goes (.livenessRound m downs hops) s (fun t =>
      let w := (tfind s.keeper.rounds m).getD { counter := none, misses := 0, moved := true }
      let n := if w.moved = true then 0 else w.misses + 1
      let gone : Prop := s.rdF oFabLiveCfg 16 4 ≤ n ∨ s.linksDown m = true
      tfind t.keeper.rounds m = some { w with misses := n, moved := false } ∧
      (m ∈ t.keeper.lost ↔ m ∈ s.keeper.lost ∨ gone) ∧
      ((gone ∧ m ∉ s.keeper.lost) ∨ (s.route m).valid = false → ({ t with keeper := s.keeper } : State) = s) ∧
      (¬ (gone ∧ m ∉ s.keeper.lost) → (s.route m).valid = true → (∀ o ∈ s.ops, o.origin ≠ .live m) → ∃ tag key,
        t.ops = s.ops ++ [{ tag := tag, origin := .live m, part := 0, module := m, off := oLiveness }] ∧
        (t.link (s.linkFor m oLiveness)).waiting = (s.link (s.linkFor m oLiveness)).waiting ++
          [{ module := s.moduleId, part := 0, runtime := true, poison := false, via := logicalLink m oLiveness,
             body := .req { addr := globalAddr 1 m oLiveness, kind := .load 16, tag := tag, key := key, tile := 0, pair := false,
                            second := false } }] ∧ t.mem = s.mem ∧ t.regs = s.regs)))

/-- R201, R226, R227, R309: when the report of every module of a job stands as STAGED for a step, and no committed step before it waits, the
keeper decides COMMIT, or SKIP where any reports so, and without a standby its own commit slot holds the record of the step at once; a
standby that has declared the keeper lost becomes the keeper. -/
def Sys2Proof.Claim.KeeperDecidesAndTakesOver : Prop :=
  (∀ (j m step q kind : Nat) (memLost : List Nat) (ckpts : List (Nat × List Nat)) (tb : StepTable) (s : State),
    j < 64 → m < 1024 → s.inService = true → s.isKeeper = true →
    s.dirAt j = some tb → s.reportAt j m = some (step, kind, q) → (kind = 1 ∨ kind = 2) →
    s.unapplied j = none → (j, m) ∉ s.keeper.reopened → s.allReported j step [1, 2] (StepTable.members tb) = true →
    let code := if (StepTable.members tb).any (fun x => match s.reportAt j x with
        | some (_, k, _) => k == 2
        | none => false) then 2 else 1
    Goes (.keeperReport j m memLost ckpts) s (fun t => t.decided j step = some code ∧ t.regs = s.regs ∧
      (s.hasStandby = false → s.anyPoison (oKeeperSlot j) 128 = false → t.presentAt (oKeeperSlot j) step = some code))) ∧
  (∀ (reachable : List Nat) (s : State), s.inService = true → s.isStandby = true → s.isKeeper = false →
    s.keeperId ∈ s.keeper.lost → Goes (.keeperTakeover reachable) s (fun t => t.keeperId = s.moduleId ∧ t.hasStandby = false))

/-- The keeper counts liveness, decides a step, and a standby takes over: the conjunction of the parts above. -/
def Obligations.KeeperCountsAndDecides : Prop :=
  Sys2Proof.Claim.LivenessCounts ∧ Sys2Proof.Claim.KeeperDecidesAndTakesOver

namespace Sys2Proof.Claim

open Sys2Proof.Machine

/-! ### Links -/

/-- A flit that link k accepts: the link is UP, the codewords that bring it hold no error, and it carries the next expected SEQ (R315,
R316, R321). -/
abbrev Fits (s : State) (k : Nat) (h : RxHdr) : Prop :=
  k < 64 ∧ s.linkState k = lkUp ∧ h.seq = (s.link k).rxSeq ∧ h.cw0 = [] ∧ h.cw1 = [] ∧ (s.link k).rxCw = []

/-- The receiver of link k after an accepted flit (R321, R322): it expects the SEQ behind it, and asks for no replay; flits that the ACK
covers leave the replay buffer. -/
def Accepted (s t : State) (k : Nat) (h : RxHdr) : Prop :=
  (t.link k).rxSeq = ((s.link k).rxSeq + 1) % 4096 ∧ (t.link k).nakOut = false ∧ (t.link k).nakDue = false ∧
  (t.link k).replay = ackFlits h.ack (s.link k).replay

/-- The links that a flit from link k crosses to the site of a field (R46), with the source in whose slots it crosses them: the edge port of
the site's row on the link's crescent, then the row to the site's column. -/
def wayIn (k f site : Nat) : List (RotaRes × Nat) :=
  let west := groupWest (k / 8)
  let row := meshRow f site
  (.edge (if west then 3 else 1) row ::
    (List.range (if west then meshCol f site else 111 - meshCol f site)).map (fun i =>
      linkAt row (if west then i else 111 - i) (if west then 1 else 3))).map (fun r => (r, portSource (if west then 3 else 1) row))

/-- A flit that passes this module from link k to link j of group g (R294): it waits for link j where both lie on one crescent, else it crosses
the mesh on the row given. -/
def PassedOn (s t : State) (k g j row : Nat) (f : Flit) : Prop :=
  (groupWest (k / 8) = groupWest g → (t.link j).waiting = (s.link j).waiting ++ [f] ∧ t.transit = s.transit) ∧
  (groupWest (k / 8) ≠ groupWest g → (t.link j).waiting = (s.link j).waiting ∧
    ∃ hops, t.transit = s.transit ++ [{ hops := hops, cargo := .depart j f }] ∧ hops.length = 113 ∧
      hops.head? = some (.edge (if groupWest (k / 8) then 3 else 1) row, portSource (if groupWest (k / 8) then 3 else 1) row)) ∧
  ({ t with links := s.links, transit := s.transit } : State) = s

/-- Nothing but links differs. -/
def OnlyLinks (s t : State) : Prop := ({ t with links := s.links } : State) = s

/-- A flit of any kind. -/
def flits (k : Nat) (h : RxHdr) (q : ReqBody) (r : RspBody) (d : ReduceBody) (m : NormBody) (x : NormResultBody) (kind : Nat) : List Instr :=
  [.fabricReq k h q, .fabricRsp k h r [], .reduce k h d [], .norm k h m [], .normResult k h x [], .reservedKindFlit k h kind]

/-! ### Rings -/

/-- A ring that can take this command's entry (R371, R376), whose reserved bits are zero (R375). -/
abbrev Ready (s : State) (c : Cmd) : Prop := c.ring < 17 ∧ c.reserved = false ∧ s.fetches c.ring = true

/-- The PCI Express function, the doorbell block and the completion ring of a ring (R367, R369). -/
def fnOf (c : Cmd) : Nat := if c.ring < 16 then c.ring + 1 else 0
def doorbellAt (s : State) (c : Cmd) : Nat := (s.rd (oRingDbHi c.ring)).toNat * 2 ^ 32 + (s.rd (oRingDbLo c.ring)).toNat
def completionsAt (s : State) (c : Cmd) : Nat := (s.rd (oRingCplHi c.ring)).toNat * 2 ^ 32 + (s.rd (oRingCplLo c.ring)).toNat

/-- The write of CMD_CONS after n entries (R369, R371). -/
def consumed (s : State) (c : Cmd) (n : Nat) : List Tlp :=
  [.wr (fnOf c) (doorbellAt s c + 4) 4 (s.rd (oRingCmdCons c.ring) + BitVec.ofNat 32 n).toNat false]

/-- What the host receives with a completion (R372): the entry, then CPL_PROD, then the vector where INT_EN is 1. -/
def completion (s : State) (c : Cmd) (op : Nat) (st : Status) (v0 v1 : Nat) : List Tlp :=
  let prod := (s.rd (oRingCplProd c.ring)).toNat
  let size := 2 ^ s.rdF (oRingSize c.ring) 8 5
  let phase := if prod / size % 2 = 0 then 2 ^ 63 else 0
  [.wr (fnOf c) (completionsAt s c + prod % size * 16) 16 (c.tag.toNat + st.code * 2 ^ 32 + op * 2 ^ 40 + phase +
      v0 % 2 ^ 32 * 2 ^ 64 + v1 % 2 ^ 32 * 2 ^ 96) false,
   .wr (fnOf c) (doorbellAt s c + 12) 4 ((prod + 1) % 2 ^ 32) false] ++
  (if s.rdF (oRingSize c.ring) 21 1 = 1 then [.msix (fnOf c) (s.rdF (oRingSize c.ring) 16 5)] else [])

/-- The ring takes one entry and completes its command: the indices move on, and the host receives both, with `mid` between them. -/
def Answers (s t : State) (c : Cmd) (op : Nat) (st : Status) (v0 v1 : Nat) (mid : List Tlp) : Prop :=
  t.rd (oRingCmdCons c.ring) = s.rd (oRingCmdCons c.ring) + 1 ∧ t.rd (oRingCplProd c.ring) = s.rd (oRingCplProd c.ring) + 1 ∧
  t.host.out = s.host.out ++ (consumed s c 1 ++ mid ++ completion s c op st v0 v1)

/-- Beside the ring's indices and what the host receives, t is u. -/
def Besides (u t : State) (c : Cmd) : Prop :=
  (∀ o, o ≠ oRingCmdCons c.ring → o ≠ oRingCplProd c.ring → t.rd o = u.rd o) ∧
  ({ t with regs := u.regs, host := u.host } : State) = u ∧ ({ t.host with out := u.host.out } : HostPort) = u.host

/-- The ring takes n entries, and the command waits behind those of its ring. -/
def Waiting (s t : State) (c : Cmd) (n op : Nat) (live : Live) : Prop :=
  t.rd (oRingCmdCons c.ring) = s.rd (oRingCmdCons c.ring) + BitVec.ofNat 32 n ∧ t.host.out = s.host.out ++ consumed s c n ∧
  t.ring c.ring = { s.ring c.ring with
    nextSeq := (s.ring c.ring).nextSeq + 1,
    live := (s.ring c.ring).live ++ [{ seq := (s.ring c.ring).nextSeq, tag := c.tag, opcode := op, op := live }] }

/-- Beside what `Waiting` says, t is u. -/
def BesidesWait (u t : State) (c : Cmd) : Prop :=
  (∀ o, o ≠ oRingCmdCons c.ring → t.rd o = u.rd o) ∧ (∀ r, r ≠ c.ring → t.ring r = u.ring r) ∧
  ({ t with regs := u.regs, host := u.host, rings := u.rings } : State) = u ∧ ({ t.host with out := u.host.out } : HostPort) = u.host

/-- The command waits on its ring, wherever it stands there. -/
def OnRing (s t : State) (c : Cmd) (op : Nat) (live : Live) : Prop :=
  ∃ x ∈ (t.ring c.ring).live, x = { seq := (s.ring c.ring).nextSeq, tag := c.tag, opcode := op, op := live }

end Sys2Proof.Claim

open Sys2Proof Sys2Proof.Machine Sys2Proof.Claim

/-! ### Links -/

/-- R46, R294, R301, R302, R316, R318, R321: an IDLE flit brings ACK and NAK alone. A request with the next expected SEQ travels to its home
along the home's row, or passes on to its departing link; the first flit of a pair waits for the second. A response travels to the
thread that waits for it, completes a store of the runtime, is discarded where its tag is retired, or passes on. A reserved kind is
counted. -/
def Sys2Proof.Claim.RequestsAndResponses : Prop :=
  ∀ (k : Nat) (h : RxHdr) (s : State), Fits s k h →
    Goes (.idleFlit k h) s (fun t => OnlyLinks s t ∧ (t.link k).rxSeq = (s.link k).rxSeq ∧ (t.link k).waiting = (s.link k).waiting ∧
      (t.link k).replay = ackFlits h.ack (s.link k).replay ∧ (t.link k).nakIn = ((s.link k).nakIn || h.nak)) ∧
    (∀ b : ReqBody, kindOk b.kind = true → bits b.addr.toNat 52 10 = s.moduleId → bits b.addr.toNat 62 2 = 1 →
      bits b.addr.toNat 44 8 = 0 → populated (b.addr.toNat % 2 ^ 44) b.kind.nibs = true → b.pair = false → b.second = false →
      let a : Access := { origin := .remote h.module b.tag, part := h.partition, key := b.key, runtime := h.runtime, fabric := true,
                          off := b.addr.toNat % 2 ^ 44, kind := b.kind, retire := false, poison := h.poison, waitFill := false }
      let way := wayIn k (s.entrySite a.off).1 (s.entrySite a.off).2
      Goes (.fabricReq k h b) s (fun t => Accepted s t k h ∧
        t.transit = s.transit ++ [{ hops := if a.pair then way.flatMap (fun x => [x, x]) else way, cargo := .request a }] ∧
        ({ t with links := s.links, transit := s.transit } : State) = s)) ∧
    (∀ b : ReqBody, kindOk b.kind = true → bits b.addr.toNat 52 10 = s.moduleId → b.pair = true →
      Goes (.fabricReq k h b) s (fun t => Accepted s t k h ∧ OnlyLinks s t ∧
        (t.link k).firsts = (s.link k).firsts ++ [(h.module, b)])) ∧
    (∀ b : ReqBody, kindOk b.kind = true → bits b.addr.toNat 52 10 ≠ s.moduleId →
      let d := bits b.addr.toNat 52 10
      let o := b.addr.toNat % 2 ^ 44
      Goes (.fabricReq k h b) s (fun t => Accepted s t k h ∧
        PassedOn s t k (s.route d).group (s.linkFor d o) (o / 256 % 112)
          { module := h.module, part := h.partition, runtime := h.runtime, poison := h.poison, via := logicalLink d o, body := .req b })) ∧
    (∀ b : RspBody, b.dest ≠ s.moduleId → Goes (.fabricRsp k h b []) s (fun t => Accepted s t k h ∧
      PassedOn s t k (s.route b.dest).group (s.linkFor b.dest b.off) (b.off / 256 % 112)
        { module := h.module, part := h.partition, runtime := h.runtime, poison := h.poison, via := logicalLink b.dest b.off,
          body := .rsp b })) ∧
    (∀ b : RspBody, b.dest = s.moduleId →
      let r : Reply := { st := b.status, data := b.data, words := b.words }
      (s.ops.find? (fun o => o.tag == b.tag && o.module == h.module) = none →
        Goes (.fabricRsp k h b []) s (fun t => Accepted s t k h ∧ OnlyLinks s t)) ∧
      (∀ o tile, s.ops.find? (fun o => o.tag == b.tag && o.module == h.module) = some o → o.origin.tile = some tile →
        Goes (.fabricRsp k h b []) s (fun t => Accepted s t k h ∧
          t.transit = s.transit ++ [{ hops := wayIn k (tile / 192) (s.tileSite tile), cargo := .answer b.tag h.module r }] ∧
          ({ t with links := s.links, transit := s.transit } : State) = s)) ∧
      (∀ o, s.ops.find? (fun o => o.tag == b.tag && o.module == h.module) = some o → o.origin = .runtime →
        Goes (.fabricRsp k h b []) s (fun t => Accepted s t k h ∧
          t.ops = s.ops.filter (fun x => !(x.tag == b.tag && x.module == h.module)) ∧
          ({ t with links := s.links, ops := s.ops } : State) = s))) ∧
    (∀ kind : Nat, Goes (.reservedKindFlit k h kind) s (fun t => Accepted s t k h ∧
      t.rdF (oLinkFecCw k) 24 8 = Nat.min (s.rdF (oLinkFecCw k) 24 8 + 1) 255 ∧ t.rdF (oLinkReplay k) 31 1 = 1 ∧
      (∀ q, q ≠ oLinkFecCw k → q ≠ oLinkReplay k → t.rd q = s.rd q) ∧
      ({ t with links := s.links, regs := s.regs } : State) = s))

/-- R332, R335, R337, R339, R341, R342: a body of a reduction ring, on a link of its channel's departure crescent. A gathered block goes into
OUT as B16 codes, sets the largest MAXEXP and passes on, but at the end of its way; it waits where its bucket has not started. A sum of
squares takes this module's own total and passes on; a total and its factor are kept, and pass on; both wait until the module has
formed its own totals. -/
def Sys2Proof.Claim.RingBodies : Prop :=
  ∀ (k : Nat) (h : RxHdr) (s : State), Fits s k h →
    let p := h.partition % 16
    (∀ (b : ReduceBody), let c := b.chan % 32
      let x := s.chan p c
      let d := chanDesc x.desc
      x.present = true → d.norm = false → groupWest (k / 8) = groupWest d.outGroup →
      (x.started ≤ b.first / d.bucket → Goes (.reduce k h b []) s (fun t => Accepted s t k h ∧
        t.chan p c = { x with held := x.held ++ [.reduce b] } ∧ ({ t with links := s.links, chans := s.chans } : State) = s)) ∧
      (∀ (w : WireBlock) (e : Nat) (r : Region), b.blocks = [w] → b.pass = .gather → w.poison = false → w.elems.length = 32 →
        b.first / d.bucket < x.started → x.complete = false → s.blocksWait d [b.first] = false →
        b.first ∉ x.done → x.done.length + 1 < d.sizeOf x.finished →
        (∀ i, i < 128 → s.regionAt (d.out + 128 * b.first + i) = some (e, r)) → r.valid = true → r.torn = false → r.write = true →
        r.shared = false → r.cached = false → r.staged = false → r.weight = false →
        Goes (.reduce k h b []) s (fun t => Accepted s t k h ∧
          (∀ j v, w.elems[j]? = some v → t.load (d.out + 128 * b.first + 4 * j) 4 =
            (if w.nonfin then 0x7FC0 else encElem .b16 false .rne (valOf false ⟨v, (b.scale : Int) - 127⟩)) % 65536) ∧
          (t.chan p c).maxExp = Nat.max x.maxExp w.maxExp ∧ (t.chan p c).done = x.done ++ [b.first] ∧ t.rdF (oRchStatus (p * 32 + c)) 0 3 = 3 ∧
          (d.shardOf b.first ≠ (d.pos + 1) % d.ring →
            let j := s.groupLink d.outGroup (b.first % 8)
            (t.link j).waiting = (s.link j).waiting ++ [{ module := s.moduleId, part := p, runtime := false, poison := false,
                                                          via := b.first % 8, body := .reduce b }]) ∧
          t.gpr = s.gpr ∧ t.regions = s.regions))) ∧
    (∀ c, s.normChan p = some c →
      let x := s.chan p c
      let d := chanDesc x.desc
      groupWest (k / 8) = groupWest d.outGroup →
      (x.started = 0 → (∀ b : NormBody, Goes (.norm k h b []) s (fun t => Accepted s t k h ∧
          t.chan p c = { x with held := x.held ++ [.norm b] } ∧ ({ t with links := s.links, chans := s.chans } : State) = s)) ∧
        (∀ b : NormResultBody, Goes (.normResult k h b []) s (fun t => Accepted s t k h ∧
          t.chan p c = { x with held := x.held ++ [.normResult b] } ∧ ({ t with links := s.links, chans := s.chans } : State) = s))) ∧
      (x.started ≠ 0 → x.complete = false → s.totalsWait x = false → s.phase p ≠ phClip →
        (∀ (first : Nat) (z : Int) (nf : Bool), first % d.ring ≠ d.pos →
          Goes (.norm k h { first := first, sums := [(z, nf)] } []) s (fun t => Accepted s t k h ∧ OnlyLinks s t ∧
            let own := tget (0, false) x.totals first
            let j := s.groupLink d.outGroup (first % 8)
            (t.link j).waiting = (s.link j).waiting ++
              [{ module := s.moduleId, part := p, runtime := false, poison := false, via := first % 8,
                 body := .norm { first := first, sums := [(z + own.1, nf || own.2)] } }])) ∧
        (∀ (first n : Nat) (r : Region) (e : BitVec 64 × Word), (∀ i, i < 24 → s.regionAt (d.out + 32 * first + i) = some (n, r)) →
          r.valid = true → r.torn = false → r.write = true → r.shared = false → r.cached = false → r.staged = false → r.weight = false →
          Goes (.normResult k h { first := first, entries := [e] } []) s (fun t => Accepted s t k h ∧
          tfind (t.chan p c).final first = some e ∧ t.load (d.out + 32 * first) 16 = e.1.toNat ∧
          t.load (d.out + 32 * first + 16) 8 = e.2.toNat ∧
          ((d.pos + 1) % d.ring ≠ first % d.ring →
            let j := s.groupLink d.outGroup (first % 8)
            (t.link j).waiting = (s.link j).waiting ++
              [{ module := s.moduleId, part := p, runtime := false, poison := false, via := first % 8,
                 body := .normResult { first := first, entries := [e] } }])))))

/-- R316, R321, R322: a flit that an uncorrectable codeword or a wrong CRC spoils, or that does not carry the next expected SEQ, is rejected:
nothing acts on it, and a replay is asked for once. An IDLE flit that arrives so is rejected too. -/
def Sys2Proof.Claim.RejectedFlits : Prop :=
  ∀ (k : Nat) (h : RxHdr) (s : State), k < 64 → s.linkState k = lkUp →
    let bad : Prop := (Link.arrival (s.link k) h).codeOk = false ∨ (Link.arrival (s.link k) h).crcOk = false
    let rejected (t : State) : Prop := (t.link k).rxSeq = (s.link k).rxSeq ∧ (t.link k).nakOut = true ∧
      ((s.link k).nakOut = false → (t.link k).nakDue = true) ∧
      ({ t with links := s.links, regs := s.regs, recorder := s.recorder } : State) = s
    (bad → Goes (.idleFlit k h) s rejected) ∧
    (bad ∨ h.seq ≠ (s.link k).rxSeq → ∀ q r d m x kind, kindOk q.kind = true → ∀ c ∈ flits k h q r d m x kind, Goes c s rejected)

/-- Flits are accepted in order, acted on, or rejected: the conjunction of the parts above. -/
def Obligations.FlitsAreAcceptedInOrder : Prop :=
  Sys2Proof.Claim.RequestsAndResponses ∧ Sys2Proof.Claim.RingBodies ∧ Sys2Proof.Claim.RejectedFlits

/-- R322, R324, R325, R326, R327: a replay resends what the far end has not accepted; a training with the declared peer brings a link UP, one
with another peer DOWN; a failed or late training is counted and reported, and a third in a row brings the link DOWN; a window that
reaches a limit, or a lost lane, takes an UP link to RETRAIN, which is counted. -/
def Obligations.LinksTrainAndRetrain : Prop :=
  ∀ (k lane order : Nat) (x : TrainResult) (s : State), k < 64 → lane < 8 →
    let l := s.link k
    let training := s.linkState k = lkTraining ∨ s.linkState k = lkRetrain
    (s.linkState k = lkUp → l.nakIn = true → Goes (.linkReplay k) s (fun t =>
      (t.link k).wire = l.wire ++ l.replay ∧ (t.link k).replay = l.replay ∧ (t.link k).nakIn = false ∧
      t.rdF (oLinkReplay k) 0 16 = Nat.min (s.rdF (oLinkReplay k) 0 16 + 1) 65535 ∧
      ({ t with links := s.links, regs := s.regs } : State) = s)) ∧
    (training → x.failed = false →
      (s.rdF (oLinkExpect k) 0 10 = x.module % 1024 ∧ s.rdF (oLinkExpect k) 10 6 = x.link % 64 →
        Goes (.linkTraining k x) s (fun t => t.linkState k = lkUp ∧ (t.link k).fails = 0 ∧ t.rdF (oLinkStatus k) 3 1 = 0 ∧
          (s.linkState k = lkTraining → (t.link k).txSeq = 0 ∧ (t.link k).rxSeq = 0 ∧ (t.link k).replay = []))) ∧
      (¬ (s.rdF (oLinkExpect k) 0 10 = x.module % 1024 ∧ s.rdF (oLinkExpect k) 10 6 = x.link % 64) →
        Goes (.linkTraining k x) s (fun t => t.linkState k = lkDown ∧ t.rdF (oLinkStatus k) 3 1 = 1 ∧
          t.rdF (oLinkPeer k) 0 10 = x.module % 1024 ∧ t.rdF (oLinkPeer k) 10 6 = x.link % 64))) ∧
    (training → ∀ c ∈ [Instr.linkTraining k { x with failed := true }, Instr.linkTrainingTimeout k order],
      Goes c s (fun t => (t.link k).fails = l.fails + 1 ∧ t.mem = s.mem ∧
        (l.fails + 1 < 3 → Reports s t .startUp .ok (srcLink k) [16]) ∧
        t.linkState k = if 3 ≤ l.fails + 1 then lkDown else s.linkState k)) ∧
    (∀ replays : Bool, s.linkState k = lkUp →
      (if replays then s.rdF (oLinkLimits k) 8 8 ≤ l.winReplay else s.rdF (oLinkLimits k) 0 8 ≤ l.winUncorr) →
      Goes (.linkRetrain k replays) s (fun t => t.linkState k = lkRetrain ∧ (t.link k).winUncorr = 0 ∧ (t.link k).winReplay = 0 ∧
        t.rdF (oLinkReplay k) 16 8 = Nat.min (s.rdF (oLinkReplay k) 16 8 + 1) 255 ∧ Reports s t .link .ok (srcLink k) [16] ∧
        t.mem = s.mem)) ∧
    (∀ replays : Bool, s.linkState k = lkUp →
      (if replays then s.rdF (oLinkLimits k) 8 8 > l.winReplay else s.rdF (oLinkLimits k) 0 8 > l.winUncorr) →
      Goes (.linkRetrain k replays) s (fun t => t = s)) ∧
    (s.linkState k = lkUp → Goes (.laneSignalLoss k lane) s (fun t =>
      t.linkState k = lkRetrain ∧ t.rdF (oLinkStatus k) (4 + lane) 1 = 0 ∧
      t.rdF (oLinkReplay k) 16 8 = Nat.min (s.rdF (oLinkReplay k) 16 8 + 1) 255 ∧ Reports s t .link .ok (srcLink k) [16] ∧ t.mem = s.mem))

/-! ### The event recorder -/

/-- R473, R474, R477: a slot of the recorder rota takes the oldest report of its buffer, counts its class and queues it with the step
count and the epoch of that moment, or counts it as lost where the queue is full; a report of a class with RECORD = 1 that
repeats nothing becomes a record with the number in EVR_NEXT, and a full log skips it. -/
def Obligations.ReportsAreQueuedAndRecorded : Prop :=
  ∀ s : State,
    (s.power.off = false →
      (tget [] s.recorder.buffers s.recorder.rotaPos = [] → Goes .recorderTake s (fun t =>
        t.recorder = { s.recorder with rotaPos := (s.recorder.rotaPos + 1) % 72 } ∧ ({ t with recorder := s.recorder } : State) = s)) ∧
      (∀ p rest, tget [] s.recorder.buffers s.recorder.rotaPos = p :: rest → p.unsent = [] → Goes .recorderTake s (fun t =>
        t.recorder.rotaPos = (s.recorder.rotaPos + 1) % 72 ∧ tget [] t.recorder.buffers s.recorder.rotaPos = rest ∧
        tget 0 t.recorder.counts p.cls.code = Nat.min (tget 0 s.recorder.counts p.cls.code + 1) (2 ^ 32 - 1) ∧
        (s.recorder.queue.length < 64 →
          t.recorder.queue = s.recorder.queue ++ [{ rep := p, steps := s.steps, epoch := s.rd oEvrEpoch }] ∧ t.regs = s.regs) ∧
        (64 ≤ s.recorder.queue.length → t.recorder.queue = s.recorder.queue ∧
          t.rdF oEvrLost 0 16 = Nat.min (s.rdF oEvrLost 0 16 + 1) 65535) ∧ t.recorder.log = s.recorder.log))) ∧
    (∀ q rest, s.recorder.queue = q :: rest → s.historyDue = false → (s.recorder.classCfg q.rep.cls.code).testBit 0 = true →
      (∀ x, s.recorder.log.getLast? = some x →
        ¬ (x.cls = q.rep.cls.code ∧ x.status = q.rep.status.code ∧ x.src = q.rep.src.kind * 2 ^ 14 + q.rep.src.index)) →
      Goes .recordWrite s (fun t => t.recorder.queue = rest ∧
        (s.recorder.log.length < 4096 → t.rd oEvrNext = s.rd oEvrNext + 1 ∧ ∃ x, t.recorder.log = s.recorder.log ++ [x] ∧
          x.seq = (s.rd oEvrNext).toNat ∧ x.cls = q.rep.cls.code ∧ x.status = q.rep.status.code ∧
          x.src = q.rep.src.kind * 2 ^ 14 + q.rep.src.index ∧ x.steps = q.steps ∧ x.epoch = q.epoch ∧ x.rep = 0) ∧
        (4096 ≤ s.recorder.log.length → t.recorder.log = s.recorder.log ∧
          (t.rd oEvrSkipped).toNat = Nat.min ((s.rd oEvrSkipped).toNat + 1) (2 ^ 32 - 1))))

/-- R476: a report whose class, status and source equal those of the newest record still in the log adds no record: it raises that
record's REPEAT, up to xFFFF, keeps its steps and snapshot, and sends no ring event, at a full log too. -/
def Obligations.RepeatsRaiseRepeatAlone : Prop :=
  ∀ (q : Queued) (rest : List Queued) (x : Record) (s : State),
    s.recorder.queue = q :: rest → s.historyDue = false → (s.recorder.classCfg q.rep.cls.code).testBit 0 = true →
    s.recorder.log.getLast? = some x → x.cls = q.rep.cls.code → x.status = q.rep.status.code →
    x.src = q.rep.src.kind * 2 ^ 14 + q.rep.src.index →
    Goes .recordWrite s (fun t =>
      t = ({ s with recorder := { s.recorder with
        queue := rest, log := s.recorder.log.dropLast ++ [{ x with rep := Nat.min (x.rep + 1) 65535 }] } } : State))

/-! ### Rings -/

/-- R359, R370, R374: a ring that is enabled reads its doorbell block and enters RUNNING where the four fields are zero, else STOPPED; a
disabled ring loses its indices and keeps the commands that wait; a doorbell read takes the host's indices, and one that fails or
names more entries than the ring has stops the ring. A host read that is answered, or times out, leaves the outstanding reads. -/
def Obligations.RingsStartStopAndReadTheHost : Prop :=
  (∀ (r : Req) (n : Nat) (db : List Word) (s : State), reqOk r = true → n < 17 → s.pairOf r.id = none → Takes s r (oRingCtrl n) →
    s.ringState n = 0 → s.rdF (oRingCtrl n) 0 1 = 0 →
    Goes (.ringEnable r n .data db) s (fun t => t.rdF (oRingCtrl n) 0 1 = 1 ∧
      ((∀ w ∈ db, w = 0) → t.ringState n = 1 ∧ t.recorder = s.recorder) ∧
      (¬ (∀ w ∈ db, w = 0) → t.ringState n = 2 ∧ t.rdF (oRingStatus n) 2 8 = Status.code .badDescriptor ∧
        Reports s t .ring .badDescriptor { kind := 7, index := n } [16]) ∧ t.rings = s.rings)) ∧
  (∀ (r : Req) (n : Nat) (s : State), reqOk r = true → n < 17 → s.pairOf r.id = none → Takes s r (oRingCtrl n) →
    s.rdF (oRingCtrl n) 0 1 = 1 →
    Goes (.ringDisable r n) s (fun t => t.ringState n = 0 ∧ t.rd (oRingCmdCons n) = 0 ∧ t.rd (oRingCplProd n) = 0 ∧
      (t.ring n).cmdProd = 0 ∧ (t.ring n).cplCons = 0 ∧ (t.ring n).live = (s.ring n).live ∧ ∀ m, m ≠ n → t.ring m = s.ring m)) ∧
  (∀ (n : Nat) (reply : HostReply) (prod cons : Word) (s : State), n < 17 → s.ringState n = 1 →
    Goes (.doorbellNotify n reply prod cons) s (fun t =>
      let good := reply = .data ∧ (prod - s.rd (oRingCmdCons n)).toNat ≤ 2 ^ s.rdF (oRingSize n) 0 5
      (good → t.ring n = { s.ring n with cmdProd := prod.toNat, cplCons := cons.toNat } ∧ ({ t with rings := s.rings } : State) = s) ∧
      (¬ good → t.ringState n = 2 ∧ t.rings = s.rings ∧
        t.rdF (oRingStatus n) 2 8 = Status.code (if reply = .data then .badDescriptor else .poisoned)))) ∧
  (∀ (n tag k run off len e : Nat) (x : Xfer) (r : Region) (data : List Nib) (s : State), s.inService = true →
    s.host.reads[n]? = some (tag, k, run, off, len) → tfind s.dma k = some x → x.part = none → x.stop = false → x.readBack = false →
    let d := dmaDesc x.regs
    let o := bits (d.dstAt run + off) 0 44
    d.mode = 0 → d.swap = 0 → d.rcast = false → s.mineSide d.dstHost d.dst = true → 0 < d.sw → off % d.sw = 0 → len % d.sw = 0 →
    0 < d.dw → len % d.dw = 0 → (∀ i, i < len → s.regionAt (o + i) = some (e, r)) → r.valid = true → r.torn = false →
    r.write = true → r.shared = false → r.cached = false → r.staged = false → r.weight = false →
    let written (t : State) : Prop := t.host.reads = s.host.reads.eraseIdx n ∧
      t.rd (oDmaDone k) = BitVec.ofNat 32 (Nat.min ((x.nibs + len) / 16) (2 ^ 32 - 1)) ∧
      ∀ a, ¬ (o ≤ a ∧ a < o + len) → getNib t.mem a = getNib s.mem a
    (data.length = len → Goes (.hostReadCompletion n .data data []) s (fun t => written t ∧
      ∀ i v, data[i]? = some v → getNib t.mem (o + i) = v)) ∧
    Goes (.pcieCompletionTimeout n) s (fun t => written t ∧ ∀ i, i < len → t.poisoned ((o + i) / 32) = true))

namespace Sys2Proof.Claim

open Sys2Proof.Machine

/-- Commands that read state: the command, its opcode, where its state allows it, and the two values it completes with (R378, R379, R438). -/
def queryRows (s : State) (c : Cmd) (p : Nat) : List (Instr × Nat × Prop × Nat × Nat) :=
  let q := if c.ring = 16 then p else c.ring
  [ (.nop c, 0x01, s.anyState c = true, 0, 0),
    (.stepQuery c p, 0x44, p < 16 ∧ (if c.ring = 16 then s.inService = true ∧ s.partState p ≠ 0 else s.created c.ring = true),
      s.phase q, (s.rd (oStepCommitted q)).toNat),
    (.moduleQuery c, 0x89, c.ring = 16, s.modState, ((List.range 16).map (fun n => if s.partState n = 0 then 0 else 2 ^ n)).sum),
    (.powerQuery c, 0x8A, c.ring = 16, s.modState, 0) ]

/-- Commands of the owner that write one piece of state at once (R379, R386, R387, R438, R482): the command, its opcode, the state and
operands it is accepted with, the state it leaves beside its ring, and its values. -/
def ownerRows (s : State) (c : Cmd) (p e base len key replica module cap lo hi : Nat) (anymod : Bool) (tag : Word) :
    List (Instr × Nat × Prop × State × Nat × Nat) :=
  let fresh : Region := { region0 with base := base, len := len, valid := true, read := true, write := true, replica := replica,
                                       key := key, origin := true }
  let x := s.region e
  let grant : KeyEntry := { base := base, module := module, anymod := anymod, valid := true, len := len, key := key }
  [ (.sharedCreate c base len key replica, 0x83,
      base < 2 ^ 20 ∧ len < 2 ^ 20 ∧ key < 65536 ∧ replica < 4096 ∧ s.regionFormOk 4095 fresh = true ∧ meetsKeeper base len = false ∧
        (∀ f ∈ unitFields base len, s.partOfField f = none) ∧ s.freeEntry = some e, s.putRegion e fresh, e, 0),
    (.sharedSeal c e, 0x84, e < 4096 ∧ x.valid = true ∧ x.origin = true ∧ x.shared = false,
      s.putRegion e { x with shared := true, write := false, atomic := false }, 0, 0),
    (.keyGrant c p e module anymod base len key, 0x85,
      p < 16 ∧ e < 15 ∧ module < 1024 ∧ base < 2 ^ 20 ∧ len < 2 ^ 20 ∧ key < 65536 ∧ s.partState p = 2 ∧ (s.kmap p e).valid = false,
      s.putKmap p e grant, 0, 0),
    (.keyRevoke c p e, 0x86, p < 16 ∧ e < 15 ∧ s.partState p = 2 ∧ (s.kmap p e).valid = true, s.putKmap p e kmap0, 0, 0),
    (.epochSet c tag, 0x88, True, s.wr oEvrEpoch tag, 0, 0),
    (.powerLimits c cap lo hi, 0x8A, 4000 ≤ cap ∧ cap ≤ 24000 ∧ lo ≤ hi ∧ hi ≤ 4,
      ((s.wrF oPwrCap 0 16 cap).wrF oPwrCap 16 3 lo).wrF oPwrCap 19 3 hi, s.modState, 0) ]

/-- Commands that wait after one change (R43, R50, R283, R289, R378, R379, R381, R386): the command, its opcode, where it is accepted, what it
waits for, and the state it leaves beside its ring. -/
def waitRows (s : State) (c : Cmd) (p e line len kind job key : Nat) (quads : BitVec 16) (img : SchedImage) (frame : FrameImage) :
    List (Instr × Nat × Prop × Live × State) :=
  let h := halfOf (rangeLo line)
  let pin := tget pin0 (s.half (e / 8)).pins (e % 8)
  let scrub (k : ScrubKind) (q : BitVec 16) (b n : Nat) : Scrub :=
    { kind := k, quads := q, base := b, len := n, cmd := (c.ring, (s.ring c.ring).nextSeq) }
  let made := (s.putPart p { partFree with scrub := true, quads := quads, key := key }).wrF (oPartJob p) 0 16 job
  let freed := (s.putRegion e region0).clearPoisonBit e
  [ (.fence c, 0x02, s.anyState c = true ∧ (s.ring c.ring).live ≠ [] ∧
      (∀ x ∈ (s.ring c.ring).live, x.op ≠ .fence ∧ x.seq < (s.ring c.ring).nextSeq), .fence, s),
    (.schedLoad c .data img, 0x11, c.ring < 16 ∧ s.readyPart c.ring = true, .sched,
      ({ s with checker := s.checker ++ [.part c.ring img c.tag] } : State).wrF oChkStatus 0 1 1),
    (.frameLoad c .data frame, 0x82, c.ring = 16 ∧ s.inService = true ∧ (∀ q ∈ s.frameChanges frame, s.partState q ≠ 3), .frame,
      ({ s with checker := s.checker ++ [.frame frame c.tag] } : State).wrF oChkStatus 0 1 1),
    (.cacheOp c line len kind, 0x31,
      c.ring < 16 ∧ s.openPart c.ring = true ∧ line < 2 ^ 32 ∧ 1 ≤ len ∧ len < 2 ^ 17 ∧ (kind = 1 ∨ kind = 2) ∧ (s.half h).op = none ∧
        rangeHalves line len = [h] ∧ rangeHi line len ≤ vaultEnd ∧ s.cachedUnits (some c.ring) line len = true, .cacheOp h,
      s.putHalf h { s.half h with op := some { drop := kind == 2, base := line, len := len, both := false } }),
    (.unpin c e, 0x33, c.ring < 16 ∧ e < 16 ∧ s.readyPart c.ring = true ∧ 0 < pin.ways ∧ pin.part = c.ring ∧ pin.busy = false,
      .unpin (e / 8) (e % 8), s.putPin (e / 8) (e % 8) { pin with busy := true, fill := false, result := .ok }),
    (.partCreate c p quads job key, 0x80,
      c.ring = 16 ∧ s.inService = true ∧ p < 16 ∧ job < 65536 ∧ key < 65536 ∧ s.partState p = 0 ∧ s.quadsShared quads = false ∧
        (∀ q, q < 16 → quads.getLsbD q = true → s.partOfQuad q = none) ∧ s.mayCreate = true, .scrub,
      { made with scrubs := made.scrubs ++ [scrub (.create p) quads 0 0] }),
    (.sharedDestroy c e, 0x87,
      c.ring = 16 ∧ s.inService = true ∧ e < 4096 ∧ (s.region e).valid = true ∧ (s.region e).origin = true ∧
        s.grantees (s.region e) = [] ∧ s.restoreRuns e = false, .scrub,
      { freed with scrubs := freed.scrubs ++ [scrub (.shared e) 0 (s.region e).base (s.region e).len] }) ]

end Sys2Proof.Claim

open Sys2Proof Sys2Proof.Machine Sys2Proof.Claim

/-- R372, R376, R378, R379, R438: NOP and the queries take their entry, complete with OK and the values that the state holds, and change
nothing else. A command that the state does not allow completes with WRONG_STATE. -/
def Sys2Proof.Claim.QueriesAnswerAndChangeNothing : Prop :=
  ∀ (c : Cmd) (p : Nat) (s : State), Ready s c →
    (∀ x ∈ queryRows s c p, x.2.2.1 →
      Goes x.1 s (fun t => Answers s t c x.2.1 .ok x.2.2.2.1 x.2.2.2.2 [] ∧ Besides s t c)) ∧
    (s.anyState c = false → Goes (.nop c) s (fun t => Answers s t c 0x01 .wrongState 0 0 [] ∧ Besides s t c))

/-- R372, R379, R386, R387, R438, R482: the owner's commands that write one piece of state at once: shared regions, grants, the epoch tag and the
power limits. -/
def Sys2Proof.Claim.OwnerCommandsTakeForce : Prop :=
  ∀ (c : Cmd) (p e base len key replica module cap lo hi : Nat) (anymod : Bool) (tag : Word) (s : State),
    Ready s c → c.ring = 16 → s.inService = true →
    ∀ x ∈ ownerRows s c p e base len key replica module cap lo hi anymod tag, x.2.2.1 →
      Goes x.1 s (fun t => Answers s t c x.2.1 .ok x.2.2.2.2.1 x.2.2.2.2.2 [] ∧ Besides x.2.2.2.1 t c)

/-- R372, R477, R483: EVENT_READ writes the oldest records to host memory, answers their first number and their count, and releases them
where it is told to. -/
def Sys2Proof.Claim.EventReadDelivers : Prop :=
  ∀ (c : Cmd) (buf : Long) (len n : Nat) (release : Bool) (s : State), Ready s c → c.ring = 16 → 1 ≤ n → n ≤ 4096 → 64 * n ≤ len →
    Goes (.eventRead c buf len n release) s (fun t =>
      let l := s.recorder.log.take n
      Answers s t c 0x8B .ok (s.rd oEvrFirst).toNat l.length
        (((List.range l.length).zip l).map (fun e => Tlp.wr 0 (buf.toNat + 64 * e.1) 64 (recordBits e.2) false)) ∧
      (release = false → Besides s t c) ∧
      (release = true → t.recorder = { s.recorder with log := s.recorder.log.drop l.length } ∧
        t.rd oEvrFirst = s.rd oEvrFirst + BitVec.ofNat 32 l.length ∧ t.mem = s.mem))

/-- NOP, queries, EVENT_READ and the owner's one-write commands complete at once: the conjunction of the parts above. -/
def Obligations.QueriesAndOwnerCommands : Prop :=
  Sys2Proof.Claim.QueriesAnswerAndChangeNothing ∧ Sys2Proof.Claim.OwnerCommandsTakeForce ∧ Sys2Proof.Claim.EventReadDelivers

/-- R289, R376, R378, R379: commands that complete later take their entries, change what they name and wait on their ring in order of
acceptance; a FENCE behind nothing completes at once, and a clean or drop of a range with lines in both halves starts in both. -/
def Obligations.WaitingCommandsStandInOrder : Prop :=
  ∀ (c : Cmd) (p e line len kind job key : Nat) (quads : BitVec 16) (img : SchedImage) (frame : FrameImage) (s : State), Ready s c →
    (∀ x ∈ waitRows s c p e line len kind job key quads img frame, x.2.2.1 →
      Goes x.1 s (fun t => Waiting s t c 1 x.2.1 x.2.2.2.1 ∧ BesidesWait x.2.2.2.2 t c)) ∧
    (s.anyState c = true → (s.ring c.ring).live = [] → Goes (.fence c) s (fun t =>
      Answers s t c 0x02 .ok 0 0 [] ∧ t.ring c.ring = { s.ring c.ring with nextSeq := (s.ring c.ring).nextSeq + 1 } ∧
      t.mem = s.mem ∧ t.gpr = s.gpr)) ∧
    (c.ring < 16 → s.openPart c.ring = true → line < 2 ^ 32 → 1 ≤ len → len < 2 ^ 17 → (kind = 1 ∨ kind = 2) →
      (∀ h, h < 2 → (s.half h).op = none) → rangeHalves line len = [0, 1] → rangeHi line len ≤ vaultEnd →
      s.cachedUnits (some c.ring) line len = true → Goes (.cacheOp c line len kind) s (fun t =>
        Waiting s t c 1 0x31 (.cacheOp 2) ∧
        (∀ h, h < 2 → t.half h = { s.half h with op := some { drop := kind == 2, base := line, len := len, both := true } }) ∧
        t.mem = s.mem ∧ t.lines = s.lines))

/-- R92, R103, R202, R215, R220, R378: program and region commands of a partition in READY and step set-up commands in IDLE take effect at once:
instruction memory of the named fields holds the image, but for an image with a rejected instruction, a region entry, the clip settings, a
tied tensor or the step table is taken, and JOB_UNLOAD clears them. The table of INDEX 0 claims its job slot and stands in the keeper's
directory; where the keeper is another module, STEP_TABLE waits for the claim there. -/
def Obligations.JobCommandsTakeForce : Prop :=
  ∀ (c : Cmd) (s : State), Ready s c → c.ring < 16 →
    (∀ (first : Nat) (fields : Long) (l : List Long) (tied : Bool) (lim : StepLimits),
      first + l.length ≤ 8192 → first < 8192 → s.fieldsOwn c.ring fields = true → s.readyPart c.ring = true →
      (tied = true → s.takesTies = true) → (∀ w ∈ l, w.toNat / 2 ^ 60 < 13) →
      Goes (.progLoad c first fields .data l false tied lim) s (fun t => Answers s t c 0x10 .ok 0 0 [] ∧
        (∀ f x i v, f < 64 → fields.getLsbD f = true → x < 192 → l[i]? = some v →
          tget 0#64 t.imem ((192 * f + x) * 8192 + first + i) = v) ∧
        (∀ n k, k < 8192 → ¬ (fields.getLsbD (n / 192) = true ∧ n < 12288 ∧ first ≤ k ∧ k < first + l.length) →
          tget 0#64 t.imem (n * 8192 + k) = tget 0#64 s.imem (n * 8192 + k)) ∧
        (t.part c.ring).sched = none ∧ (t.part c.ring).limits = lim ∧ t.mem = s.mem ∧ t.gpr = s.gpr)) ∧
    (∀ (first : Nat) (fields : Long) (l : List Long) (bad tied : Bool) (lim : StepLimits),
      first + l.length ≤ 8192 → first < 8192 → s.fieldsOwn c.ring fields = true → s.readyPart c.ring = true →
      (bad = true ∨ ∃ w ∈ l, 13 ≤ w.toNat / 2 ^ 60) →
      Goes (.progLoad c first fields .data l bad tied lim) s (fun t => Answers s t c 0x10 .badDescriptor 0 0 [] ∧ Besides s t c)) ∧
    (∀ (d0 d1 d3 : Word) (e : Nat),
      let x : Region := { base := fld d0 0 20, len := fld d1 0 20, part := c.ring, valid := flag d0 24, read := flag d0 25,
                          write := flag d0 26, atomic := flag d0 27, shared := flag d0 28, weight := flag d0 29, cached := flag d0 30,
                          staged := flag d0 31, replica := fld d1 20 12, key := (s.part c.ring).key, job := s.jobOf c.ring,
                          alt := fld d3 0 20, live := flag d3 20, torn := false, origin := false }
      s.readyPart c.ring = true → (x.valid = true → s.regionFormOk 4095 x = true) →
      (∀ u ∈ x.ranges, meetsKeeper u.1 u.2 = false ∧ ∀ f ∈ unitFields u.1 u.2, f ∈ s.partFields c.ring) → s.freeEntry = some e →
      Goes (.regionDefine c d0 d1 d3) s (fun t => Answers s t c 0x12 .ok e 0 [] ∧ Besides (s.putRegion e x) t c)) ∧
    (s.partState c.ring = 2 → (s.regions.map (·.1)).Nodup → Goes (.jobUnload c) s (fun t =>
      Answers s t c 0x13 .ok 0 0 [] ∧ t.phase c.ring = phIdle ∧ (t.part c.ring).table = none ∧ (t.part c.ring).ties = [] ∧
      (t.part c.ring).progs = [] ∧ (t.part c.ring).sched = none ∧
      (∀ e, e ≠ 4095 → (s.region e).part = c.ring → (s.region e).origin = false →
        (s.region e).valid = true ∨ (s.region e).torn = true → t.region e = region0) ∧
      ∀ e, (s.region e).part ≠ c.ring → t.region e = s.region e)) ∧
    (∀ v : Clip, s.idlePart c.ring = true → v.mode < 3 → (v.mode ≠ 0 → ∀ x ∈ v.tau, positiveF32 x.2 = true) →
      Goes (.clipSet c .data v) s (fun t => Answers s t c 0x42 .ok 0 0 [] ∧
        Besides (let s1 := (s.putPart c.ring { s.part c.ring with clip := v }).wrF (oStepPhase c.ring) 6 2 v.mode
          if v.mode = 1 then s1 else s1.wr (oStepClip c.ring) 0x3F800000#32) t c)) ∧
    (∀ x : Tie, s.idlePart c.ring = true → s.takesTies = true → tieOk x = true → s.jobTies (s.jobOf c.ring) < 256 →
      s.partOfField (x.tile / 192) = some c.ring →
      Goes (.tieDeclare c .data x) s (fun t => Answers s t c 0x43 .ok 0 0 [] ∧
        Besides (s.putPart c.ring { s.part c.ring with ties := (s.part c.ring).ties ++ [x] }) t c)) ∧
    (∀ (x : StepTable) (u : Upsets), s.partState c.ring = 2 → s.phase c.ring = phIdle → 32 ≤ x.length → x.length ≤ 2080 →
      s.tableOk c.ring x = true →
      (x.index ≠ 0 → Goes (.stepTable c .data x u) s (fun t => Answers s t c 0x45 .ok 0 0 [] ∧
        Besides (s.putPart c.ring { s.part c.ring with table := some x }) t c)) ∧
      (x.index = 0 → s.keeperId = s.moduleId → s.readsPoison u (oClaim x.jobSlot) 8 = false → ofNibs (s.seen u (oClaim x.jobSlot) 8) = 0 →
        s.anyPoison (oDirectory x.jobSlot) (64 + 4 * x.entries) = false →
        Goes (.stepTable c .data x u) s (fun t => Answers s t c 0x45 .ok 0 0 [] ∧ (t.part c.ring).table = some x ∧
          t.load (oClaim x.jobSlot) 8 = x.job % 65536 + 2 ^ 31 ∧
          ∃ y, t.dirAt x.jobSlot = some y ∧ y.job = x.job ∧ y.modules = x.modules ∧ y.index = x.index ∧ y.entries = x.entries)) ∧
      (x.index = 0 → s.keeperId ≠ s.moduleId → (s.route s.keeperId).valid = true → Goes (.stepTable c .data x u) s (fun t =>
        Waiting s t c 1 0x45 (.table s.keeper.nextTask) ∧ (t.part c.ring).table = (s.part c.ring).table ∧ t.mem = s.mem ∧
        ∃ y, t.ops = s.ops ++ [y] ∧ y.origin = .task s.keeper.nextTask ∧ y.module = s.keeperId ∧ y.off = oClaim x.jobSlot)))

/-- R94, R135, R197, R199, R201, R281, R348, R378, R384: the commands that start or stop work: a kernel's groups stand at its entry with
registers of zero, an abort halts them, a transfer or a pin begins, a step begins and waits for FWD, a step may not report STAGED
after its abort, and a partition to be destroyed is in SCRUB. -/
def Obligations.WorkCommandsStartAndStop : Prop :=
  ∀ (c : Cmd) (s : State), Ready s c →
    (∀ (entry : Nat) (repack : Bool) (slots : BitVec 16) (fields : Long) (args kid : Nat), c.ring < 16 → entry < 8192 →
      args < 2 ^ 32 → kid < 65536 → s.fieldsOwn c.ring fields = true → s.openPart c.ring = true →
      (s.part c.ring).sched.isSome = true → tfind s.kernels (c.ring * 65536 + kid) = none →
      (∀ f x n, f < 64 → fields.getLsbD f = true → x < 192 → n < 16 → slots.getLsbD n = true →
        (s.group (192 * f + x) n).live = false) → s.inPhase c.ring entry = true →
      Goes (.kernelLaunch c entry repack slots fields args kid) s (fun t =>
        Waiting s t c 1 0x20 (.launch (c.ring * 65536 + kid)) ∧ (tfind t.kernels (c.ring * 65536 + kid)).isSome = true ∧
        (∀ f x n, f < 64 → fields.getLsbD f = true → x < 192 → n < 16 → slots.getLsbD n = true →
          let g := t.group (192 * f + x) n
          g.live = true ∧ g.halted = false ∧ g.part = c.ring ∧ g.args = args ∧ g.repack = repack ∧ g.exited = 0 ∧ g.tokens = [] ∧
          (∃ y ∈ t.entries (192 * f + x), y.lanes = (List.range 32).map (fun i => n * 32 + i) ∧ y.pc = BitVec.ofNat 13 entry ∧
            y.wait = .none) ∧
          ∀ i r, i < 32 → r < 64 → t.g (192 * f + x) (n * 32 + i) r = 0 ∧ ∀ q, q < 7 → t.p (192 * f + x) (n * 32 + i) q = false) ∧
        t.mem = s.mem)) ∧
    (∀ (kid : Nat) (k : Kernel), c.ring < 16 → kid < 65536 → s.openPart c.ring = true →
      tfind s.kernels (c.ring * 65536 + kid) = some k →
      Goes (.kernelAbort c kid) s (fun t => Waiting s t c 1 0x21 (.abort (c.ring * 65536 + kid)) ∧
        tfind t.kernels (c.ring * 65536 + kid) = some { k with aborted := true } ∧
        (∀ x ∈ k.slots, (s.group (x / 16) (x % 16)).live = true → (s.group (x / 16) (x % 16)).kernel = c.ring * 65536 + kid →
          (t.group (x / 16) (x % 16)).halted = true) ∧ t.mem = s.mem ∧ t.gpr = s.gpr)) ∧
    (∀ (h : Nat) (img : List Word), h < 16 → s.rdF (oHostDmaRing (h / 4)) (8 * (h % 4)) 8 = c.ring →
      (if c.ring = 16 then s.inService = true else s.openPart c.ring = true) → s.dmaBusy (512 + h) = false →
      2 ≤ ((s.ring c.ring).cmdProd + 2 ^ 32 - (s.rd (oRingCmdCons c.ring)).toNat) % 2 ^ 32 →
      (s.dmaCheck (512 + h) (dmaDesc ((s.dmaLoad (512 + h) img).dmaRegs (512 + h)))).1 = .ok →
      Goes (.dmaXfer c h true .data img) s (fun t => Waiting s t c 2 0x30 (.dma h) ∧ t.dmaBusy (512 + h) = true ∧
        (∃ x, tfind t.dma (512 + h) = some x ∧ x.cmd = some (c.ring, (s.ring c.ring).nextSeq) ∧
          x.part = (if c.ring = 16 then none else some c.ring)) ∧ t.mem = s.mem)) ∧
    (∀ (line len e : Nat) (fill : Bool), c.ring < 16 → line < 2 ^ 32 → 1 ≤ len → len < 2 ^ 17 → s.readyPart c.ring = true →
      s.freePin (halfOf (rangeLo line)) = some e → s.pinCheck (halfOf (rangeLo line)) e c.ring line len = .ok →
      Goes (.pin c line len fill) s (fun t =>
        tget pin0 (t.half (halfOf (rangeLo line))).pins e =
          { base := line, len := len, fill := fill, part := c.ring, ways := cdiv len 6144, busy := fill, result := .ok } ∧
        (fill = true → Waiting s t c 1 0x32 (.pinFill (halfOf (rangeLo line)) e)) ∧
        (fill = false → Answers s t c 0x32 .ok (halfOf (rangeLo line) * 8 + e) 0 []))) ∧
    (∀ (index : Word) (b : Batches), c.ring < 16 → s.idlePart c.ring = true → (s.part c.ring).table.isSome = true →
      (∀ x ∈ b, (lmaxOf (s.part c.ring).limits x.1).isSome = true) → s.clipWordsOk c.ring = true →
      lengthExceeded (s.part c.ring).limits b = false →
      Goes (.stepBegin c index .data b) s (fun t => OnRing s t c 0x40 .step ∧ t.rd (oRingCmdCons c.ring) = s.rd (oRingCmdCons c.ring) ∧
        t.rd (oStepIndex c.ring) = index ∧ t.phase c.ring = phIdle ∧ (t.part c.ring).step.begun = true ∧
        (t.part c.ring).step.batches = splitBatches (s.part c.ring).limits b ∧ t.mem = s.mem ∧ t.regions = s.regions)) ∧
    (c.ring < 16 → s.created c.ring = true → phFwd ≤ s.phase c.ring → s.phase c.ring ≤ phCommit → s.rdF (oStepPhase c.ring) 4 1 = 0 →
      Goes (.stepAbort c) s (fun t => OnRing s t c 0x41 .stepAbort ∧ (t.part c.ring).step.noStaged = true ∧
        t.phase c.ring = s.phase c.ring ∧ t.regions = s.regions)) ∧
    (∀ (p : Nat) (force : Bool), c.ring = 16 → s.inService = true → p < 16 →
      (s.partState p = 2 ∨ force = true ∧ s.partState p = 3) →
      Goes (.partDestroy c p force) s (fun t => t.partState p = 1 ∧
        (t.part p).quads = (s.part p).quads ∧ (t.scrubs.getLast?).map (·.kind) = some (.destroy p) ∧
        (force = false → OnRing s t c 0x81 .scrub ∧ t.mem = s.mem ∧ t.scrubs.dropLast = s.scrubs)))

/-- R96, R378, R381, R383, R384, R386, R462, R471, R472: a kernel whose groups have ended is no longer live and nothing waits for it; the end of a scrub
zeroes the memory it names and puts the partition in READY or FREE, or grants D2; a restore from a replica that is valid brings
the region's data, reads them back and, where its verify pass meets no error, clears its poison bit; one without a replica reports that it failed. -/
def Obligations.KernelsScrubsAndRestoresEnd : Prop :=
  (∀ (key : Nat) (k : Kernel) (s : State), s.inService = true → tfind s.kernels key = some k →
    (∀ x ∈ k.slots, (s.group (x / 16) (x % 16)).live = true → (s.group (x / 16) (x % 16)).kernel = key →
      k.aborted = true ∧ s.slotQuiet (x / 16) (x % 16) = true) →
    Goes (.kernelComplete key) s (fun t => tfind t.kernels key = none ∧ t.mem = s.mem ∧
      (∀ x ∈ k.slots, ¬ ((t.group (x / 16) (x % 16)).live = true ∧ (t.group (x / 16) (x % 16)).kernel = key)) ∧
      ∀ l ∈ (t.ring k.ring).live, l.op ≠ .launch key ∧ l.op ≠ .abort key)) ∧
  (∀ (n : Nat) (x : Scrub) (s : State), s.inService = true → s.scrubs[n]? = some x →
    Goes (.scrubComplete n) s (fun t => t.scrubs = s.scrubs.eraseIdx n ∧
      (∀ o, getNib t.mem o =
        if (match x.kind with
            | .shared _ => inUnits x.base x.len o
            | .debug => decide (tileOfOff o / 192 < 64) && !(decide (keeperBase ≤ o) && decide (o < keeperEnd))
            | _ => decide (tileOfOff o / 192 < 64) && x.quads.getLsbD (quadOf (tileOfOff o / 192)) &&
                !(decide (keeperBase ≤ o) && decide (o < keeperEnd))) = true
        then 0 else getNib s.mem o) ∧
      (∀ p, x.kind = .create p → p < 16 → s.kernelLive p = false → t.partState p = 2 ∧ t.phase p = phIdle ∧
        t.kmap p 15 = { kmap0 with valid := true, key := (s.part p).key } ∧ ∀ i, i < 15 → t.kmap p i = kmap0) ∧
      (∀ p, x.kind = .destroy p → p < 16 → t.partState p = 0 ∧ t.part p = partFree ∧ ∀ i, i < 16 → t.kmap p i = kmap0) ∧
      (x.kind = .debug → t.debugLevel = 2))) ∧
  (∀ (e : Nat) (st : Status) (data : List Nib) (us : List Upsets) (s : State), e < 4096 → s.inService = true →
    let r := s.region e
    let rep := tget noReplica s.replicas r.replica
    r.shared = true → s.rgnPoison e = true →
    (rep.valid = false → Goes (.sharedRestore e st data us) s (fun t => Reports s t .restore .poisoned (srcCentral 5) [16] ∧
      e ∈ t.sec.unrestored ∧ t.mem = s.mem ∧ t.regs = s.regs)) ∧
    (rep.valid = true → rep.kind ≠ 0 → st = .ok → (∀ u ∈ us, u = []) → 0 < r.len → data.length = r.len * unit16 → r.cached = false → r.staged = false →
      r.torn = false → (∀ i, i < data.length → s.regionAt (r.base * unit16 + i) = some (e, r)) → (r.base + r.len) * unit16 ≤ vaultEnd →
      Goes (.sharedRestore e st data us) s (fun t => t.rgnPoison e = false ∧
        ∀ i v, data[i]? = some v → getNib t.mem (r.base * unit16 + i) = v)))

/-! ### Security -/

/-- R450, R452, R456, R458, R461, R465, R466: the security commands on the owner ring. Each takes its entry, and leaves its status in
SEC_STATUS.RESULT; ATTEST takes the next signing index and signs the report it sends; DEBUG_SET changes the level at once where no
token is needed, and else starts the D2 scrub with a token that names this device, boot and target; LIFECYCLE writes its record
and goes through a power-up reset; the node cache of the next tree is built. -/
def Obligations.SecurityCommandsTakeForce : Prop :=
  (∀ (c : Cmd) (buf : Long) (len part : Nat) (nonce : BitVec 256) (l : Revocation) (img : FwImage) (level : Nat) (reply : HostReply)
      (token : Option Signed) (s : State), Ready s c → c.ring = 16 →
    Goes (.signQuery c) s (fun t => Answers s t c 0x96 .ok s.sec.signNext s.sec.signEnd [] ∧ Besides (s.wrF oSecStatus 8 8 0) t c) ∧
    (s.sec.idOk = true → 3220 ≤ len → Goes (.certRead c buf len) s (fun t =>
      Answers s t c 0x90 .ok 0 0 [.wr 0 buf.toNat 3220 s.flash.cert false] ∧ Besides (s.wrF oSecStatus 8 8 0) t c)) ∧
    (s.sec.idOk = true → 3380 ≤ len → part < 16 ∨ part = 255 → s.sec.signNext < 2 ^ 25 →
      Goes (.attest c buf len part nonce) s (fun t => t.sec.signNext = s.sec.signNext + 1 ∧
        (∃ body, Answers s t c 0x91 .ok s.sec.signNext 0 [.wr 0 buf.toNat 3380
          (body + Config.signature s.flash.life s.sec.signNext body % 2 ^ 24992 * 2 ^ 2048) false]) ∧
        s.sec.signNext / 32768 ∈ t.flash.nodes ∧ t.mem = s.mem ∧ t.gpr = s.gpr)) ∧
    (l.sigOk = true → s.flash.revocation.version < l.version → Goes (.revokeUpdate c .data l) s (fun t =>
      Answers s t c 0x92 .ok 0 0 [] ∧ t.flash = { s.flash with revocation := l } ∧
      t.rd oSecRevocation = BitVec.ofNat 32 l.version ∧ t.sec = s.sec ∧ t.mem = s.mem)) ∧
    (s.flash.revocation.passes img = true → Goes (.fwInstall c .data img) s (fun t => Answers s t c 0x93 .ok 0 0 [] ∧
      (t.flash = { s.flash with slot0 := some img } ∨ t.flash = { s.flash with slot1 := some img }) ∧
      (∀ a, s.sec.fw = some a → s.flash.slot0 = some a ∨ s.flash.slot1 = some a →
        t.flash.slot0 = some a ∨ t.flash.slot1 = some a) ∧ t.sec = s.sec ∧ t.mem = s.mem)) ∧
    (s.flash.revocation.passes img = false → Goes (.fwInstall c .data img) s (fun t =>
      Answers s t c 0x93 .signatureInvalid 0 0 [] ∧ t.flash = s.flash ∧ t.rdF oSecStatus 8 8 = 14)) ∧
    (level < 3 → s.needsToken level = false → Goes (.debugSet c level reply token) s (fun t => Answers s t c 0x94 .ok 0 0 [] ∧
      t.debugLevel = level ∧ t.mem = s.mem ∧ t.flash = s.flash ∧ t.parts = s.parts ∧ t.regions = s.regions)) ∧
    (s.needsToken 2 = true → s.sec.idOk = true → s.isKeeper = false → s.isStandby = false → s.inService = true →
      s.tokenCheck 2 token = .ok → Goes (.debugSet c 2 .data token) s (fun t =>
        (t.scrubs.getLast?).map (·.kind) = some .debug ∧ t.lines = [] ∧
        ∀ p, p < 16 → s.created p = true → (t.part p).scrub = true ∧ (t.part p).ready = false))) ∧
  (∀ (c : Cmd) (target : Nat) (token : Option Signed) (s : State), Ready s c → c.ring = 16 → target < 3 →
    s.modState = stReady ∨ s.modState = stBeacon → (∀ p, p < 16 → s.partState p = 0) → s.sec.idOk = true →
    lifeMove s.flash.life target = true → (target ≠ 2 → s.tokenCheck target token = .ok) →
    Goes (.lifecycle c target .data token) s (fun t => t.flash.life = target ∧ t.flash.boots = (s.flash.boots + 1) % 2 ^ 32 ∧
      t.host.out = s.host.out ++ (consumed s c 1 ++ completion s c 0x95 .ok 0 0) ∧ t.modState = stStartup ∧
      (∀ o, o ≠ oMcState → t.rd o = resetOf o) ∧ t.mem = [])) ∧
  (∀ s : State, s.firmwareRuns = true → s.sec.idOk = true → 24576 ≤ s.sec.signNext % 32768 → s.sec.signNext / 32768 + 1 < 1024 →
    Goes .nodeCacheBuild s (fun t => t.sec = s.sec ∧ t.mem = s.mem ∧
      ∀ n, n ∈ t.flash.nodes ↔ n = s.sec.signNext / 32768 + 1 ∨ n ∈ s.flash.nodes))

/-! ### Power -/

/-- R427, R428, R429, R431, R437, R438: the POWER actions. Each completes with the module state it leads to; REEF stands at VP0 with the duty
of REEF_DUTY, STRIKE keeps memory and stops the links, DORMANT and WAKE lose the SRAM and keep vault DRAM. -/
def Obligations.PowerActionsChangeTheState : Prop :=
  ∀ (c : Cmd) (s : State), Ready s c → c.ring = 16 →
    (s.stCode = stReady → Goes (.powerReef c) s (fun t => Answers s t c 0x8A .ok stReef 0 [] ∧ t.modState = stReef ∧
      t.rdF oPwrState 0 3 = 0 ∧ t.rdF oPwrState 3 5 = s.rdF oPwrPfwCfg 17 4 ∧ t.rdF oPwrState 10 2 = 3 ∧ t.rdF oPwrState 12 1 = 1 ∧
      t.rdF oPwrEvents 0 16 = Nat.min (s.rdF oPwrEvents 0 16 + 1) 65535 ∧ t.mem = s.mem ∧ t.gpr = s.gpr ∧ t.links = s.links)) ∧
    (s.stCode = stReef → s.commanded = true → s.power.holding = false → Goes (.powerReefLeave c) s (fun t =>
      Answers s t c 0x8A .ok t.modState 0 [] ∧ t.stCode = stReady ∧ t.rdF oPwrState 3 5 = 16 ∧ t.commanded = false ∧
      t.mem = s.mem ∧ t.gpr = s.gpr)) ∧
    (s.stCode = stReady ∨ s.stCode = stReef ∧ s.commanded = true ∧ s.power.holding = false → Goes (.powerStrike c) s (fun t =>
      Answers s t c 0x8A .ok stReef 0 [] ∧ t.modState = stStrike ∧ t.commanded = true ∧ t.homeQ = [] ∧ t.ops = [] ∧
      t.transit = [] ∧ t.discarded = s.discarded ++ s.outstanding ∧
      t.rdF oPwrEvents 16 16 = Nat.min (s.rdF oPwrEvents 16 16 + 1) 65535 ∧
      (∀ k, k < 64 → t.linkState k = lkOff) ∧ t.mem = s.mem ∧ t.gpr = s.gpr ∧ t.acc = s.acc)) ∧
    (s.stCode = stReady → (∀ p, p < 16 → s.partState p = 0) → (∀ e ∈ s.regions, e.2.valid = true → e.2.origin = true →
      (e.2.base + e.2.len) * unit16 - 1 < tsBase) → s.isKeeper = false →
      s.isStandby = false → Goes (.powerDormant c) s (fun t =>
        Answers s t c 0x8A .ok stDormant 0 [] ∧ t.modState = stDormant ∧ (∀ k, k < 64 → t.linkState k = lkOff) ∧ t.acc = [] ∧
        t.imem = [] ∧ t.lines = [] ∧ ∀ o, getNib t.mem o = if o < tsBase then getNib s.mem o else 0)) ∧
    (s.stCode = stDormant → Goes (.powerWake c) s (fun t => Answers s t c 0x8A .ok t.modState 0 [] ∧ t.stCode = stReady ∧
      (∀ k, k < 64 → flag (s.rd (oLinkExpect k)) 16 = true → flag (s.rd (oLinkCtrl k)) 0 = true → t.linkState k = lkTraining) ∧
      ∀ o, getNib t.mem o = if o < tsBase then getNib s.mem o else 0))

/-- R263, R416, R424, R431, R434, R436, R437, R491: the power-fail and undervoltage warnings take READY and RUN into the hold of REEF, and
DORMANT into STRIKE; a release within the hold returns to the state before, the end of the hold leads to STRIKE, and a stable input
resumes from it. The slot copies end, what waited for them goes on, and no nibble of memory changes else on the way in. -/
def Obligations.RideThroughFollowsTheInput : Prop :=
  ∀ s : State, s.power.off = false →
    let nothingWaits : Prop := s.rotors = [] ∧ s.groups = [] ∧ ∀ p, p < 16 → s.chansOf p = []
    (s.stCode = stReady → Goes .pfwNAssert s (fun t =>
      let u := (s.setPfw true).endCopies
      t.stCode = stReef ∧ t.power.holding = true ∧ t.rdF oPwrState 10 2 = 1 ∧ t.commanded = false ∧ t.rdF oPwrState 0 3 = 0 ∧
      t.rdF oPwrState 3 5 = u.rdF oPwrPfwCfg 17 4 ∧ t.mem = u.mem ∧ t.gpr = u.gpr ∧ t.vaults = u.vaults ∧
      (nothingWaits → t.rdF oPwrState 8 1 = 1 ∧ t.power.pfw = true ∧ t.rdF oPwrState 3 5 = s.rdF oPwrPfwCfg 17 4 ∧
        (∀ f site, (t.vault f site).copy = none) ∧ t.mem = s.mem ∧ t.gpr = s.gpr))) ∧
    (s.stCode = stReef → s.power.holding = false → Goes .pfwNAssert s (fun t => t.power.holding = true ∧
      (nothingWaits → t.stCode = stReef ∧ t.rdF oPwrState 8 1 = 1 ∧ t.commanded = s.commanded ∧
        (∀ f site, (t.vault f site).copy = none) ∧ t.mem = s.mem ∧ t.gpr = s.gpr))) ∧
    (s.stCode = stDormant → Goes .pfwNAssert s (fun t => t.stCode = stStrike ∧ t.power.prior = stDormant ∧ t.mem = s.mem)) ∧
    (s.stCode = stReady → Goes .undervoltageWarning s (fun t =>
      let u := (s.wrF oPwrState 9 1 1).endCopies
      t.stCode = stReef ∧ t.power.holding = true ∧ t.rdF oPwrState 10 2 = 2 ∧ t.mem = u.mem ∧ t.gpr = u.gpr ∧ t.vaults = u.vaults ∧
      (nothingWaits → t.rdF oPwrState 9 1 = 1 ∧ (∀ f site, (t.vault f site).copy = none) ∧ t.mem = s.mem ∧ t.gpr = s.gpr))) ∧
    (s.stCode = stReef → s.power.holding = true → s.rdF oPwrState 9 1 = 0 → Goes .pfwNRelease s (fun t =>
      t.rdF oPwrState 8 1 = 0 ∧ t.power.pfw = false ∧ t.power.holding = false ∧ t.mem = s.mem ∧ t.gpr = s.gpr ∧
      (s.commanded = false → t.stCode = stReady ∧ t.rdF oPwrState 3 5 = 16) ∧ (s.commanded = true → t.stCode = stReef))) ∧
    (s.stCode = stReef → s.power.holding = true → Goes .holdEnd s (fun t => t.stCode = stStrike ∧ t.commanded = false ∧
      t.power.prior = stReady ∧ t.homeQ = [] ∧ t.cacheQ = [] ∧ t.ops = [] ∧ t.transit = [] ∧
      t.discarded = s.discarded ++ s.outstanding ∧ (∀ k, k < 64 → t.linkState k = lkOff) ∧
      t.mem = s.mem ∧ t.poison = s.poison ∧ t.gpr = s.gpr)) ∧
    (s.stCode = stStrike → s.power.pfw = false → s.commanded = false ∨ s.power.wake = true → Goes .resume s (fun t =>
      t.stCode = (if s.power.prior = stDormant then stDormant else stReady) ∧ t.commanded = false ∧ t.rdF oPwrState 9 1 = 0 ∧
      t.rdF oPwrState 3 5 = 16 ∧ t.power.wake = false))

/-- R424, R427, R428, R444, R467, R496: a governor sample shows the input and the power; above the cap it steps the point down, at the lowest point
it lowers the duty, and below nine tenths of the cap it raises the duty and then the point. The coolant report and a control
core's stop are reported. -/
def Obligations.GovernorAndReportsInService : Prop :=
  (∀ (watts avg1 avg10 volt amps : Nat) (s : State), s.power.off = false →
    Goes (.governorSample watts avg1 avg10 volt amps) s (fun t =>
      let cap := s.rdF oPwrCap 0 16
      let lo := s.rdF oPwrCap 16 3
      let hi := s.rdF oPwrCap 19 3
      let point := s.rdF oPwrState 0 3
      let d := s.rdF oPwrState 3 5
      t.rdF oPwrInput 0 13 = Nat.min 8191 volt ∧ t.rdF oPwrInput 13 13 = Nat.min 8191 amps ∧
      t.rdF oPwrPower 0 16 = Nat.min 65535 avg1 ∧ (4600 ≤ volt → t.rdF oPwrState 9 1 = 0) ∧ t.mem = s.mem ∧ t.gpr = s.gpr ∧
      (s.stCode ≠ stReady → t.rdF oPwrState 0 3 = point ∧ t.rdF oPwrState 3 5 = d) ∧
      (s.stCode = stReady → 10 * watts ≤ 11 * cap → d ≤ 16 →
        (cap < avg1 → lo < point → t.rdF oPwrState 0 3 = point - 1 ∧ t.rdF oPwrState 3 5 = d) ∧
        (cap < avg1 → point ≤ lo → t.rdF oPwrState 0 3 = point ∧ t.rdF oPwrState 3 5 = Nat.max 2 (d - 2)) ∧
        (avg1 ≤ cap → 9 * cap ≤ 10 * avg10 → t.rdF oPwrState 0 3 = point ∧ t.rdF oPwrState 3 5 = d) ∧
        (avg1 ≤ cap → 10 * avg10 < 9 * cap → d < 16 → t.rdF oPwrState 0 3 = point ∧ t.rdF oPwrState 3 5 = 16) ∧
        (avg1 ≤ cap → 10 * avg10 < 9 * cap → d = 16 → t.rdF oPwrState 3 5 = 16 ∧
          t.rdF oPwrState 0 3 = if point < hi then point + 1 else point)) ∧
      (s.stCode = stReady → 11 * cap < 10 * watts → avg1 ≤ cap → 9 * cap ≤ 10 * avg10 →
        t.rdF oPwrState 0 3 = point ∧ t.rdF oPwrState 3 5 = 8))) ∧
  (∀ (inlet outlet : Nat) (s : State), s.inService = true → Goes (.coolantCrossing inlet outlet) s (fun t =>
    t.rdF oPwrTemp 8 8 = Nat.min 255 inlet ∧ t.rdF oPwrTemp 16 8 = Nat.min 255 outlet ∧
    t.power.hotInlet = decide (40 < inlet) ∧ t.power.hotOutlet = decide (55 < outlet) ∧
    (¬ (40 < inlet ∧ s.power.hotInlet = false) → ¬ (55 < outlet ∧ s.power.hotOutlet = false) → t.recorder = s.recorder) ∧
    (40 < inlet → s.power.hotInlet = false → ¬ (55 < outlet ∧ s.power.hotOutlet = false) →
      Reports s t .thermal .ok (srcCentral 1) [16]))) ∧
  (∀ (core : Nat) (s : State), core < 32 → s.firmwareRuns = true → Goes (.controlCoreStop core) s (fun t =>
    t.core core = { s.core core with stopped := true } ∧ (∀ n, n ≠ core → t.core n = s.core n) ∧
    Reports s t .core .ok { kind := 4, index := core } [16] ∧ t.mem = s.mem ∧ t.regs = s.regs))

/-! ### Start-up and resets -/

/-- R16, R409, R410, R412, R413, R414, R417, R418, R423, R451: start-up goes through its orders; order 3 takes NEXT and END from the
reservation records, order 4 leaves the accepted image in the west runtime memory and zero elsewhere in both (log 147), order 6 waits
while the coolant is out of range, order 7 leaves unused every faulty site of fields with at most four each, order 9 leaves every memory
zero, and order 11 leads to READY or DORMANT. A rail, a missing or refused image, a field with five faulty sites, a failed self-test, an
order out of time and a coolant wait of 60 s lead to BEACON with their class and detail. -/
def Obligations.StartupFollowsItsOrders : Prop :=
  ∀ (d : OrderData) (s : State), s.starting = true →
    let at' (n : Nat) : Prop := s.rdF oSuStatus 0 4 = n
    let beacon (t : State) (c k : Nat) : Prop :=
      t.modState = stBeacon ∧ t.rdF oSuStatus 8 8 = c ∧ t.rdF oSuStatus 16 8 = k ∧ t.rdF oSuStatus 5 1 = 1 ∧ t.startup.beacon = some (c, k)
    let goes (P : State → Prop) : Prop := Goes (.startupOrderComplete d) s P
    (at' 1 → goes (fun t => t.rdF oSuStatus 0 4 = 2 ∧ ({ t with regs := s.regs } : State) = s)) ∧
    (at' 2 → d.rail = none → goes (fun t => t.rdF oSuStatus 0 4 = 3 ∧ t.power.target ≤ 54000 ∧ t.power.target ≤ d.inputMv)) ∧
    (at' 2 ∨ at' 3 ∨ at' 4 → ∀ r, d.rail = some r → r < 256 → goes (fun t => beacon t 1 r)) ∧
    (at' 3 → d.rail = none → d.pufOk = true → goes (fun t => t.rdF oSuStatus 0 4 = 4 ∧ t.sec.idOk = true ∧
      t.sec.signNext = s.flash.resEnd ∧ t.sec.signEnd = s.flash.resEnd ∧ t.flash = s.flash ∧ t.rd oEvrNext = 2)) ∧
    (at' 3 → d.rail = none → d.pufOk = false → goes (fun t => beacon t 9 0)) ∧
    (at' 4 → d.rail = none → d.flashOk = true → ∀ x, s.flash.images.find? s.flash.revocation.passes = some x →
      goes (fun t => t.rdF oSuStatus 0 4 = 5 ∧ t.sec.fw = some x ∧ t.rd oSecFw = BitVec.ofNat 32 x.version ∧
        ∀ i, tget 0#8 t.rtMem i = if i < 2 ^ 25 then x.code[i]?.getD 0#8 else 0#8)) ∧
    (at' 4 → d.rail = none → (d.flashOk = false ∨ s.flash.images = []) → goes (fun t => beacon t 2 0)) ∧
    (at' 4 → d.rail = none → d.flashOk = true → s.flash.images ≠ [] → (∀ x ∈ s.flash.images, s.flash.revocation.passes x = false) →
      goes (fun t => beacon t 3 0)) ∧
    (at' 5 → (d.selfFail = none → goes (fun t => t.rdF oSuStatus 0 4 = 6)) ∧
      ∀ n, d.selfFail = some n → n < 256 → goes (fun t => beacon t 5 n)) ∧
    (at' 6 → coolantOk d = false → goes (fun t => t.rdF oSuStatus 0 4 = 6 ∧ t.modState = stStartup)) ∧
    (at' 6 → coolantOk d = true → (∀ e ∈ d.fails, e.2.2 ≠ 4) → goes (fun t => t.rdF oSuStatus 0 4 = 7)) ∧
    (at' 6 → Goes .coolantWaitTimeout s (fun t => beacon t 7 0)) ∧
    (at' 7 → (∀ f, f < 64 → (s.mustSkip f).length ≤ 4) → goes (fun t => t.rdF oSuStatus 0 4 = 8 ∧ t.mem = s.mem ∧
      ∀ f, f < 64 → ∀ x ∈ s.mustSkip f, x ∈ t.unusedOf f)) ∧
    (at' 7 → ∀ f, f < 64 → 4 < (s.mustSkip f).length → (∀ g, g < f → (s.mustSkip g).length ≤ 4) → goes (fun t => beacon t 4 (quadOf f))) ∧
    (at' 8 → d.badCh = [] → (∀ f site, (s.vault f site).badCh = []) → s.startup.beacon = none →
      goes (fun t => t.rdF oSuStatus 0 4 = 9 ∧ t.mem = s.mem)) ∧
    (at' 9 → goes (fun t => t.rdF oSuStatus 0 4 = 10 ∧ t.mem = [] ∧ t.poison = [] ∧ t.acc = [] ∧ t.imem = [] ∧
      t.moduleId = s.flash.moduleId % 1024 ∧ t.region 4095 = keeperRegion)) ∧
    (at' 10 → goes (fun t => t.rdF oSuStatus 0 4 = 11 ∧ ∀ k, k < 64 → flag (s.rd (oLinkExpect k)) 16 = true →
      flag (s.rd (oLinkCtrl k)) 0 = true → t.linkState k = lkTraining)) ∧
    (at' 11 → goes (fun t => t.rdF oSuStatus 4 1 = 1 ∧ t.stCode = (if s.flash.toDormant then stDormant else stReady))) ∧
    (∀ n, at' n → 2 ≤ n → n ≤ 11 → Goes .startupOrderTimeout s (fun t => beacon t 8 n))

/-- R411, R419, R422: the PCI Express link comes up from order 3 on, with the SR-IOV capability once start-up is done; PERST_N takes it down
and touches nothing else; the lamp timer counts through the frame of the state. -/
def Sys2Proof.Claim.LinkUpPerstAndLamps : Prop :=
  ∀ s : State,
    (s.hostDead = false → s.rdF oMcState 0 4 ≠ stStartup ∨ 3 ≤ s.rdF oSuStatus 0 4 → Goes .pcieLinkUp s (fun t =>
      t = ({ s with host := { s.host with linkUp := true, sriov := s.rdF oSuStatus 4 1 == 1 } } : State))) ∧
    Goes .perstN s (fun t => t = ({ s with host := { s.host with linkUp := false, sriov := false } } : State)) ∧
    (s.power.off = false → Goes .lampTimer s (fun t =>
      let frame : Nat := match s.startup.beacon with
        | some (c, d) => 10 * c + 24 + 10 * (d + 1) + 60
        | none => if s.modState = stStrike then 100 else 20
      t = ({ s with startup := { s.startup with lamp := (s.startup.lamp + 1) % frame } } : State)))

/-- R379, R407, R416, R421, R433, R460, R491: after a power-up reset, RESET, RESET_N or a JTAG reset at D2 every register holds its Reset value but
CAUSE, which names the reset; pending strobed values and pairs are gone, memory lists nothing, and flash stays but for the boot
count of a power-up and the level of PFW_N at the input. The collapse of the bulk store leaves flash alone. -/
def Sys2Proof.Claim.ResetsRestoreResetValues : Prop :=
  ∀ (c : Cmd) (s : State),
    let clean (t : State) (cause : Nat) : Prop :=
      (∀ o, o ≠ oMcState → t.rd o = resetOf o) ∧ t.rd oMcState = setFld (resetOf oMcState) 4 3 cause ∧ t.strobed = [] ∧ t.pairs = [] ∧
      t.applying = [] ∧ t.mem = [] ∧ t.gpr = [] ∧ t.regions = [] ∧ t.recorder.log = [] ∧ t.pending = s.pending ∧ t.host.out = s.host.out ∧ t.power.pfw = s.power.pfw
    Goes .powerUpReset s (fun t => clean t 0 ∧ t.flash = { s.flash with boots := (s.flash.boots + 1) % 2 ^ 32 } ∧ t.steps = 0) ∧
    (s.power.off = false → Goes .resetN s (fun t => clean t 2 ∧ t.flash = s.flash ∧ t.steps = s.steps)) ∧
    (s.power.off = false → s.tapLevel = 2 → Goes .jtagReset s (fun t => clean t 3 ∧ t.flash = s.flash)) ∧
    (s.power.off = false → s.tapLevel ≠ 2 → Goes .jtagReset s (fun t =>
      ({ t with tap := s.tap } : State) = s ∧ t.tap.ir = 0 ∧ t.tap.driving = false)) ∧
    (Ready s c → c.ring = 16 → Goes (.reset c) s (fun t => clean t 1 ∧ t.flash = s.flash)) ∧
    Goes .bulkStoreCollapse s (fun t => t.power.off = true ∧ t.flash = s.flash ∧ t.regs = [] ∧ t.mem = [] ∧ t.pending = s.pending)

/-- Resets restore Reset values; PCI Express link, PERST_N and lamps: the conjunction of the parts above. -/
def Obligations.ResetsLinkAndLamps : Prop :=
  Sys2Proof.Claim.ResetsRestoreResetValues ∧ Sys2Proof.Claim.LinkUpPerstAndLamps

/-! ### JTAG -/

/-- R395, R460, R463: the TAP's instructions, each at its level and above; below it, and EXTEST outside BEACON and DORMANT, the TAP holds BYPASS.
IDCODE's value and the number that the model gives each instruction are its own (log 7, log 28). -/
def Obligations.TapInstructionsByLevel : Prop :=
  ∀ (cells off core : Nat) (v : Word) (addr : Long) (k : AccKind) (s : State), core < 32 → s.power.off = false →
    let only (t : State) : Prop := ({ t with tap := s.tap } : State) = s
    let bypassed (c : Instr) : Prop := Goes c s (fun t => only t ∧ t.tap.ir = 1 ∧ t.tap.tdo = 0 ∧ t.tap.driving = false)
    Goes .idcode s (fun t => only t ∧ t.tap.ir = 0 ∧ t.tap.tdo = Config.idcode.toNat) ∧ bypassed .bypass ∧
    Goes .secStatus s (fun t => only t ∧ t.tap.ir = 2 ∧ t.tap.tdo = (s.readReg 0x32 oSecStatus).toNat) ∧
    (s.tapLevel < 1 → bypassed (.samplePreload cells) ∧ bypassed (.extest cells) ∧ bypassed (.regRead off)) ∧
    (s.tapLevel < 2 → bypassed (.regWrite off v) ∧ bypassed (.coreHalt core) ∧ bypassed (.coreStep core) ∧ ∀ u, bypassed (.mem addr k u)) ∧
    (1 ≤ s.tapLevel → Goes (.samplePreload cells) s (fun t => t.tap.ir = 3 ∧ t.tap.cells = cells ∧ t.tap.driving = false ∧
      t.mem = s.mem ∧ t.regs = s.regs)) ∧
    (1 ≤ s.tapLevel → s.modState = stBeacon ∨ s.modState = stDormant → Goes (.extest cells) s (fun t =>
      t.tap.ir = 4 ∧ t.tap.cells = cells ∧ t.tap.driving = true ∧ t.mem = s.mem ∧ t.regs = s.regs)) ∧
    (1 ≤ s.tapLevel → s.modState ≠ stBeacon → s.modState ≠ stDormant → bypassed (.extest cells)) ∧
    (1 ≤ s.tapLevel → Goes (.regRead off) s (fun t => only t ∧ t.tap.ir = 5 ∧
      (s.tapLevel = 2 → t.tap.tdo = (s.busRead { id := 0x32, ownerCmd := false } off).toNat) ∧
      (s.tapLevel ≠ 2 → 0x20000 ≤ off → off < 0x30000 → t.tap.tdo = 0))) ∧
    (2 ≤ s.tapLevel → Goes (.regWrite off v) s (fun t => t.tap.ir = 6 ∧
      ∀ q, t.rd q = (s.busWrite { id := 0x32, ownerCmd := false } off v).rd q)) ∧
    (2 ≤ s.tapLevel → s.firmwareRuns = true →
      Goes (.coreHalt core) s (fun t => t.core core = { s.core core with halted := true } ∧ (∀ n, n ≠ core → t.core n = s.core n)) ∧
      Goes (.coreStep core) s (fun t => (∀ n, n ≠ core → t.core n = s.core n) ∧
        t.core core = if (s.core core).halted = true ∧ (s.core core).stopped = false
          then { s.core core with arch := Config.coreStep (s.core core).arch } else s.core core)) ∧
    (2 ≤ s.tapLevel → s.tapMemory addr k = true →
      let a := tapAccess (addrOff addr) k
      let p := s.physAt a.off
      s.homeTests a = .ok → s.cachedOff a.off = false →
      (∀ n, k = .load n → s.anyPoison p n = false → Goes (.mem addr k []) s (fun t =>
        only t ∧ t.tap.ir = 9 ∧ t.tap.tdo = s.load p n)) ∧
      (∀ l, k = .store l → s.writesDropped p = false → Goes (.mem addr k []) s (fun t =>
        (∀ i x, l[i]? = some x → getNib t.mem (p + i) = x) ∧
        (∀ o, ¬ (p ≤ o ∧ o < p + l.length) → getNib t.mem o = getNib s.mem o) ∧
        t.regs = s.regs ∧ t.gpr = s.gpr)))

/-! ### Every command -/

/-- R1, R10, R92, R103: a command whose units exist and which the program-load command takes completes in every state; one that names a unit
beyond the module's counts stops with noSuchUnit, and a form that program load rejects stops with rejectedAtLoad. -/
def Obligations.CommandsCompleteOrNameTheirStop : Prop :=
  ∀ (c : Instr) (s : State),
    (c.wf = true → ∃ t, exec c s = .next t ∧ t.pending = s.pending) ∧
    (c.units = false → exec c s = .fault .noSuchUnit) ∧
    (c.units = true → c.loadable = false → exec c s = .refused .rejectedAtLoad)

namespace Sys2Proof.Claim

open Sys2Proof.Machine

/-- The signing state stands within what flash has reserved (R451, R452): no index below END of a record is ever NEXT again. -/
def SigningInv (s : State) : Prop := s.sec.signNext ≤ s.sec.signEnd ∧ s.sec.signEnd ≤ s.flash.resEnd

end Sys2Proof.Claim

open Sys2Proof Sys2Proof.Machine Sys2Proof.Claim

/-- R451, R452: every step keeps NEXT at or below END and END within a reservation record in flash; the largest END of the records never
falls, over resets and power losses too; and NEXT never falls but at a reset, from which start-up resumes at that END. So no
index is used twice. -/
def Obligations.SigningIndicesAreNeverReused : Prop :=
  ∀ s t : State, SigningInv s → step s = .next t →
    SigningInv t ∧ s.flash.resEnd ≤ t.flash.resEnd ∧ (s.sec.signNext ≤ t.sec.signNext ∨ t.sec.idOk = false)

/-- R3, R4, R25: every step keeps module memory in its canonical form: addresses strictly rising, and no entry that equals what an unlisted
byte reads as. That form, and that value, are the model's (log 3). -/
def Obligations.MemoryStaysCanonical : Prop :=
  ∀ s t : State, Memory.wf s.mem = true → step s = .next t → Memory.wf t.mem = true

/-- R407, R451: the two invariants hold at reset. -/
def Sys2Proof.Claim.InvariantsHoldAtReset : Prop := Memory.wf State.reset.mem = true ∧ SigningInv State.reset

/-- Reset leaves every register at its Reset value, and both invariants hold there: the conjunction of the parts above. -/
def Obligations.ResetLeavesResetValues : Prop :=
  Sys2Proof.Claim.ResetHoldsResetValues ∧ Sys2Proof.Claim.InvariantsHoldAtReset
end

