-- ==== Sys2Proof/Laws/Tables.lean ====
section
/-! SUPPORT. Laws of the sparse tables and the finite sets: what a read gives after a write, and that every write keeps the canonical form. -/

namespace Sys2Proof.Machine

variable {α : Type}

/-! ### Reads after writes -/

theorem tfind_tput (m : Tab α) (k j : Nat) (v : α) : tfind (tput m k v) j = if j = k then some v else tfind m j := by
  induction m with
  | nil => simp [tput, tfind, eq_comm]
  | cons e r ih =>
    obtain ⟨k', v'⟩ := e
    simp only [tput]
    split
    · simp [tfind, eq_comm]
    · split
      · subst_vars
        by_cases h : j = k'
        · simp [tfind, h]
        · simp [tfind, h, Ne.symm h]
      · simp only [tfind, ih]
        by_cases h : k' = j <;> by_cases g : j = k <;> simp_all

theorem tfind_tdel (m : Tab α) (k j : Nat) : tfind (tdel m k) j = if j = k then none else tfind m j := by
  induction m with
  | nil => simp [tdel, tfind]
  | cons e r ih =>
    obtain ⟨k', v'⟩ := e
    simp only [tdel] at ih
    by_cases h : k' = k
    · simp only [tdel, List.filter_cons, h, bne_self_eq_false, Bool.false_eq_true, if_false, ih, tfind]
      by_cases g : j = k
      · simp [g]
      · simp [g, Ne.symm g]
    · simp only [tdel, List.filter_cons, bne_iff_ne, ne_eq, h, not_false_eq_true, if_true, tfind, ih]
      by_cases g : k' = j <;> simp_all

theorem tget_eq_tfind (d : α) (m : Tab α) (k : Nat) : tget d m k = (tfind m k).getD d := by
  induction m with
  | nil => rfl
  | cons e r ih =>
    simp only [tget, tfind, ih]
    split <;> rfl

@[simp] theorem tget_tput (d : α) (m : Tab α) (k j : Nat) (v : α) : tget d (tput m k v) j = if j = k then v else tget d m j := by
  rw [tget_eq_tfind, tfind_tput, tget_eq_tfind]
  split <;> rfl

@[simp] theorem tget_tdel (d : α) (m : Tab α) (k j : Nat) : tget d (tdel m k) j = if j = k then d else tget d m j := by
  rw [tget_eq_tfind, tfind_tdel, tget_eq_tfind]
  split <;> rfl

@[simp] theorem tget_tset [DecidableEq α] (d : α) (m : Tab α) (k j : Nat) (v : α) :
    tget d (tset d m k v) j = if j = k then v else tget d m j := by
  unfold tset
  split <;> simp_all

theorem tget_nil (d : α) (k : Nat) : tget d ([] : Tab α) k = d := rfl

/-! ### The canonical form -/

/-- A rising table: every key of the tail is greater than the head's. -/
theorem rising_cons (k : Nat) (v : α) (r : Tab α) : rising ((k, v) :: r) = true ↔ (∀ e ∈ r, k < e.1) ∧ rising r = true := by
  induction r generalizing k v with
  | nil => simp [rising]
  | cons e r ih =>
    obtain ⟨k', v'⟩ := e
    simp only [rising, Bool.and_eq_true, decide_eq_true_eq, List.mem_cons, forall_eq_or_imp]
    constructor
    · rintro ⟨h, g⟩
      exact ⟨⟨h, fun e he => Nat.lt_trans h (((ih k' v').1 g).1 e he)⟩, g⟩
    · rintro ⟨⟨h, -⟩, g⟩
      exact ⟨h, g⟩

theorem mem_tput (m : Tab α) (k : Nat) (v : α) (e : Nat × α) (h : e ∈ tput m k v) : e = (k, v) ∨ e ∈ m := by
  induction m with
  | nil => simpa [tput] using h
  | cons x r ih =>
    obtain ⟨k', v'⟩ := x
    simp only [tput] at h
    split at h
    · simpa using h
    · split at h
      · rcases List.mem_cons.1 h with h | h
        · exact .inl h
        · exact .inr (List.mem_cons_of_mem _ h)
      · rcases List.mem_cons.1 h with h | h
        · exact .inr (h ▸ List.mem_cons_self)
        · exact (ih h).imp_right (List.mem_cons_of_mem _)

theorem rising_tput (m : Tab α) (k : Nat) (v : α) (h : rising m = true) : rising (tput m k v) = true := by
  induction m with
  | nil => rfl
  | cons x r ih =>
    obtain ⟨k', v'⟩ := x
    obtain ⟨hk, hr⟩ := (rising_cons k' v' r).1 h
    simp only [tput]
    split
    · rename_i lt
      exact (rising_cons _ _ _).2 ⟨by
        simp only [List.mem_cons, forall_eq_or_imp]
        exact ⟨lt, fun e he => Nat.lt_trans lt (hk e he)⟩, h⟩
    · split
      · rename_i eq
        subst eq
        exact (rising_cons _ _ _).2 ⟨hk, hr⟩
      · refine (rising_cons _ _ _).2 ⟨fun e he => ?_, ih hr⟩
        rcases mem_tput r k v e he with rfl | he
        · show k' < k
          omega
        · exact hk e he

theorem rising_filter (p : Nat × α → Bool) (m : Tab α) (h : rising m = true) : rising (m.filter p) = true := by
  induction m with
  | nil => rfl
  | cons x r ih =>
    obtain ⟨k', v'⟩ := x
    obtain ⟨hk, hr⟩ := (rising_cons k' v' r).1 h
    rw [List.filter_cons]
    split
    · exact (rising_cons _ _ _).2 ⟨fun e he => hk e (List.mem_filter.1 he).1, ih hr⟩
    · exact ih hr

theorem twf_filter [DecidableEq α] (d : α) (p : Nat × α → Bool) (m : Tab α) (h : twf d m = true) : twf d (m.filter p) = true := by
  simp only [twf, Bool.and_eq_true, List.all_eq_true] at h ⊢
  exact ⟨rising_filter p m h.1, fun e he => h.2 e (List.mem_filter.1 he).1⟩

theorem twf_tset [DecidableEq α] (d : α) (m : Tab α) (k : Nat) (v : α) (h : twf d m = true) : twf d (tset d m k v) = true := by
  unfold tset
  split
  · exact twf_filter d _ m h
  · rename_i ne
    simp only [twf, Bool.and_eq_true, List.all_eq_true] at h ⊢
    refine ⟨rising_tput m k v h.1, fun e he => ?_⟩
    rcases mem_tput m k v e he with rfl | he
    · simpa using ne
    · exact h.2 e he

/-! ### Finite sets -/

@[simp] theorem mem_sadd (m : List Nat) (k j : Nat) : j ∈ sadd m k ↔ j = k ∨ j ∈ m := by
  induction m with
  | nil => simp [sadd]
  | cons x r ih =>
    simp only [sadd]
    split
    · simp
    · split
      · subst_vars
        simp
      · simp only [List.mem_cons, ih]
        constructor <;> (rintro (h | h | h) <;> simp [h])

@[simp] theorem mem_sdel (m : List Nat) (k j : Nat) : j ∈ sdel m k ↔ j ∈ m ∧ j ≠ k := by simp [sdel]

@[simp] theorem mem_sput (m : List Nat) (k j : Nat) (b : Bool) : j ∈ sput m k b ↔ if j = k then b = true else j ∈ m := by
  cases b <;> by_cases h : j = k <;> simp [sput, h]

/-! ### Folds -/

/-- What one turn of a fold keeps, the fold keeps. -/
theorem foldl_keeps {σ β : Type} (P : σ → Prop) (f : σ → β → σ) (l : List β) (s : σ) (h : P s) (step : ∀ t x, P t → P (f t x)) :
    P (l.foldl f s) := by
  induction l generalizing s with
  | nil => exact h
  | cons x r ih => exact ih _ (step s x h)

/-- A field that no turn of a fold changes. -/
theorem foldl_field {σ β γ : Type} (g : σ → γ) (f : σ → β → σ) (l : List β) (s : σ) (step : ∀ t x, g (f t x) = g t) :
    g (l.foldl f s) = g s := by
  induction l generalizing s with
  | nil => rfl
  | cons x r ih => rw [List.foldl_cons, ih, step]

end Sys2Proof.Machine
end

