-- ==== Sys2Proof/Laws/State.lean ====
section
/-! SUPPORT. The fields of the state after each named update: one lemma for each field an update leaves alone, and what each kind of entry reads as after it is written. -/

namespace Sys2Proof.Machine

variable (s : State)

/-! ### tock -/

@[simp] theorem State.tock_pending : (s.tock).pending = s.pending := rfl
@[simp] theorem State.tock_regs : (s.tock).regs = s.regs := rfl
@[simp] theorem State.tock_strobed : (s.tock).strobed = s.strobed := rfl
@[simp] theorem State.tock_pairs : (s.tock).pairs = s.pairs := rfl
@[simp] theorem State.tock_applying : (s.tock).applying = s.applying := rfl
@[simp] theorem State.tock_mem : (s.tock).mem = s.mem := rfl
@[simp] theorem State.tock_poison : (s.tock).poison = s.poison := rfl
@[simp] theorem State.tock_imem : (s.tock).imem = s.imem := rfl
@[simp] theorem State.tock_imemPoison : (s.tock).imemPoison = s.imemPoison := rfl
@[simp] theorem State.tock_gpr : (s.tock).gpr = s.gpr := rfl
@[simp] theorem State.tock_preds : (s.tock).preds = s.preds := rfl
@[simp] theorem State.tock_rotors : (s.tock).rotors = s.rotors := rfl
@[simp] theorem State.tock_groups : (s.tock).groups = s.groups := rfl
@[simp] theorem State.tock_kernels : (s.tock).kernels = s.kernels := rfl
@[simp] theorem State.tock_cells : (s.tock).cells = s.cells := rfl
@[simp] theorem State.tock_acc : (s.tock).acc = s.acc := rfl
@[simp] theorem State.tock_mx : (s.tock).mx = s.mx := rfl
@[simp] theorem State.tock_unused : (s.tock).unused = s.unused := rfl
@[simp] theorem State.tock_slots : (s.tock).slots = s.slots := rfl
@[simp] theorem State.tock_vaults : (s.tock).vaults = s.vaults := rfl
@[simp] theorem State.tock_tsScrub : (s.tock).tsScrub = s.tsScrub := rfl
@[simp] theorem State.tock_lines : (s.tock).lines = s.lines := rfl
@[simp] theorem State.tock_replPtr : (s.tock).replPtr = s.replPtr := rfl
@[simp] theorem State.tock_halves : (s.tock).halves = s.halves := rfl
@[simp] theorem State.tock_cacheQ : (s.tock).cacheQ = s.cacheQ := rfl
@[simp] theorem State.tock_routes : (s.tock).routes = s.routes := rfl
@[simp] theorem State.tock_regions : (s.tock).regions = s.regions := rfl
@[simp] theorem State.tock_kmaps : (s.tock).kmaps = s.kmaps := rfl
@[simp] theorem State.tock_replicas : (s.tock).replicas = s.replicas := rfl
@[simp] theorem State.tock_homeQ : (s.tock).homeQ = s.homeQ := rfl
@[simp] theorem State.tock_ops : (s.tock).ops = s.ops := rfl
@[simp] theorem State.tock_transit : (s.tock).transit = s.transit := rfl
@[simp] theorem State.tock_discarded : (s.tock).discarded = s.discarded := rfl
@[simp] theorem State.tock_rtMem : (s.tock).rtMem = s.rtMem := rfl
@[simp] theorem State.tock_keeper : (s.tock).keeper = s.keeper := rfl
@[simp] theorem State.tock_links : (s.tock).links = s.links := rfl
@[simp] theorem State.tock_chans : (s.tock).chans = s.chans := rfl
@[simp] theorem State.tock_dma : (s.tock).dma = s.dma := rfl
@[simp] theorem State.tock_rings : (s.tock).rings = s.rings := rfl
@[simp] theorem State.tock_parts : (s.tock).parts = s.parts := rfl
@[simp] theorem State.tock_scrubs : (s.tock).scrubs = s.scrubs := rfl
@[simp] theorem State.tock_lists : (s.tock).lists = s.lists := rfl
@[simp] theorem State.tock_rotas : (s.tock).rotas = s.rotas := rfl
@[simp] theorem State.tock_frame : (s.tock).frame = s.frame := rfl
@[simp] theorem State.tock_checker : (s.tock).checker = s.checker := rfl
@[simp] theorem State.tock_recorder : (s.tock).recorder = s.recorder := rfl
@[simp] theorem State.tock_power : (s.tock).power = s.power := rfl
@[simp] theorem State.tock_startup : (s.tock).startup = s.startup := rfl
@[simp] theorem State.tock_flash : (s.tock).flash = s.flash := rfl
@[simp] theorem State.tock_sec : (s.tock).sec = s.sec := rfl
@[simp] theorem State.tock_tap : (s.tock).tap = s.tap := rfl
@[simp] theorem State.tock_cores : (s.tock).cores = s.cores := rfl
@[simp] theorem State.tock_steps : (s.tock).steps = s.steps := rfl
@[simp] theorem State.tock_host : (s.tock).host = s.host := rfl

/-! ### wr -/

@[simp] theorem State.wr_pending (o : Nat) (v : Word) : (s.wr o v).pending = s.pending := rfl
@[simp] theorem State.wr_tick (o : Nat) (v : Word) : (s.wr o v).tick = s.tick := rfl
@[simp] theorem State.wr_strobed (o : Nat) (v : Word) : (s.wr o v).strobed = s.strobed := rfl
@[simp] theorem State.wr_pairs (o : Nat) (v : Word) : (s.wr o v).pairs = s.pairs := rfl
@[simp] theorem State.wr_applying (o : Nat) (v : Word) : (s.wr o v).applying = s.applying := rfl
@[simp] theorem State.wr_mem (o : Nat) (v : Word) : (s.wr o v).mem = s.mem := rfl
@[simp] theorem State.wr_poison (o : Nat) (v : Word) : (s.wr o v).poison = s.poison := rfl
@[simp] theorem State.wr_imem (o : Nat) (v : Word) : (s.wr o v).imem = s.imem := rfl
@[simp] theorem State.wr_imemPoison (o : Nat) (v : Word) : (s.wr o v).imemPoison = s.imemPoison := rfl
@[simp] theorem State.wr_gpr (o : Nat) (v : Word) : (s.wr o v).gpr = s.gpr := rfl
@[simp] theorem State.wr_preds (o : Nat) (v : Word) : (s.wr o v).preds = s.preds := rfl
@[simp] theorem State.wr_rotors (o : Nat) (v : Word) : (s.wr o v).rotors = s.rotors := rfl
@[simp] theorem State.wr_groups (o : Nat) (v : Word) : (s.wr o v).groups = s.groups := rfl
@[simp] theorem State.wr_kernels (o : Nat) (v : Word) : (s.wr o v).kernels = s.kernels := rfl
@[simp] theorem State.wr_cells (o : Nat) (v : Word) : (s.wr o v).cells = s.cells := rfl
@[simp] theorem State.wr_acc (o : Nat) (v : Word) : (s.wr o v).acc = s.acc := rfl
@[simp] theorem State.wr_mx (o : Nat) (v : Word) : (s.wr o v).mx = s.mx := rfl
@[simp] theorem State.wr_unused (o : Nat) (v : Word) : (s.wr o v).unused = s.unused := rfl
@[simp] theorem State.wr_slots (o : Nat) (v : Word) : (s.wr o v).slots = s.slots := rfl
@[simp] theorem State.wr_vaults (o : Nat) (v : Word) : (s.wr o v).vaults = s.vaults := rfl
@[simp] theorem State.wr_tsScrub (o : Nat) (v : Word) : (s.wr o v).tsScrub = s.tsScrub := rfl
@[simp] theorem State.wr_lines (o : Nat) (v : Word) : (s.wr o v).lines = s.lines := rfl
@[simp] theorem State.wr_replPtr (o : Nat) (v : Word) : (s.wr o v).replPtr = s.replPtr := rfl
@[simp] theorem State.wr_halves (o : Nat) (v : Word) : (s.wr o v).halves = s.halves := rfl
@[simp] theorem State.wr_cacheQ (o : Nat) (v : Word) : (s.wr o v).cacheQ = s.cacheQ := rfl
@[simp] theorem State.wr_routes (o : Nat) (v : Word) : (s.wr o v).routes = s.routes := rfl
@[simp] theorem State.wr_regions (o : Nat) (v : Word) : (s.wr o v).regions = s.regions := rfl
@[simp] theorem State.wr_kmaps (o : Nat) (v : Word) : (s.wr o v).kmaps = s.kmaps := rfl
@[simp] theorem State.wr_replicas (o : Nat) (v : Word) : (s.wr o v).replicas = s.replicas := rfl
@[simp] theorem State.wr_homeQ (o : Nat) (v : Word) : (s.wr o v).homeQ = s.homeQ := rfl
@[simp] theorem State.wr_ops (o : Nat) (v : Word) : (s.wr o v).ops = s.ops := rfl
@[simp] theorem State.wr_transit (o : Nat) (v : Word) : (s.wr o v).transit = s.transit := rfl
@[simp] theorem State.wr_discarded (o : Nat) (v : Word) : (s.wr o v).discarded = s.discarded := rfl
@[simp] theorem State.wr_rtMem (o : Nat) (v : Word) : (s.wr o v).rtMem = s.rtMem := rfl
@[simp] theorem State.wr_keeper (o : Nat) (v : Word) : (s.wr o v).keeper = s.keeper := rfl
@[simp] theorem State.wr_links (o : Nat) (v : Word) : (s.wr o v).links = s.links := rfl
@[simp] theorem State.wr_chans (o : Nat) (v : Word) : (s.wr o v).chans = s.chans := rfl
@[simp] theorem State.wr_dma (o : Nat) (v : Word) : (s.wr o v).dma = s.dma := rfl
@[simp] theorem State.wr_rings (o : Nat) (v : Word) : (s.wr o v).rings = s.rings := rfl
@[simp] theorem State.wr_parts (o : Nat) (v : Word) : (s.wr o v).parts = s.parts := rfl
@[simp] theorem State.wr_scrubs (o : Nat) (v : Word) : (s.wr o v).scrubs = s.scrubs := rfl
@[simp] theorem State.wr_lists (o : Nat) (v : Word) : (s.wr o v).lists = s.lists := rfl
@[simp] theorem State.wr_rotas (o : Nat) (v : Word) : (s.wr o v).rotas = s.rotas := rfl
@[simp] theorem State.wr_frame (o : Nat) (v : Word) : (s.wr o v).frame = s.frame := rfl
@[simp] theorem State.wr_checker (o : Nat) (v : Word) : (s.wr o v).checker = s.checker := rfl
@[simp] theorem State.wr_recorder (o : Nat) (v : Word) : (s.wr o v).recorder = s.recorder := rfl
@[simp] theorem State.wr_power (o : Nat) (v : Word) : (s.wr o v).power = s.power := rfl
@[simp] theorem State.wr_startup (o : Nat) (v : Word) : (s.wr o v).startup = s.startup := rfl
@[simp] theorem State.wr_flash (o : Nat) (v : Word) : (s.wr o v).flash = s.flash := rfl
@[simp] theorem State.wr_sec (o : Nat) (v : Word) : (s.wr o v).sec = s.sec := rfl
@[simp] theorem State.wr_tap (o : Nat) (v : Word) : (s.wr o v).tap = s.tap := rfl
@[simp] theorem State.wr_cores (o : Nat) (v : Word) : (s.wr o v).cores = s.cores := rfl
@[simp] theorem State.wr_steps (o : Nat) (v : Word) : (s.wr o v).steps = s.steps := rfl
@[simp] theorem State.wr_host (o : Nat) (v : Word) : (s.wr o v).host = s.host := rfl

/-! ### wrF -/

@[simp] theorem State.wrF_pending (o lo w x : Nat) : (s.wrF o lo w x).pending = s.pending := rfl
@[simp] theorem State.wrF_tick (o lo w x : Nat) : (s.wrF o lo w x).tick = s.tick := rfl
@[simp] theorem State.wrF_strobed (o lo w x : Nat) : (s.wrF o lo w x).strobed = s.strobed := rfl
@[simp] theorem State.wrF_pairs (o lo w x : Nat) : (s.wrF o lo w x).pairs = s.pairs := rfl
@[simp] theorem State.wrF_applying (o lo w x : Nat) : (s.wrF o lo w x).applying = s.applying := rfl
@[simp] theorem State.wrF_mem (o lo w x : Nat) : (s.wrF o lo w x).mem = s.mem := rfl
@[simp] theorem State.wrF_poison (o lo w x : Nat) : (s.wrF o lo w x).poison = s.poison := rfl
@[simp] theorem State.wrF_imem (o lo w x : Nat) : (s.wrF o lo w x).imem = s.imem := rfl
@[simp] theorem State.wrF_imemPoison (o lo w x : Nat) : (s.wrF o lo w x).imemPoison = s.imemPoison := rfl
@[simp] theorem State.wrF_gpr (o lo w x : Nat) : (s.wrF o lo w x).gpr = s.gpr := rfl
@[simp] theorem State.wrF_preds (o lo w x : Nat) : (s.wrF o lo w x).preds = s.preds := rfl
@[simp] theorem State.wrF_rotors (o lo w x : Nat) : (s.wrF o lo w x).rotors = s.rotors := rfl
@[simp] theorem State.wrF_groups (o lo w x : Nat) : (s.wrF o lo w x).groups = s.groups := rfl
@[simp] theorem State.wrF_kernels (o lo w x : Nat) : (s.wrF o lo w x).kernels = s.kernels := rfl
@[simp] theorem State.wrF_cells (o lo w x : Nat) : (s.wrF o lo w x).cells = s.cells := rfl
@[simp] theorem State.wrF_acc (o lo w x : Nat) : (s.wrF o lo w x).acc = s.acc := rfl
@[simp] theorem State.wrF_mx (o lo w x : Nat) : (s.wrF o lo w x).mx = s.mx := rfl
@[simp] theorem State.wrF_unused (o lo w x : Nat) : (s.wrF o lo w x).unused = s.unused := rfl
@[simp] theorem State.wrF_slots (o lo w x : Nat) : (s.wrF o lo w x).slots = s.slots := rfl
@[simp] theorem State.wrF_vaults (o lo w x : Nat) : (s.wrF o lo w x).vaults = s.vaults := rfl
@[simp] theorem State.wrF_tsScrub (o lo w x : Nat) : (s.wrF o lo w x).tsScrub = s.tsScrub := rfl
@[simp] theorem State.wrF_lines (o lo w x : Nat) : (s.wrF o lo w x).lines = s.lines := rfl
@[simp] theorem State.wrF_replPtr (o lo w x : Nat) : (s.wrF o lo w x).replPtr = s.replPtr := rfl
@[simp] theorem State.wrF_halves (o lo w x : Nat) : (s.wrF o lo w x).halves = s.halves := rfl
@[simp] theorem State.wrF_cacheQ (o lo w x : Nat) : (s.wrF o lo w x).cacheQ = s.cacheQ := rfl
@[simp] theorem State.wrF_routes (o lo w x : Nat) : (s.wrF o lo w x).routes = s.routes := rfl
@[simp] theorem State.wrF_regions (o lo w x : Nat) : (s.wrF o lo w x).regions = s.regions := rfl
@[simp] theorem State.wrF_kmaps (o lo w x : Nat) : (s.wrF o lo w x).kmaps = s.kmaps := rfl
@[simp] theorem State.wrF_replicas (o lo w x : Nat) : (s.wrF o lo w x).replicas = s.replicas := rfl
@[simp] theorem State.wrF_homeQ (o lo w x : Nat) : (s.wrF o lo w x).homeQ = s.homeQ := rfl
@[simp] theorem State.wrF_ops (o lo w x : Nat) : (s.wrF o lo w x).ops = s.ops := rfl
@[simp] theorem State.wrF_transit (o lo w x : Nat) : (s.wrF o lo w x).transit = s.transit := rfl
@[simp] theorem State.wrF_discarded (o lo w x : Nat) : (s.wrF o lo w x).discarded = s.discarded := rfl
@[simp] theorem State.wrF_rtMem (o lo w x : Nat) : (s.wrF o lo w x).rtMem = s.rtMem := rfl
@[simp] theorem State.wrF_keeper (o lo w x : Nat) : (s.wrF o lo w x).keeper = s.keeper := rfl
@[simp] theorem State.wrF_links (o lo w x : Nat) : (s.wrF o lo w x).links = s.links := rfl
@[simp] theorem State.wrF_chans (o lo w x : Nat) : (s.wrF o lo w x).chans = s.chans := rfl
@[simp] theorem State.wrF_dma (o lo w x : Nat) : (s.wrF o lo w x).dma = s.dma := rfl
@[simp] theorem State.wrF_rings (o lo w x : Nat) : (s.wrF o lo w x).rings = s.rings := rfl
@[simp] theorem State.wrF_parts (o lo w x : Nat) : (s.wrF o lo w x).parts = s.parts := rfl
@[simp] theorem State.wrF_scrubs (o lo w x : Nat) : (s.wrF o lo w x).scrubs = s.scrubs := rfl
@[simp] theorem State.wrF_lists (o lo w x : Nat) : (s.wrF o lo w x).lists = s.lists := rfl
@[simp] theorem State.wrF_rotas (o lo w x : Nat) : (s.wrF o lo w x).rotas = s.rotas := rfl
@[simp] theorem State.wrF_frame (o lo w x : Nat) : (s.wrF o lo w x).frame = s.frame := rfl
@[simp] theorem State.wrF_checker (o lo w x : Nat) : (s.wrF o lo w x).checker = s.checker := rfl
@[simp] theorem State.wrF_recorder (o lo w x : Nat) : (s.wrF o lo w x).recorder = s.recorder := rfl
@[simp] theorem State.wrF_power (o lo w x : Nat) : (s.wrF o lo w x).power = s.power := rfl
@[simp] theorem State.wrF_startup (o lo w x : Nat) : (s.wrF o lo w x).startup = s.startup := rfl
@[simp] theorem State.wrF_flash (o lo w x : Nat) : (s.wrF o lo w x).flash = s.flash := rfl
@[simp] theorem State.wrF_sec (o lo w x : Nat) : (s.wrF o lo w x).sec = s.sec := rfl
@[simp] theorem State.wrF_tap (o lo w x : Nat) : (s.wrF o lo w x).tap = s.tap := rfl
@[simp] theorem State.wrF_cores (o lo w x : Nat) : (s.wrF o lo w x).cores = s.cores := rfl
@[simp] theorem State.wrF_steps (o lo w x : Nat) : (s.wrF o lo w x).steps = s.steps := rfl
@[simp] theorem State.wrF_host (o lo w x : Nat) : (s.wrF o lo w x).host = s.host := rfl

/-! ### bump -/

@[simp] theorem State.bump_pending (o lo w n : Nat) : (s.bump o lo w n).pending = s.pending := rfl
@[simp] theorem State.bump_tick (o lo w n : Nat) : (s.bump o lo w n).tick = s.tick := rfl
@[simp] theorem State.bump_strobed (o lo w n : Nat) : (s.bump o lo w n).strobed = s.strobed := rfl
@[simp] theorem State.bump_pairs (o lo w n : Nat) : (s.bump o lo w n).pairs = s.pairs := rfl
@[simp] theorem State.bump_applying (o lo w n : Nat) : (s.bump o lo w n).applying = s.applying := rfl
@[simp] theorem State.bump_mem (o lo w n : Nat) : (s.bump o lo w n).mem = s.mem := rfl
@[simp] theorem State.bump_poison (o lo w n : Nat) : (s.bump o lo w n).poison = s.poison := rfl
@[simp] theorem State.bump_imem (o lo w n : Nat) : (s.bump o lo w n).imem = s.imem := rfl
@[simp] theorem State.bump_imemPoison (o lo w n : Nat) : (s.bump o lo w n).imemPoison = s.imemPoison := rfl
@[simp] theorem State.bump_gpr (o lo w n : Nat) : (s.bump o lo w n).gpr = s.gpr := rfl
@[simp] theorem State.bump_preds (o lo w n : Nat) : (s.bump o lo w n).preds = s.preds := rfl
@[simp] theorem State.bump_rotors (o lo w n : Nat) : (s.bump o lo w n).rotors = s.rotors := rfl
@[simp] theorem State.bump_groups (o lo w n : Nat) : (s.bump o lo w n).groups = s.groups := rfl
@[simp] theorem State.bump_kernels (o lo w n : Nat) : (s.bump o lo w n).kernels = s.kernels := rfl
@[simp] theorem State.bump_cells (o lo w n : Nat) : (s.bump o lo w n).cells = s.cells := rfl
@[simp] theorem State.bump_acc (o lo w n : Nat) : (s.bump o lo w n).acc = s.acc := rfl
@[simp] theorem State.bump_mx (o lo w n : Nat) : (s.bump o lo w n).mx = s.mx := rfl
@[simp] theorem State.bump_unused (o lo w n : Nat) : (s.bump o lo w n).unused = s.unused := rfl
@[simp] theorem State.bump_slots (o lo w n : Nat) : (s.bump o lo w n).slots = s.slots := rfl
@[simp] theorem State.bump_vaults (o lo w n : Nat) : (s.bump o lo w n).vaults = s.vaults := rfl
@[simp] theorem State.bump_tsScrub (o lo w n : Nat) : (s.bump o lo w n).tsScrub = s.tsScrub := rfl
@[simp] theorem State.bump_lines (o lo w n : Nat) : (s.bump o lo w n).lines = s.lines := rfl
@[simp] theorem State.bump_replPtr (o lo w n : Nat) : (s.bump o lo w n).replPtr = s.replPtr := rfl
@[simp] theorem State.bump_halves (o lo w n : Nat) : (s.bump o lo w n).halves = s.halves := rfl
@[simp] theorem State.bump_cacheQ (o lo w n : Nat) : (s.bump o lo w n).cacheQ = s.cacheQ := rfl
@[simp] theorem State.bump_routes (o lo w n : Nat) : (s.bump o lo w n).routes = s.routes := rfl
@[simp] theorem State.bump_regions (o lo w n : Nat) : (s.bump o lo w n).regions = s.regions := rfl
@[simp] theorem State.bump_kmaps (o lo w n : Nat) : (s.bump o lo w n).kmaps = s.kmaps := rfl
@[simp] theorem State.bump_replicas (o lo w n : Nat) : (s.bump o lo w n).replicas = s.replicas := rfl
@[simp] theorem State.bump_homeQ (o lo w n : Nat) : (s.bump o lo w n).homeQ = s.homeQ := rfl
@[simp] theorem State.bump_ops (o lo w n : Nat) : (s.bump o lo w n).ops = s.ops := rfl
@[simp] theorem State.bump_transit (o lo w n : Nat) : (s.bump o lo w n).transit = s.transit := rfl
@[simp] theorem State.bump_discarded (o lo w n : Nat) : (s.bump o lo w n).discarded = s.discarded := rfl
@[simp] theorem State.bump_rtMem (o lo w n : Nat) : (s.bump o lo w n).rtMem = s.rtMem := rfl
@[simp] theorem State.bump_keeper (o lo w n : Nat) : (s.bump o lo w n).keeper = s.keeper := rfl
@[simp] theorem State.bump_links (o lo w n : Nat) : (s.bump o lo w n).links = s.links := rfl
@[simp] theorem State.bump_chans (o lo w n : Nat) : (s.bump o lo w n).chans = s.chans := rfl
@[simp] theorem State.bump_dma (o lo w n : Nat) : (s.bump o lo w n).dma = s.dma := rfl
@[simp] theorem State.bump_rings (o lo w n : Nat) : (s.bump o lo w n).rings = s.rings := rfl
@[simp] theorem State.bump_parts (o lo w n : Nat) : (s.bump o lo w n).parts = s.parts := rfl
@[simp] theorem State.bump_scrubs (o lo w n : Nat) : (s.bump o lo w n).scrubs = s.scrubs := rfl
@[simp] theorem State.bump_lists (o lo w n : Nat) : (s.bump o lo w n).lists = s.lists := rfl
@[simp] theorem State.bump_rotas (o lo w n : Nat) : (s.bump o lo w n).rotas = s.rotas := rfl
@[simp] theorem State.bump_frame (o lo w n : Nat) : (s.bump o lo w n).frame = s.frame := rfl
@[simp] theorem State.bump_checker (o lo w n : Nat) : (s.bump o lo w n).checker = s.checker := rfl
@[simp] theorem State.bump_recorder (o lo w n : Nat) : (s.bump o lo w n).recorder = s.recorder := rfl
@[simp] theorem State.bump_power (o lo w n : Nat) : (s.bump o lo w n).power = s.power := rfl
@[simp] theorem State.bump_startup (o lo w n : Nat) : (s.bump o lo w n).startup = s.startup := rfl
@[simp] theorem State.bump_flash (o lo w n : Nat) : (s.bump o lo w n).flash = s.flash := rfl
@[simp] theorem State.bump_sec (o lo w n : Nat) : (s.bump o lo w n).sec = s.sec := rfl
@[simp] theorem State.bump_tap (o lo w n : Nat) : (s.bump o lo w n).tap = s.tap := rfl
@[simp] theorem State.bump_cores (o lo w n : Nat) : (s.bump o lo w n).cores = s.cores := rfl
@[simp] theorem State.bump_steps (o lo w n : Nat) : (s.bump o lo w n).steps = s.steps := rfl
@[simp] theorem State.bump_host (o lo w n : Nat) : (s.bump o lo w n).host = s.host := rfl

/-! ### bumpWrap -/

@[simp] theorem State.bumpWrap_pending (o lo w n : Nat) : (s.bumpWrap o lo w n).pending = s.pending := rfl
@[simp] theorem State.bumpWrap_tick (o lo w n : Nat) : (s.bumpWrap o lo w n).tick = s.tick := rfl
@[simp] theorem State.bumpWrap_strobed (o lo w n : Nat) : (s.bumpWrap o lo w n).strobed = s.strobed := rfl
@[simp] theorem State.bumpWrap_pairs (o lo w n : Nat) : (s.bumpWrap o lo w n).pairs = s.pairs := rfl
@[simp] theorem State.bumpWrap_applying (o lo w n : Nat) : (s.bumpWrap o lo w n).applying = s.applying := rfl
@[simp] theorem State.bumpWrap_mem (o lo w n : Nat) : (s.bumpWrap o lo w n).mem = s.mem := rfl
@[simp] theorem State.bumpWrap_poison (o lo w n : Nat) : (s.bumpWrap o lo w n).poison = s.poison := rfl
@[simp] theorem State.bumpWrap_imem (o lo w n : Nat) : (s.bumpWrap o lo w n).imem = s.imem := rfl
@[simp] theorem State.bumpWrap_imemPoison (o lo w n : Nat) : (s.bumpWrap o lo w n).imemPoison = s.imemPoison := rfl
@[simp] theorem State.bumpWrap_gpr (o lo w n : Nat) : (s.bumpWrap o lo w n).gpr = s.gpr := rfl
@[simp] theorem State.bumpWrap_preds (o lo w n : Nat) : (s.bumpWrap o lo w n).preds = s.preds := rfl
@[simp] theorem State.bumpWrap_rotors (o lo w n : Nat) : (s.bumpWrap o lo w n).rotors = s.rotors := rfl
@[simp] theorem State.bumpWrap_groups (o lo w n : Nat) : (s.bumpWrap o lo w n).groups = s.groups := rfl
@[simp] theorem State.bumpWrap_kernels (o lo w n : Nat) : (s.bumpWrap o lo w n).kernels = s.kernels := rfl
@[simp] theorem State.bumpWrap_cells (o lo w n : Nat) : (s.bumpWrap o lo w n).cells = s.cells := rfl
@[simp] theorem State.bumpWrap_acc (o lo w n : Nat) : (s.bumpWrap o lo w n).acc = s.acc := rfl
@[simp] theorem State.bumpWrap_mx (o lo w n : Nat) : (s.bumpWrap o lo w n).mx = s.mx := rfl
@[simp] theorem State.bumpWrap_unused (o lo w n : Nat) : (s.bumpWrap o lo w n).unused = s.unused := rfl
@[simp] theorem State.bumpWrap_slots (o lo w n : Nat) : (s.bumpWrap o lo w n).slots = s.slots := rfl
@[simp] theorem State.bumpWrap_vaults (o lo w n : Nat) : (s.bumpWrap o lo w n).vaults = s.vaults := rfl
@[simp] theorem State.bumpWrap_tsScrub (o lo w n : Nat) : (s.bumpWrap o lo w n).tsScrub = s.tsScrub := rfl
@[simp] theorem State.bumpWrap_lines (o lo w n : Nat) : (s.bumpWrap o lo w n).lines = s.lines := rfl
@[simp] theorem State.bumpWrap_replPtr (o lo w n : Nat) : (s.bumpWrap o lo w n).replPtr = s.replPtr := rfl
@[simp] theorem State.bumpWrap_halves (o lo w n : Nat) : (s.bumpWrap o lo w n).halves = s.halves := rfl
@[simp] theorem State.bumpWrap_cacheQ (o lo w n : Nat) : (s.bumpWrap o lo w n).cacheQ = s.cacheQ := rfl
@[simp] theorem State.bumpWrap_routes (o lo w n : Nat) : (s.bumpWrap o lo w n).routes = s.routes := rfl
@[simp] theorem State.bumpWrap_regions (o lo w n : Nat) : (s.bumpWrap o lo w n).regions = s.regions := rfl
@[simp] theorem State.bumpWrap_kmaps (o lo w n : Nat) : (s.bumpWrap o lo w n).kmaps = s.kmaps := rfl
@[simp] theorem State.bumpWrap_replicas (o lo w n : Nat) : (s.bumpWrap o lo w n).replicas = s.replicas := rfl
@[simp] theorem State.bumpWrap_homeQ (o lo w n : Nat) : (s.bumpWrap o lo w n).homeQ = s.homeQ := rfl
@[simp] theorem State.bumpWrap_ops (o lo w n : Nat) : (s.bumpWrap o lo w n).ops = s.ops := rfl
@[simp] theorem State.bumpWrap_transit (o lo w n : Nat) : (s.bumpWrap o lo w n).transit = s.transit := rfl
@[simp] theorem State.bumpWrap_discarded (o lo w n : Nat) : (s.bumpWrap o lo w n).discarded = s.discarded := rfl
@[simp] theorem State.bumpWrap_rtMem (o lo w n : Nat) : (s.bumpWrap o lo w n).rtMem = s.rtMem := rfl
@[simp] theorem State.bumpWrap_keeper (o lo w n : Nat) : (s.bumpWrap o lo w n).keeper = s.keeper := rfl
@[simp] theorem State.bumpWrap_links (o lo w n : Nat) : (s.bumpWrap o lo w n).links = s.links := rfl
@[simp] theorem State.bumpWrap_chans (o lo w n : Nat) : (s.bumpWrap o lo w n).chans = s.chans := rfl
@[simp] theorem State.bumpWrap_dma (o lo w n : Nat) : (s.bumpWrap o lo w n).dma = s.dma := rfl
@[simp] theorem State.bumpWrap_rings (o lo w n : Nat) : (s.bumpWrap o lo w n).rings = s.rings := rfl
@[simp] theorem State.bumpWrap_parts (o lo w n : Nat) : (s.bumpWrap o lo w n).parts = s.parts := rfl
@[simp] theorem State.bumpWrap_scrubs (o lo w n : Nat) : (s.bumpWrap o lo w n).scrubs = s.scrubs := rfl
@[simp] theorem State.bumpWrap_lists (o lo w n : Nat) : (s.bumpWrap o lo w n).lists = s.lists := rfl
@[simp] theorem State.bumpWrap_rotas (o lo w n : Nat) : (s.bumpWrap o lo w n).rotas = s.rotas := rfl
@[simp] theorem State.bumpWrap_frame (o lo w n : Nat) : (s.bumpWrap o lo w n).frame = s.frame := rfl
@[simp] theorem State.bumpWrap_checker (o lo w n : Nat) : (s.bumpWrap o lo w n).checker = s.checker := rfl
@[simp] theorem State.bumpWrap_recorder (o lo w n : Nat) : (s.bumpWrap o lo w n).recorder = s.recorder := rfl
@[simp] theorem State.bumpWrap_power (o lo w n : Nat) : (s.bumpWrap o lo w n).power = s.power := rfl
@[simp] theorem State.bumpWrap_startup (o lo w n : Nat) : (s.bumpWrap o lo w n).startup = s.startup := rfl
@[simp] theorem State.bumpWrap_flash (o lo w n : Nat) : (s.bumpWrap o lo w n).flash = s.flash := rfl
@[simp] theorem State.bumpWrap_sec (o lo w n : Nat) : (s.bumpWrap o lo w n).sec = s.sec := rfl
@[simp] theorem State.bumpWrap_tap (o lo w n : Nat) : (s.bumpWrap o lo w n).tap = s.tap := rfl
@[simp] theorem State.bumpWrap_cores (o lo w n : Nat) : (s.bumpWrap o lo w n).cores = s.cores := rfl
@[simp] theorem State.bumpWrap_steps (o lo w n : Nat) : (s.bumpWrap o lo w n).steps = s.steps := rfl
@[simp] theorem State.bumpWrap_host (o lo w n : Nat) : (s.bumpWrap o lo w n).host = s.host := rfl

/-! ### setPhase -/

@[simp] theorem State.setPhase_pending (p ph : Nat) : (s.setPhase p ph).pending = s.pending := rfl
@[simp] theorem State.setPhase_tick (p ph : Nat) : (s.setPhase p ph).tick = s.tick := rfl
@[simp] theorem State.setPhase_strobed (p ph : Nat) : (s.setPhase p ph).strobed = s.strobed := rfl
@[simp] theorem State.setPhase_pairs (p ph : Nat) : (s.setPhase p ph).pairs = s.pairs := rfl
@[simp] theorem State.setPhase_applying (p ph : Nat) : (s.setPhase p ph).applying = s.applying := rfl
@[simp] theorem State.setPhase_mem (p ph : Nat) : (s.setPhase p ph).mem = s.mem := rfl
@[simp] theorem State.setPhase_poison (p ph : Nat) : (s.setPhase p ph).poison = s.poison := rfl
@[simp] theorem State.setPhase_imem (p ph : Nat) : (s.setPhase p ph).imem = s.imem := rfl
@[simp] theorem State.setPhase_imemPoison (p ph : Nat) : (s.setPhase p ph).imemPoison = s.imemPoison := rfl
@[simp] theorem State.setPhase_gpr (p ph : Nat) : (s.setPhase p ph).gpr = s.gpr := rfl
@[simp] theorem State.setPhase_preds (p ph : Nat) : (s.setPhase p ph).preds = s.preds := rfl
@[simp] theorem State.setPhase_rotors (p ph : Nat) : (s.setPhase p ph).rotors = s.rotors := rfl
@[simp] theorem State.setPhase_groups (p ph : Nat) : (s.setPhase p ph).groups = s.groups := rfl
@[simp] theorem State.setPhase_kernels (p ph : Nat) : (s.setPhase p ph).kernels = s.kernels := rfl
@[simp] theorem State.setPhase_cells (p ph : Nat) : (s.setPhase p ph).cells = s.cells := rfl
@[simp] theorem State.setPhase_acc (p ph : Nat) : (s.setPhase p ph).acc = s.acc := rfl
@[simp] theorem State.setPhase_mx (p ph : Nat) : (s.setPhase p ph).mx = s.mx := rfl
@[simp] theorem State.setPhase_unused (p ph : Nat) : (s.setPhase p ph).unused = s.unused := rfl
@[simp] theorem State.setPhase_slots (p ph : Nat) : (s.setPhase p ph).slots = s.slots := rfl
@[simp] theorem State.setPhase_vaults (p ph : Nat) : (s.setPhase p ph).vaults = s.vaults := rfl
@[simp] theorem State.setPhase_tsScrub (p ph : Nat) : (s.setPhase p ph).tsScrub = s.tsScrub := rfl
@[simp] theorem State.setPhase_lines (p ph : Nat) : (s.setPhase p ph).lines = s.lines := rfl
@[simp] theorem State.setPhase_replPtr (p ph : Nat) : (s.setPhase p ph).replPtr = s.replPtr := rfl
@[simp] theorem State.setPhase_halves (p ph : Nat) : (s.setPhase p ph).halves = s.halves := rfl
@[simp] theorem State.setPhase_cacheQ (p ph : Nat) : (s.setPhase p ph).cacheQ = s.cacheQ := rfl
@[simp] theorem State.setPhase_routes (p ph : Nat) : (s.setPhase p ph).routes = s.routes := rfl
@[simp] theorem State.setPhase_regions (p ph : Nat) : (s.setPhase p ph).regions = s.regions := rfl
@[simp] theorem State.setPhase_kmaps (p ph : Nat) : (s.setPhase p ph).kmaps = s.kmaps := rfl
@[simp] theorem State.setPhase_replicas (p ph : Nat) : (s.setPhase p ph).replicas = s.replicas := rfl
@[simp] theorem State.setPhase_homeQ (p ph : Nat) : (s.setPhase p ph).homeQ = s.homeQ := rfl
@[simp] theorem State.setPhase_ops (p ph : Nat) : (s.setPhase p ph).ops = s.ops := rfl
@[simp] theorem State.setPhase_transit (p ph : Nat) : (s.setPhase p ph).transit = s.transit := rfl
@[simp] theorem State.setPhase_discarded (p ph : Nat) : (s.setPhase p ph).discarded = s.discarded := rfl
@[simp] theorem State.setPhase_rtMem (p ph : Nat) : (s.setPhase p ph).rtMem = s.rtMem := rfl
@[simp] theorem State.setPhase_keeper (p ph : Nat) : (s.setPhase p ph).keeper = s.keeper := rfl
@[simp] theorem State.setPhase_links (p ph : Nat) : (s.setPhase p ph).links = s.links := rfl
@[simp] theorem State.setPhase_chans (p ph : Nat) : (s.setPhase p ph).chans = s.chans := rfl
@[simp] theorem State.setPhase_dma (p ph : Nat) : (s.setPhase p ph).dma = s.dma := rfl
@[simp] theorem State.setPhase_rings (p ph : Nat) : (s.setPhase p ph).rings = s.rings := rfl
@[simp] theorem State.setPhase_parts (p ph : Nat) : (s.setPhase p ph).parts = s.parts := rfl
@[simp] theorem State.setPhase_scrubs (p ph : Nat) : (s.setPhase p ph).scrubs = s.scrubs := rfl
@[simp] theorem State.setPhase_lists (p ph : Nat) : (s.setPhase p ph).lists = s.lists := rfl
@[simp] theorem State.setPhase_rotas (p ph : Nat) : (s.setPhase p ph).rotas = s.rotas := rfl
@[simp] theorem State.setPhase_frame (p ph : Nat) : (s.setPhase p ph).frame = s.frame := rfl
@[simp] theorem State.setPhase_checker (p ph : Nat) : (s.setPhase p ph).checker = s.checker := rfl
@[simp] theorem State.setPhase_recorder (p ph : Nat) : (s.setPhase p ph).recorder = s.recorder := rfl
@[simp] theorem State.setPhase_power (p ph : Nat) : (s.setPhase p ph).power = s.power := rfl
@[simp] theorem State.setPhase_startup (p ph : Nat) : (s.setPhase p ph).startup = s.startup := rfl
@[simp] theorem State.setPhase_flash (p ph : Nat) : (s.setPhase p ph).flash = s.flash := rfl
@[simp] theorem State.setPhase_sec (p ph : Nat) : (s.setPhase p ph).sec = s.sec := rfl
@[simp] theorem State.setPhase_tap (p ph : Nat) : (s.setPhase p ph).tap = s.tap := rfl
@[simp] theorem State.setPhase_cores (p ph : Nat) : (s.setPhase p ph).cores = s.cores := rfl
@[simp] theorem State.setPhase_steps (p ph : Nat) : (s.setPhase p ph).steps = s.steps := rfl
@[simp] theorem State.setPhase_host (p ph : Nat) : (s.setPhase p ph).host = s.host := rfl

/-! ### setModState -/

@[simp] theorem State.setModState_pending (c : Nat) : (s.setModState c).pending = s.pending := rfl
@[simp] theorem State.setModState_tick (c : Nat) : (s.setModState c).tick = s.tick := rfl
@[simp] theorem State.setModState_strobed (c : Nat) : (s.setModState c).strobed = s.strobed := rfl
@[simp] theorem State.setModState_pairs (c : Nat) : (s.setModState c).pairs = s.pairs := rfl
@[simp] theorem State.setModState_applying (c : Nat) : (s.setModState c).applying = s.applying := rfl
@[simp] theorem State.setModState_mem (c : Nat) : (s.setModState c).mem = s.mem := rfl
@[simp] theorem State.setModState_poison (c : Nat) : (s.setModState c).poison = s.poison := rfl
@[simp] theorem State.setModState_imem (c : Nat) : (s.setModState c).imem = s.imem := rfl
@[simp] theorem State.setModState_imemPoison (c : Nat) : (s.setModState c).imemPoison = s.imemPoison := rfl
@[simp] theorem State.setModState_gpr (c : Nat) : (s.setModState c).gpr = s.gpr := rfl
@[simp] theorem State.setModState_preds (c : Nat) : (s.setModState c).preds = s.preds := rfl
@[simp] theorem State.setModState_rotors (c : Nat) : (s.setModState c).rotors = s.rotors := rfl
@[simp] theorem State.setModState_groups (c : Nat) : (s.setModState c).groups = s.groups := rfl
@[simp] theorem State.setModState_kernels (c : Nat) : (s.setModState c).kernels = s.kernels := rfl
@[simp] theorem State.setModState_cells (c : Nat) : (s.setModState c).cells = s.cells := rfl
@[simp] theorem State.setModState_acc (c : Nat) : (s.setModState c).acc = s.acc := rfl
@[simp] theorem State.setModState_mx (c : Nat) : (s.setModState c).mx = s.mx := rfl
@[simp] theorem State.setModState_unused (c : Nat) : (s.setModState c).unused = s.unused := rfl
@[simp] theorem State.setModState_slots (c : Nat) : (s.setModState c).slots = s.slots := rfl
@[simp] theorem State.setModState_vaults (c : Nat) : (s.setModState c).vaults = s.vaults := rfl
@[simp] theorem State.setModState_tsScrub (c : Nat) : (s.setModState c).tsScrub = s.tsScrub := rfl
@[simp] theorem State.setModState_lines (c : Nat) : (s.setModState c).lines = s.lines := rfl
@[simp] theorem State.setModState_replPtr (c : Nat) : (s.setModState c).replPtr = s.replPtr := rfl
@[simp] theorem State.setModState_halves (c : Nat) : (s.setModState c).halves = s.halves := rfl
@[simp] theorem State.setModState_cacheQ (c : Nat) : (s.setModState c).cacheQ = s.cacheQ := rfl
@[simp] theorem State.setModState_routes (c : Nat) : (s.setModState c).routes = s.routes := rfl
@[simp] theorem State.setModState_regions (c : Nat) : (s.setModState c).regions = s.regions := rfl
@[simp] theorem State.setModState_kmaps (c : Nat) : (s.setModState c).kmaps = s.kmaps := rfl
@[simp] theorem State.setModState_replicas (c : Nat) : (s.setModState c).replicas = s.replicas := rfl
@[simp] theorem State.setModState_homeQ (c : Nat) : (s.setModState c).homeQ = s.homeQ := rfl
@[simp] theorem State.setModState_ops (c : Nat) : (s.setModState c).ops = s.ops := rfl
@[simp] theorem State.setModState_transit (c : Nat) : (s.setModState c).transit = s.transit := rfl
@[simp] theorem State.setModState_discarded (c : Nat) : (s.setModState c).discarded = s.discarded := rfl
@[simp] theorem State.setModState_rtMem (c : Nat) : (s.setModState c).rtMem = s.rtMem := rfl
@[simp] theorem State.setModState_keeper (c : Nat) : (s.setModState c).keeper = s.keeper := rfl
@[simp] theorem State.setModState_links (c : Nat) : (s.setModState c).links = s.links := rfl
@[simp] theorem State.setModState_chans (c : Nat) : (s.setModState c).chans = s.chans := rfl
@[simp] theorem State.setModState_dma (c : Nat) : (s.setModState c).dma = s.dma := rfl
@[simp] theorem State.setModState_rings (c : Nat) : (s.setModState c).rings = s.rings := rfl
@[simp] theorem State.setModState_parts (c : Nat) : (s.setModState c).parts = s.parts := rfl
@[simp] theorem State.setModState_scrubs (c : Nat) : (s.setModState c).scrubs = s.scrubs := rfl
@[simp] theorem State.setModState_lists (c : Nat) : (s.setModState c).lists = s.lists := rfl
@[simp] theorem State.setModState_rotas (c : Nat) : (s.setModState c).rotas = s.rotas := rfl
@[simp] theorem State.setModState_frame (c : Nat) : (s.setModState c).frame = s.frame := rfl
@[simp] theorem State.setModState_checker (c : Nat) : (s.setModState c).checker = s.checker := rfl
@[simp] theorem State.setModState_recorder (c : Nat) : (s.setModState c).recorder = s.recorder := rfl
@[simp] theorem State.setModState_power (c : Nat) : (s.setModState c).power = s.power := rfl
@[simp] theorem State.setModState_startup (c : Nat) : (s.setModState c).startup = s.startup := rfl
@[simp] theorem State.setModState_flash (c : Nat) : (s.setModState c).flash = s.flash := rfl
@[simp] theorem State.setModState_sec (c : Nat) : (s.setModState c).sec = s.sec := rfl
@[simp] theorem State.setModState_tap (c : Nat) : (s.setModState c).tap = s.tap := rfl
@[simp] theorem State.setModState_cores (c : Nat) : (s.setModState c).cores = s.cores := rfl
@[simp] theorem State.setModState_steps (c : Nat) : (s.setModState c).steps = s.steps := rfl
@[simp] theorem State.setModState_host (c : Nat) : (s.setModState c).host = s.host := rfl

/-! ### store -/

@[simp] theorem State.store_pending (a : Nat) (l : List Nib) : (s.store a l).pending = s.pending := rfl
@[simp] theorem State.store_tick (a : Nat) (l : List Nib) : (s.store a l).tick = s.tick := rfl
@[simp] theorem State.store_regs (a : Nat) (l : List Nib) : (s.store a l).regs = s.regs := rfl
@[simp] theorem State.store_strobed (a : Nat) (l : List Nib) : (s.store a l).strobed = s.strobed := rfl
@[simp] theorem State.store_pairs (a : Nat) (l : List Nib) : (s.store a l).pairs = s.pairs := rfl
@[simp] theorem State.store_applying (a : Nat) (l : List Nib) : (s.store a l).applying = s.applying := rfl
@[simp] theorem State.store_poison (a : Nat) (l : List Nib) : (s.store a l).poison = s.poison := rfl
@[simp] theorem State.store_imem (a : Nat) (l : List Nib) : (s.store a l).imem = s.imem := rfl
@[simp] theorem State.store_imemPoison (a : Nat) (l : List Nib) : (s.store a l).imemPoison = s.imemPoison := rfl
@[simp] theorem State.store_gpr (a : Nat) (l : List Nib) : (s.store a l).gpr = s.gpr := rfl
@[simp] theorem State.store_preds (a : Nat) (l : List Nib) : (s.store a l).preds = s.preds := rfl
@[simp] theorem State.store_rotors (a : Nat) (l : List Nib) : (s.store a l).rotors = s.rotors := rfl
@[simp] theorem State.store_groups (a : Nat) (l : List Nib) : (s.store a l).groups = s.groups := rfl
@[simp] theorem State.store_kernels (a : Nat) (l : List Nib) : (s.store a l).kernels = s.kernels := rfl
@[simp] theorem State.store_cells (a : Nat) (l : List Nib) : (s.store a l).cells = s.cells := rfl
@[simp] theorem State.store_acc (a : Nat) (l : List Nib) : (s.store a l).acc = s.acc := rfl
@[simp] theorem State.store_mx (a : Nat) (l : List Nib) : (s.store a l).mx = s.mx := rfl
@[simp] theorem State.store_unused (a : Nat) (l : List Nib) : (s.store a l).unused = s.unused := rfl
@[simp] theorem State.store_slots (a : Nat) (l : List Nib) : (s.store a l).slots = s.slots := rfl
@[simp] theorem State.store_vaults (a : Nat) (l : List Nib) : (s.store a l).vaults = s.vaults := rfl
@[simp] theorem State.store_tsScrub (a : Nat) (l : List Nib) : (s.store a l).tsScrub = s.tsScrub := rfl
@[simp] theorem State.store_lines (a : Nat) (l : List Nib) : (s.store a l).lines = s.lines := rfl
@[simp] theorem State.store_replPtr (a : Nat) (l : List Nib) : (s.store a l).replPtr = s.replPtr := rfl
@[simp] theorem State.store_halves (a : Nat) (l : List Nib) : (s.store a l).halves = s.halves := rfl
@[simp] theorem State.store_cacheQ (a : Nat) (l : List Nib) : (s.store a l).cacheQ = s.cacheQ := rfl
@[simp] theorem State.store_routes (a : Nat) (l : List Nib) : (s.store a l).routes = s.routes := rfl
@[simp] theorem State.store_regions (a : Nat) (l : List Nib) : (s.store a l).regions = s.regions := rfl
@[simp] theorem State.store_kmaps (a : Nat) (l : List Nib) : (s.store a l).kmaps = s.kmaps := rfl
@[simp] theorem State.store_replicas (a : Nat) (l : List Nib) : (s.store a l).replicas = s.replicas := rfl
@[simp] theorem State.store_homeQ (a : Nat) (l : List Nib) : (s.store a l).homeQ = s.homeQ := rfl
@[simp] theorem State.store_ops (a : Nat) (l : List Nib) : (s.store a l).ops = s.ops := rfl
@[simp] theorem State.store_transit (a : Nat) (l : List Nib) : (s.store a l).transit = s.transit := rfl
@[simp] theorem State.store_discarded (a : Nat) (l : List Nib) : (s.store a l).discarded = s.discarded := rfl
@[simp] theorem State.store_rtMem (a : Nat) (l : List Nib) : (s.store a l).rtMem = s.rtMem := rfl
@[simp] theorem State.store_keeper (a : Nat) (l : List Nib) : (s.store a l).keeper = s.keeper := rfl
@[simp] theorem State.store_links (a : Nat) (l : List Nib) : (s.store a l).links = s.links := rfl
@[simp] theorem State.store_chans (a : Nat) (l : List Nib) : (s.store a l).chans = s.chans := rfl
@[simp] theorem State.store_dma (a : Nat) (l : List Nib) : (s.store a l).dma = s.dma := rfl
@[simp] theorem State.store_rings (a : Nat) (l : List Nib) : (s.store a l).rings = s.rings := rfl
@[simp] theorem State.store_parts (a : Nat) (l : List Nib) : (s.store a l).parts = s.parts := rfl
@[simp] theorem State.store_scrubs (a : Nat) (l : List Nib) : (s.store a l).scrubs = s.scrubs := rfl
@[simp] theorem State.store_lists (a : Nat) (l : List Nib) : (s.store a l).lists = s.lists := rfl
@[simp] theorem State.store_rotas (a : Nat) (l : List Nib) : (s.store a l).rotas = s.rotas := rfl
@[simp] theorem State.store_frame (a : Nat) (l : List Nib) : (s.store a l).frame = s.frame := rfl
@[simp] theorem State.store_checker (a : Nat) (l : List Nib) : (s.store a l).checker = s.checker := rfl
@[simp] theorem State.store_recorder (a : Nat) (l : List Nib) : (s.store a l).recorder = s.recorder := rfl
@[simp] theorem State.store_power (a : Nat) (l : List Nib) : (s.store a l).power = s.power := rfl
@[simp] theorem State.store_startup (a : Nat) (l : List Nib) : (s.store a l).startup = s.startup := rfl
@[simp] theorem State.store_flash (a : Nat) (l : List Nib) : (s.store a l).flash = s.flash := rfl
@[simp] theorem State.store_sec (a : Nat) (l : List Nib) : (s.store a l).sec = s.sec := rfl
@[simp] theorem State.store_tap (a : Nat) (l : List Nib) : (s.store a l).tap = s.tap := rfl
@[simp] theorem State.store_cores (a : Nat) (l : List Nib) : (s.store a l).cores = s.cores := rfl
@[simp] theorem State.store_steps (a : Nat) (l : List Nib) : (s.store a l).steps = s.steps := rfl
@[simp] theorem State.store_host (a : Nat) (l : List Nib) : (s.store a l).host = s.host := rfl

/-! ### putPoison -/

@[simp] theorem State.putPoison_pending (c : Nat) (b : Bool) : (s.putPoison c b).pending = s.pending := rfl
@[simp] theorem State.putPoison_tick (c : Nat) (b : Bool) : (s.putPoison c b).tick = s.tick := rfl
@[simp] theorem State.putPoison_regs (c : Nat) (b : Bool) : (s.putPoison c b).regs = s.regs := rfl
@[simp] theorem State.putPoison_strobed (c : Nat) (b : Bool) : (s.putPoison c b).strobed = s.strobed := rfl
@[simp] theorem State.putPoison_pairs (c : Nat) (b : Bool) : (s.putPoison c b).pairs = s.pairs := rfl
@[simp] theorem State.putPoison_applying (c : Nat) (b : Bool) : (s.putPoison c b).applying = s.applying := rfl
@[simp] theorem State.putPoison_mem (c : Nat) (b : Bool) : (s.putPoison c b).mem = s.mem := rfl
@[simp] theorem State.putPoison_imem (c : Nat) (b : Bool) : (s.putPoison c b).imem = s.imem := rfl
@[simp] theorem State.putPoison_imemPoison (c : Nat) (b : Bool) : (s.putPoison c b).imemPoison = s.imemPoison := rfl
@[simp] theorem State.putPoison_gpr (c : Nat) (b : Bool) : (s.putPoison c b).gpr = s.gpr := rfl
@[simp] theorem State.putPoison_preds (c : Nat) (b : Bool) : (s.putPoison c b).preds = s.preds := rfl
@[simp] theorem State.putPoison_rotors (c : Nat) (b : Bool) : (s.putPoison c b).rotors = s.rotors := rfl
@[simp] theorem State.putPoison_groups (c : Nat) (b : Bool) : (s.putPoison c b).groups = s.groups := rfl
@[simp] theorem State.putPoison_kernels (c : Nat) (b : Bool) : (s.putPoison c b).kernels = s.kernels := rfl
@[simp] theorem State.putPoison_cells (c : Nat) (b : Bool) : (s.putPoison c b).cells = s.cells := rfl
@[simp] theorem State.putPoison_acc (c : Nat) (b : Bool) : (s.putPoison c b).acc = s.acc := rfl
@[simp] theorem State.putPoison_mx (c : Nat) (b : Bool) : (s.putPoison c b).mx = s.mx := rfl
@[simp] theorem State.putPoison_unused (c : Nat) (b : Bool) : (s.putPoison c b).unused = s.unused := rfl
@[simp] theorem State.putPoison_slots (c : Nat) (b : Bool) : (s.putPoison c b).slots = s.slots := rfl
@[simp] theorem State.putPoison_vaults (c : Nat) (b : Bool) : (s.putPoison c b).vaults = s.vaults := rfl
@[simp] theorem State.putPoison_tsScrub (c : Nat) (b : Bool) : (s.putPoison c b).tsScrub = s.tsScrub := rfl
@[simp] theorem State.putPoison_lines (c : Nat) (b : Bool) : (s.putPoison c b).lines = s.lines := rfl
@[simp] theorem State.putPoison_replPtr (c : Nat) (b : Bool) : (s.putPoison c b).replPtr = s.replPtr := rfl
@[simp] theorem State.putPoison_halves (c : Nat) (b : Bool) : (s.putPoison c b).halves = s.halves := rfl
@[simp] theorem State.putPoison_cacheQ (c : Nat) (b : Bool) : (s.putPoison c b).cacheQ = s.cacheQ := rfl
@[simp] theorem State.putPoison_routes (c : Nat) (b : Bool) : (s.putPoison c b).routes = s.routes := rfl
@[simp] theorem State.putPoison_regions (c : Nat) (b : Bool) : (s.putPoison c b).regions = s.regions := rfl
@[simp] theorem State.putPoison_kmaps (c : Nat) (b : Bool) : (s.putPoison c b).kmaps = s.kmaps := rfl
@[simp] theorem State.putPoison_replicas (c : Nat) (b : Bool) : (s.putPoison c b).replicas = s.replicas := rfl
@[simp] theorem State.putPoison_homeQ (c : Nat) (b : Bool) : (s.putPoison c b).homeQ = s.homeQ := rfl
@[simp] theorem State.putPoison_ops (c : Nat) (b : Bool) : (s.putPoison c b).ops = s.ops := rfl
@[simp] theorem State.putPoison_transit (c : Nat) (b : Bool) : (s.putPoison c b).transit = s.transit := rfl
@[simp] theorem State.putPoison_discarded (c : Nat) (b : Bool) : (s.putPoison c b).discarded = s.discarded := rfl
@[simp] theorem State.putPoison_rtMem (c : Nat) (b : Bool) : (s.putPoison c b).rtMem = s.rtMem := rfl
@[simp] theorem State.putPoison_keeper (c : Nat) (b : Bool) : (s.putPoison c b).keeper = s.keeper := rfl
@[simp] theorem State.putPoison_links (c : Nat) (b : Bool) : (s.putPoison c b).links = s.links := rfl
@[simp] theorem State.putPoison_chans (c : Nat) (b : Bool) : (s.putPoison c b).chans = s.chans := rfl
@[simp] theorem State.putPoison_dma (c : Nat) (b : Bool) : (s.putPoison c b).dma = s.dma := rfl
@[simp] theorem State.putPoison_rings (c : Nat) (b : Bool) : (s.putPoison c b).rings = s.rings := rfl
@[simp] theorem State.putPoison_parts (c : Nat) (b : Bool) : (s.putPoison c b).parts = s.parts := rfl
@[simp] theorem State.putPoison_scrubs (c : Nat) (b : Bool) : (s.putPoison c b).scrubs = s.scrubs := rfl
@[simp] theorem State.putPoison_lists (c : Nat) (b : Bool) : (s.putPoison c b).lists = s.lists := rfl
@[simp] theorem State.putPoison_rotas (c : Nat) (b : Bool) : (s.putPoison c b).rotas = s.rotas := rfl
@[simp] theorem State.putPoison_frame (c : Nat) (b : Bool) : (s.putPoison c b).frame = s.frame := rfl
@[simp] theorem State.putPoison_checker (c : Nat) (b : Bool) : (s.putPoison c b).checker = s.checker := rfl
@[simp] theorem State.putPoison_recorder (c : Nat) (b : Bool) : (s.putPoison c b).recorder = s.recorder := rfl
@[simp] theorem State.putPoison_power (c : Nat) (b : Bool) : (s.putPoison c b).power = s.power := rfl
@[simp] theorem State.putPoison_startup (c : Nat) (b : Bool) : (s.putPoison c b).startup = s.startup := rfl
@[simp] theorem State.putPoison_flash (c : Nat) (b : Bool) : (s.putPoison c b).flash = s.flash := rfl
@[simp] theorem State.putPoison_sec (c : Nat) (b : Bool) : (s.putPoison c b).sec = s.sec := rfl
@[simp] theorem State.putPoison_tap (c : Nat) (b : Bool) : (s.putPoison c b).tap = s.tap := rfl
@[simp] theorem State.putPoison_cores (c : Nat) (b : Bool) : (s.putPoison c b).cores = s.cores := rfl
@[simp] theorem State.putPoison_steps (c : Nat) (b : Bool) : (s.putPoison c b).steps = s.steps := rfl
@[simp] theorem State.putPoison_host (c : Nat) (b : Bool) : (s.putPoison c b).host = s.host := rfl

/-! ### storeClean -/

@[simp] theorem State.storeClean_pending (a : Nat) (l : List Nib) : (s.storeClean a l).pending = s.pending := rfl
@[simp] theorem State.storeClean_tick (a : Nat) (l : List Nib) : (s.storeClean a l).tick = s.tick := rfl
@[simp] theorem State.storeClean_regs (a : Nat) (l : List Nib) : (s.storeClean a l).regs = s.regs := rfl
@[simp] theorem State.storeClean_strobed (a : Nat) (l : List Nib) : (s.storeClean a l).strobed = s.strobed := rfl
@[simp] theorem State.storeClean_pairs (a : Nat) (l : List Nib) : (s.storeClean a l).pairs = s.pairs := rfl
@[simp] theorem State.storeClean_applying (a : Nat) (l : List Nib) : (s.storeClean a l).applying = s.applying := rfl
@[simp] theorem State.storeClean_imem (a : Nat) (l : List Nib) : (s.storeClean a l).imem = s.imem := rfl
@[simp] theorem State.storeClean_imemPoison (a : Nat) (l : List Nib) : (s.storeClean a l).imemPoison = s.imemPoison := rfl
@[simp] theorem State.storeClean_gpr (a : Nat) (l : List Nib) : (s.storeClean a l).gpr = s.gpr := rfl
@[simp] theorem State.storeClean_preds (a : Nat) (l : List Nib) : (s.storeClean a l).preds = s.preds := rfl
@[simp] theorem State.storeClean_rotors (a : Nat) (l : List Nib) : (s.storeClean a l).rotors = s.rotors := rfl
@[simp] theorem State.storeClean_groups (a : Nat) (l : List Nib) : (s.storeClean a l).groups = s.groups := rfl
@[simp] theorem State.storeClean_kernels (a : Nat) (l : List Nib) : (s.storeClean a l).kernels = s.kernels := rfl
@[simp] theorem State.storeClean_cells (a : Nat) (l : List Nib) : (s.storeClean a l).cells = s.cells := rfl
@[simp] theorem State.storeClean_acc (a : Nat) (l : List Nib) : (s.storeClean a l).acc = s.acc := rfl
@[simp] theorem State.storeClean_mx (a : Nat) (l : List Nib) : (s.storeClean a l).mx = s.mx := rfl
@[simp] theorem State.storeClean_unused (a : Nat) (l : List Nib) : (s.storeClean a l).unused = s.unused := rfl
@[simp] theorem State.storeClean_slots (a : Nat) (l : List Nib) : (s.storeClean a l).slots = s.slots := rfl
@[simp] theorem State.storeClean_vaults (a : Nat) (l : List Nib) : (s.storeClean a l).vaults = s.vaults := rfl
@[simp] theorem State.storeClean_tsScrub (a : Nat) (l : List Nib) : (s.storeClean a l).tsScrub = s.tsScrub := rfl
@[simp] theorem State.storeClean_lines (a : Nat) (l : List Nib) : (s.storeClean a l).lines = s.lines := rfl
@[simp] theorem State.storeClean_replPtr (a : Nat) (l : List Nib) : (s.storeClean a l).replPtr = s.replPtr := rfl
@[simp] theorem State.storeClean_halves (a : Nat) (l : List Nib) : (s.storeClean a l).halves = s.halves := rfl
@[simp] theorem State.storeClean_cacheQ (a : Nat) (l : List Nib) : (s.storeClean a l).cacheQ = s.cacheQ := rfl
@[simp] theorem State.storeClean_routes (a : Nat) (l : List Nib) : (s.storeClean a l).routes = s.routes := rfl
@[simp] theorem State.storeClean_regions (a : Nat) (l : List Nib) : (s.storeClean a l).regions = s.regions := rfl
@[simp] theorem State.storeClean_kmaps (a : Nat) (l : List Nib) : (s.storeClean a l).kmaps = s.kmaps := rfl
@[simp] theorem State.storeClean_replicas (a : Nat) (l : List Nib) : (s.storeClean a l).replicas = s.replicas := rfl
@[simp] theorem State.storeClean_homeQ (a : Nat) (l : List Nib) : (s.storeClean a l).homeQ = s.homeQ := rfl
@[simp] theorem State.storeClean_ops (a : Nat) (l : List Nib) : (s.storeClean a l).ops = s.ops := rfl
@[simp] theorem State.storeClean_transit (a : Nat) (l : List Nib) : (s.storeClean a l).transit = s.transit := rfl
@[simp] theorem State.storeClean_discarded (a : Nat) (l : List Nib) : (s.storeClean a l).discarded = s.discarded := rfl
@[simp] theorem State.storeClean_rtMem (a : Nat) (l : List Nib) : (s.storeClean a l).rtMem = s.rtMem := rfl
@[simp] theorem State.storeClean_keeper (a : Nat) (l : List Nib) : (s.storeClean a l).keeper = s.keeper := rfl
@[simp] theorem State.storeClean_links (a : Nat) (l : List Nib) : (s.storeClean a l).links = s.links := rfl
@[simp] theorem State.storeClean_chans (a : Nat) (l : List Nib) : (s.storeClean a l).chans = s.chans := rfl
@[simp] theorem State.storeClean_dma (a : Nat) (l : List Nib) : (s.storeClean a l).dma = s.dma := rfl
@[simp] theorem State.storeClean_rings (a : Nat) (l : List Nib) : (s.storeClean a l).rings = s.rings := rfl
@[simp] theorem State.storeClean_parts (a : Nat) (l : List Nib) : (s.storeClean a l).parts = s.parts := rfl
@[simp] theorem State.storeClean_scrubs (a : Nat) (l : List Nib) : (s.storeClean a l).scrubs = s.scrubs := rfl
@[simp] theorem State.storeClean_lists (a : Nat) (l : List Nib) : (s.storeClean a l).lists = s.lists := rfl
@[simp] theorem State.storeClean_rotas (a : Nat) (l : List Nib) : (s.storeClean a l).rotas = s.rotas := rfl
@[simp] theorem State.storeClean_frame (a : Nat) (l : List Nib) : (s.storeClean a l).frame = s.frame := rfl
@[simp] theorem State.storeClean_checker (a : Nat) (l : List Nib) : (s.storeClean a l).checker = s.checker := rfl
@[simp] theorem State.storeClean_recorder (a : Nat) (l : List Nib) : (s.storeClean a l).recorder = s.recorder := rfl
@[simp] theorem State.storeClean_power (a : Nat) (l : List Nib) : (s.storeClean a l).power = s.power := rfl
@[simp] theorem State.storeClean_startup (a : Nat) (l : List Nib) : (s.storeClean a l).startup = s.startup := rfl
@[simp] theorem State.storeClean_flash (a : Nat) (l : List Nib) : (s.storeClean a l).flash = s.flash := rfl
@[simp] theorem State.storeClean_sec (a : Nat) (l : List Nib) : (s.storeClean a l).sec = s.sec := rfl
@[simp] theorem State.storeClean_tap (a : Nat) (l : List Nib) : (s.storeClean a l).tap = s.tap := rfl
@[simp] theorem State.storeClean_cores (a : Nat) (l : List Nib) : (s.storeClean a l).cores = s.cores := rfl
@[simp] theorem State.storeClean_steps (a : Nat) (l : List Nib) : (s.storeClean a l).steps = s.steps := rfl
@[simp] theorem State.storeClean_host (a : Nat) (l : List Nib) : (s.storeClean a l).host = s.host := rfl

/-! ### putPart -/

@[simp] theorem State.putPart_pending (p : Nat) (x : Part) : (s.putPart p x).pending = s.pending := rfl
@[simp] theorem State.putPart_tick (p : Nat) (x : Part) : (s.putPart p x).tick = s.tick := rfl
@[simp] theorem State.putPart_regs (p : Nat) (x : Part) : (s.putPart p x).regs = s.regs := rfl
@[simp] theorem State.putPart_strobed (p : Nat) (x : Part) : (s.putPart p x).strobed = s.strobed := rfl
@[simp] theorem State.putPart_pairs (p : Nat) (x : Part) : (s.putPart p x).pairs = s.pairs := rfl
@[simp] theorem State.putPart_applying (p : Nat) (x : Part) : (s.putPart p x).applying = s.applying := rfl
@[simp] theorem State.putPart_mem (p : Nat) (x : Part) : (s.putPart p x).mem = s.mem := rfl
@[simp] theorem State.putPart_poison (p : Nat) (x : Part) : (s.putPart p x).poison = s.poison := rfl
@[simp] theorem State.putPart_imem (p : Nat) (x : Part) : (s.putPart p x).imem = s.imem := rfl
@[simp] theorem State.putPart_imemPoison (p : Nat) (x : Part) : (s.putPart p x).imemPoison = s.imemPoison := rfl
@[simp] theorem State.putPart_gpr (p : Nat) (x : Part) : (s.putPart p x).gpr = s.gpr := rfl
@[simp] theorem State.putPart_preds (p : Nat) (x : Part) : (s.putPart p x).preds = s.preds := rfl
@[simp] theorem State.putPart_rotors (p : Nat) (x : Part) : (s.putPart p x).rotors = s.rotors := rfl
@[simp] theorem State.putPart_groups (p : Nat) (x : Part) : (s.putPart p x).groups = s.groups := rfl
@[simp] theorem State.putPart_kernels (p : Nat) (x : Part) : (s.putPart p x).kernels = s.kernels := rfl
@[simp] theorem State.putPart_cells (p : Nat) (x : Part) : (s.putPart p x).cells = s.cells := rfl
@[simp] theorem State.putPart_acc (p : Nat) (x : Part) : (s.putPart p x).acc = s.acc := rfl
@[simp] theorem State.putPart_mx (p : Nat) (x : Part) : (s.putPart p x).mx = s.mx := rfl
@[simp] theorem State.putPart_unused (p : Nat) (x : Part) : (s.putPart p x).unused = s.unused := rfl
@[simp] theorem State.putPart_slots (p : Nat) (x : Part) : (s.putPart p x).slots = s.slots := rfl
@[simp] theorem State.putPart_vaults (p : Nat) (x : Part) : (s.putPart p x).vaults = s.vaults := rfl
@[simp] theorem State.putPart_tsScrub (p : Nat) (x : Part) : (s.putPart p x).tsScrub = s.tsScrub := rfl
@[simp] theorem State.putPart_lines (p : Nat) (x : Part) : (s.putPart p x).lines = s.lines := rfl
@[simp] theorem State.putPart_replPtr (p : Nat) (x : Part) : (s.putPart p x).replPtr = s.replPtr := rfl
@[simp] theorem State.putPart_halves (p : Nat) (x : Part) : (s.putPart p x).halves = s.halves := rfl
@[simp] theorem State.putPart_cacheQ (p : Nat) (x : Part) : (s.putPart p x).cacheQ = s.cacheQ := rfl
@[simp] theorem State.putPart_routes (p : Nat) (x : Part) : (s.putPart p x).routes = s.routes := rfl
@[simp] theorem State.putPart_regions (p : Nat) (x : Part) : (s.putPart p x).regions = s.regions := rfl
@[simp] theorem State.putPart_kmaps (p : Nat) (x : Part) : (s.putPart p x).kmaps = s.kmaps := rfl
@[simp] theorem State.putPart_replicas (p : Nat) (x : Part) : (s.putPart p x).replicas = s.replicas := rfl
@[simp] theorem State.putPart_homeQ (p : Nat) (x : Part) : (s.putPart p x).homeQ = s.homeQ := rfl
@[simp] theorem State.putPart_ops (p : Nat) (x : Part) : (s.putPart p x).ops = s.ops := rfl
@[simp] theorem State.putPart_transit (p : Nat) (x : Part) : (s.putPart p x).transit = s.transit := rfl
@[simp] theorem State.putPart_discarded (p : Nat) (x : Part) : (s.putPart p x).discarded = s.discarded := rfl
@[simp] theorem State.putPart_rtMem (p : Nat) (x : Part) : (s.putPart p x).rtMem = s.rtMem := rfl
@[simp] theorem State.putPart_keeper (p : Nat) (x : Part) : (s.putPart p x).keeper = s.keeper := rfl
@[simp] theorem State.putPart_links (p : Nat) (x : Part) : (s.putPart p x).links = s.links := rfl
@[simp] theorem State.putPart_chans (p : Nat) (x : Part) : (s.putPart p x).chans = s.chans := rfl
@[simp] theorem State.putPart_dma (p : Nat) (x : Part) : (s.putPart p x).dma = s.dma := rfl
@[simp] theorem State.putPart_rings (p : Nat) (x : Part) : (s.putPart p x).rings = s.rings := rfl
@[simp] theorem State.putPart_scrubs (p : Nat) (x : Part) : (s.putPart p x).scrubs = s.scrubs := rfl
@[simp] theorem State.putPart_lists (p : Nat) (x : Part) : (s.putPart p x).lists = s.lists := rfl
@[simp] theorem State.putPart_rotas (p : Nat) (x : Part) : (s.putPart p x).rotas = s.rotas := rfl
@[simp] theorem State.putPart_frame (p : Nat) (x : Part) : (s.putPart p x).frame = s.frame := rfl
@[simp] theorem State.putPart_checker (p : Nat) (x : Part) : (s.putPart p x).checker = s.checker := rfl
@[simp] theorem State.putPart_recorder (p : Nat) (x : Part) : (s.putPart p x).recorder = s.recorder := rfl
@[simp] theorem State.putPart_power (p : Nat) (x : Part) : (s.putPart p x).power = s.power := rfl
@[simp] theorem State.putPart_startup (p : Nat) (x : Part) : (s.putPart p x).startup = s.startup := rfl
@[simp] theorem State.putPart_flash (p : Nat) (x : Part) : (s.putPart p x).flash = s.flash := rfl
@[simp] theorem State.putPart_sec (p : Nat) (x : Part) : (s.putPart p x).sec = s.sec := rfl
@[simp] theorem State.putPart_tap (p : Nat) (x : Part) : (s.putPart p x).tap = s.tap := rfl
@[simp] theorem State.putPart_cores (p : Nat) (x : Part) : (s.putPart p x).cores = s.cores := rfl
@[simp] theorem State.putPart_steps (p : Nat) (x : Part) : (s.putPart p x).steps = s.steps := rfl
@[simp] theorem State.putPart_host (p : Nat) (x : Part) : (s.putPart p x).host = s.host := rfl

/-! ### putGroup -/

@[simp] theorem State.putGroup_pending (t n : Nat) (x : Group) : (s.putGroup t n x).pending = s.pending := rfl
@[simp] theorem State.putGroup_tick (t n : Nat) (x : Group) : (s.putGroup t n x).tick = s.tick := rfl
@[simp] theorem State.putGroup_regs (t n : Nat) (x : Group) : (s.putGroup t n x).regs = s.regs := rfl
@[simp] theorem State.putGroup_strobed (t n : Nat) (x : Group) : (s.putGroup t n x).strobed = s.strobed := rfl
@[simp] theorem State.putGroup_pairs (t n : Nat) (x : Group) : (s.putGroup t n x).pairs = s.pairs := rfl
@[simp] theorem State.putGroup_applying (t n : Nat) (x : Group) : (s.putGroup t n x).applying = s.applying := rfl
@[simp] theorem State.putGroup_mem (t n : Nat) (x : Group) : (s.putGroup t n x).mem = s.mem := rfl
@[simp] theorem State.putGroup_poison (t n : Nat) (x : Group) : (s.putGroup t n x).poison = s.poison := rfl
@[simp] theorem State.putGroup_imem (t n : Nat) (x : Group) : (s.putGroup t n x).imem = s.imem := rfl
@[simp] theorem State.putGroup_imemPoison (t n : Nat) (x : Group) : (s.putGroup t n x).imemPoison = s.imemPoison := rfl
@[simp] theorem State.putGroup_gpr (t n : Nat) (x : Group) : (s.putGroup t n x).gpr = s.gpr := rfl
@[simp] theorem State.putGroup_preds (t n : Nat) (x : Group) : (s.putGroup t n x).preds = s.preds := rfl
@[simp] theorem State.putGroup_rotors (t n : Nat) (x : Group) : (s.putGroup t n x).rotors = s.rotors := rfl
@[simp] theorem State.putGroup_kernels (t n : Nat) (x : Group) : (s.putGroup t n x).kernels = s.kernels := rfl
@[simp] theorem State.putGroup_cells (t n : Nat) (x : Group) : (s.putGroup t n x).cells = s.cells := rfl
@[simp] theorem State.putGroup_acc (t n : Nat) (x : Group) : (s.putGroup t n x).acc = s.acc := rfl
@[simp] theorem State.putGroup_mx (t n : Nat) (x : Group) : (s.putGroup t n x).mx = s.mx := rfl
@[simp] theorem State.putGroup_unused (t n : Nat) (x : Group) : (s.putGroup t n x).unused = s.unused := rfl
@[simp] theorem State.putGroup_slots (t n : Nat) (x : Group) : (s.putGroup t n x).slots = s.slots := rfl
@[simp] theorem State.putGroup_vaults (t n : Nat) (x : Group) : (s.putGroup t n x).vaults = s.vaults := rfl
@[simp] theorem State.putGroup_tsScrub (t n : Nat) (x : Group) : (s.putGroup t n x).tsScrub = s.tsScrub := rfl
@[simp] theorem State.putGroup_lines (t n : Nat) (x : Group) : (s.putGroup t n x).lines = s.lines := rfl
@[simp] theorem State.putGroup_replPtr (t n : Nat) (x : Group) : (s.putGroup t n x).replPtr = s.replPtr := rfl
@[simp] theorem State.putGroup_halves (t n : Nat) (x : Group) : (s.putGroup t n x).halves = s.halves := rfl
@[simp] theorem State.putGroup_cacheQ (t n : Nat) (x : Group) : (s.putGroup t n x).cacheQ = s.cacheQ := rfl
@[simp] theorem State.putGroup_routes (t n : Nat) (x : Group) : (s.putGroup t n x).routes = s.routes := rfl
@[simp] theorem State.putGroup_regions (t n : Nat) (x : Group) : (s.putGroup t n x).regions = s.regions := rfl
@[simp] theorem State.putGroup_kmaps (t n : Nat) (x : Group) : (s.putGroup t n x).kmaps = s.kmaps := rfl
@[simp] theorem State.putGroup_replicas (t n : Nat) (x : Group) : (s.putGroup t n x).replicas = s.replicas := rfl
@[simp] theorem State.putGroup_homeQ (t n : Nat) (x : Group) : (s.putGroup t n x).homeQ = s.homeQ := rfl
@[simp] theorem State.putGroup_ops (t n : Nat) (x : Group) : (s.putGroup t n x).ops = s.ops := rfl
@[simp] theorem State.putGroup_transit (t n : Nat) (x : Group) : (s.putGroup t n x).transit = s.transit := rfl
@[simp] theorem State.putGroup_discarded (t n : Nat) (x : Group) : (s.putGroup t n x).discarded = s.discarded := rfl
@[simp] theorem State.putGroup_rtMem (t n : Nat) (x : Group) : (s.putGroup t n x).rtMem = s.rtMem := rfl
@[simp] theorem State.putGroup_keeper (t n : Nat) (x : Group) : (s.putGroup t n x).keeper = s.keeper := rfl
@[simp] theorem State.putGroup_links (t n : Nat) (x : Group) : (s.putGroup t n x).links = s.links := rfl
@[simp] theorem State.putGroup_chans (t n : Nat) (x : Group) : (s.putGroup t n x).chans = s.chans := rfl
@[simp] theorem State.putGroup_dma (t n : Nat) (x : Group) : (s.putGroup t n x).dma = s.dma := rfl
@[simp] theorem State.putGroup_rings (t n : Nat) (x : Group) : (s.putGroup t n x).rings = s.rings := rfl
@[simp] theorem State.putGroup_parts (t n : Nat) (x : Group) : (s.putGroup t n x).parts = s.parts := rfl
@[simp] theorem State.putGroup_scrubs (t n : Nat) (x : Group) : (s.putGroup t n x).scrubs = s.scrubs := rfl
@[simp] theorem State.putGroup_lists (t n : Nat) (x : Group) : (s.putGroup t n x).lists = s.lists := rfl
@[simp] theorem State.putGroup_rotas (t n : Nat) (x : Group) : (s.putGroup t n x).rotas = s.rotas := rfl
@[simp] theorem State.putGroup_frame (t n : Nat) (x : Group) : (s.putGroup t n x).frame = s.frame := rfl
@[simp] theorem State.putGroup_checker (t n : Nat) (x : Group) : (s.putGroup t n x).checker = s.checker := rfl
@[simp] theorem State.putGroup_recorder (t n : Nat) (x : Group) : (s.putGroup t n x).recorder = s.recorder := rfl
@[simp] theorem State.putGroup_power (t n : Nat) (x : Group) : (s.putGroup t n x).power = s.power := rfl
@[simp] theorem State.putGroup_startup (t n : Nat) (x : Group) : (s.putGroup t n x).startup = s.startup := rfl
@[simp] theorem State.putGroup_flash (t n : Nat) (x : Group) : (s.putGroup t n x).flash = s.flash := rfl
@[simp] theorem State.putGroup_sec (t n : Nat) (x : Group) : (s.putGroup t n x).sec = s.sec := rfl
@[simp] theorem State.putGroup_tap (t n : Nat) (x : Group) : (s.putGroup t n x).tap = s.tap := rfl
@[simp] theorem State.putGroup_cores (t n : Nat) (x : Group) : (s.putGroup t n x).cores = s.cores := rfl
@[simp] theorem State.putGroup_steps (t n : Nat) (x : Group) : (s.putGroup t n x).steps = s.steps := rfl
@[simp] theorem State.putGroup_host (t n : Nat) (x : Group) : (s.putGroup t n x).host = s.host := rfl

/-! ### putMx -/

@[simp] theorem State.putMx_pending (t : Nat) (x : Mx) : (s.putMx t x).pending = s.pending := rfl
@[simp] theorem State.putMx_tick (t : Nat) (x : Mx) : (s.putMx t x).tick = s.tick := rfl
@[simp] theorem State.putMx_regs (t : Nat) (x : Mx) : (s.putMx t x).regs = s.regs := rfl
@[simp] theorem State.putMx_strobed (t : Nat) (x : Mx) : (s.putMx t x).strobed = s.strobed := rfl
@[simp] theorem State.putMx_pairs (t : Nat) (x : Mx) : (s.putMx t x).pairs = s.pairs := rfl
@[simp] theorem State.putMx_applying (t : Nat) (x : Mx) : (s.putMx t x).applying = s.applying := rfl
@[simp] theorem State.putMx_mem (t : Nat) (x : Mx) : (s.putMx t x).mem = s.mem := rfl
@[simp] theorem State.putMx_poison (t : Nat) (x : Mx) : (s.putMx t x).poison = s.poison := rfl
@[simp] theorem State.putMx_imem (t : Nat) (x : Mx) : (s.putMx t x).imem = s.imem := rfl
@[simp] theorem State.putMx_imemPoison (t : Nat) (x : Mx) : (s.putMx t x).imemPoison = s.imemPoison := rfl
@[simp] theorem State.putMx_gpr (t : Nat) (x : Mx) : (s.putMx t x).gpr = s.gpr := rfl
@[simp] theorem State.putMx_preds (t : Nat) (x : Mx) : (s.putMx t x).preds = s.preds := rfl
@[simp] theorem State.putMx_rotors (t : Nat) (x : Mx) : (s.putMx t x).rotors = s.rotors := rfl
@[simp] theorem State.putMx_groups (t : Nat) (x : Mx) : (s.putMx t x).groups = s.groups := rfl
@[simp] theorem State.putMx_kernels (t : Nat) (x : Mx) : (s.putMx t x).kernels = s.kernels := rfl
@[simp] theorem State.putMx_cells (t : Nat) (x : Mx) : (s.putMx t x).cells = s.cells := rfl
@[simp] theorem State.putMx_acc (t : Nat) (x : Mx) : (s.putMx t x).acc = s.acc := rfl
@[simp] theorem State.putMx_unused (t : Nat) (x : Mx) : (s.putMx t x).unused = s.unused := rfl
@[simp] theorem State.putMx_slots (t : Nat) (x : Mx) : (s.putMx t x).slots = s.slots := rfl
@[simp] theorem State.putMx_vaults (t : Nat) (x : Mx) : (s.putMx t x).vaults = s.vaults := rfl
@[simp] theorem State.putMx_tsScrub (t : Nat) (x : Mx) : (s.putMx t x).tsScrub = s.tsScrub := rfl
@[simp] theorem State.putMx_lines (t : Nat) (x : Mx) : (s.putMx t x).lines = s.lines := rfl
@[simp] theorem State.putMx_replPtr (t : Nat) (x : Mx) : (s.putMx t x).replPtr = s.replPtr := rfl
@[simp] theorem State.putMx_halves (t : Nat) (x : Mx) : (s.putMx t x).halves = s.halves := rfl
@[simp] theorem State.putMx_cacheQ (t : Nat) (x : Mx) : (s.putMx t x).cacheQ = s.cacheQ := rfl
@[simp] theorem State.putMx_routes (t : Nat) (x : Mx) : (s.putMx t x).routes = s.routes := rfl
@[simp] theorem State.putMx_regions (t : Nat) (x : Mx) : (s.putMx t x).regions = s.regions := rfl
@[simp] theorem State.putMx_kmaps (t : Nat) (x : Mx) : (s.putMx t x).kmaps = s.kmaps := rfl
@[simp] theorem State.putMx_replicas (t : Nat) (x : Mx) : (s.putMx t x).replicas = s.replicas := rfl
@[simp] theorem State.putMx_homeQ (t : Nat) (x : Mx) : (s.putMx t x).homeQ = s.homeQ := rfl
@[simp] theorem State.putMx_ops (t : Nat) (x : Mx) : (s.putMx t x).ops = s.ops := rfl
@[simp] theorem State.putMx_transit (t : Nat) (x : Mx) : (s.putMx t x).transit = s.transit := rfl
@[simp] theorem State.putMx_discarded (t : Nat) (x : Mx) : (s.putMx t x).discarded = s.discarded := rfl
@[simp] theorem State.putMx_rtMem (t : Nat) (x : Mx) : (s.putMx t x).rtMem = s.rtMem := rfl
@[simp] theorem State.putMx_keeper (t : Nat) (x : Mx) : (s.putMx t x).keeper = s.keeper := rfl
@[simp] theorem State.putMx_links (t : Nat) (x : Mx) : (s.putMx t x).links = s.links := rfl
@[simp] theorem State.putMx_chans (t : Nat) (x : Mx) : (s.putMx t x).chans = s.chans := rfl
@[simp] theorem State.putMx_dma (t : Nat) (x : Mx) : (s.putMx t x).dma = s.dma := rfl
@[simp] theorem State.putMx_rings (t : Nat) (x : Mx) : (s.putMx t x).rings = s.rings := rfl
@[simp] theorem State.putMx_parts (t : Nat) (x : Mx) : (s.putMx t x).parts = s.parts := rfl
@[simp] theorem State.putMx_scrubs (t : Nat) (x : Mx) : (s.putMx t x).scrubs = s.scrubs := rfl
@[simp] theorem State.putMx_lists (t : Nat) (x : Mx) : (s.putMx t x).lists = s.lists := rfl
@[simp] theorem State.putMx_rotas (t : Nat) (x : Mx) : (s.putMx t x).rotas = s.rotas := rfl
@[simp] theorem State.putMx_frame (t : Nat) (x : Mx) : (s.putMx t x).frame = s.frame := rfl
@[simp] theorem State.putMx_checker (t : Nat) (x : Mx) : (s.putMx t x).checker = s.checker := rfl
@[simp] theorem State.putMx_recorder (t : Nat) (x : Mx) : (s.putMx t x).recorder = s.recorder := rfl
@[simp] theorem State.putMx_power (t : Nat) (x : Mx) : (s.putMx t x).power = s.power := rfl
@[simp] theorem State.putMx_startup (t : Nat) (x : Mx) : (s.putMx t x).startup = s.startup := rfl
@[simp] theorem State.putMx_flash (t : Nat) (x : Mx) : (s.putMx t x).flash = s.flash := rfl
@[simp] theorem State.putMx_sec (t : Nat) (x : Mx) : (s.putMx t x).sec = s.sec := rfl
@[simp] theorem State.putMx_tap (t : Nat) (x : Mx) : (s.putMx t x).tap = s.tap := rfl
@[simp] theorem State.putMx_cores (t : Nat) (x : Mx) : (s.putMx t x).cores = s.cores := rfl
@[simp] theorem State.putMx_steps (t : Nat) (x : Mx) : (s.putMx t x).steps = s.steps := rfl
@[simp] theorem State.putMx_host (t : Nat) (x : Mx) : (s.putMx t x).host = s.host := rfl

/-! ### putVault -/

@[simp] theorem State.putVault_pending (f site : Nat) (x : Vault) : (s.putVault f site x).pending = s.pending := rfl
@[simp] theorem State.putVault_tick (f site : Nat) (x : Vault) : (s.putVault f site x).tick = s.tick := rfl
@[simp] theorem State.putVault_regs (f site : Nat) (x : Vault) : (s.putVault f site x).regs = s.regs := rfl
@[simp] theorem State.putVault_strobed (f site : Nat) (x : Vault) : (s.putVault f site x).strobed = s.strobed := rfl
@[simp] theorem State.putVault_pairs (f site : Nat) (x : Vault) : (s.putVault f site x).pairs = s.pairs := rfl
@[simp] theorem State.putVault_applying (f site : Nat) (x : Vault) : (s.putVault f site x).applying = s.applying := rfl
@[simp] theorem State.putVault_mem (f site : Nat) (x : Vault) : (s.putVault f site x).mem = s.mem := rfl
@[simp] theorem State.putVault_poison (f site : Nat) (x : Vault) : (s.putVault f site x).poison = s.poison := rfl
@[simp] theorem State.putVault_imem (f site : Nat) (x : Vault) : (s.putVault f site x).imem = s.imem := rfl
@[simp] theorem State.putVault_imemPoison (f site : Nat) (x : Vault) : (s.putVault f site x).imemPoison = s.imemPoison := rfl
@[simp] theorem State.putVault_gpr (f site : Nat) (x : Vault) : (s.putVault f site x).gpr = s.gpr := rfl
@[simp] theorem State.putVault_preds (f site : Nat) (x : Vault) : (s.putVault f site x).preds = s.preds := rfl
@[simp] theorem State.putVault_rotors (f site : Nat) (x : Vault) : (s.putVault f site x).rotors = s.rotors := rfl
@[simp] theorem State.putVault_groups (f site : Nat) (x : Vault) : (s.putVault f site x).groups = s.groups := rfl
@[simp] theorem State.putVault_kernels (f site : Nat) (x : Vault) : (s.putVault f site x).kernels = s.kernels := rfl
@[simp] theorem State.putVault_cells (f site : Nat) (x : Vault) : (s.putVault f site x).cells = s.cells := rfl
@[simp] theorem State.putVault_acc (f site : Nat) (x : Vault) : (s.putVault f site x).acc = s.acc := rfl
@[simp] theorem State.putVault_mx (f site : Nat) (x : Vault) : (s.putVault f site x).mx = s.mx := rfl
@[simp] theorem State.putVault_unused (f site : Nat) (x : Vault) : (s.putVault f site x).unused = s.unused := rfl
@[simp] theorem State.putVault_slots (f site : Nat) (x : Vault) : (s.putVault f site x).slots = s.slots := rfl
@[simp] theorem State.putVault_tsScrub (f site : Nat) (x : Vault) : (s.putVault f site x).tsScrub = s.tsScrub := rfl
@[simp] theorem State.putVault_lines (f site : Nat) (x : Vault) : (s.putVault f site x).lines = s.lines := rfl
@[simp] theorem State.putVault_replPtr (f site : Nat) (x : Vault) : (s.putVault f site x).replPtr = s.replPtr := rfl
@[simp] theorem State.putVault_halves (f site : Nat) (x : Vault) : (s.putVault f site x).halves = s.halves := rfl
@[simp] theorem State.putVault_cacheQ (f site : Nat) (x : Vault) : (s.putVault f site x).cacheQ = s.cacheQ := rfl
@[simp] theorem State.putVault_routes (f site : Nat) (x : Vault) : (s.putVault f site x).routes = s.routes := rfl
@[simp] theorem State.putVault_regions (f site : Nat) (x : Vault) : (s.putVault f site x).regions = s.regions := rfl
@[simp] theorem State.putVault_kmaps (f site : Nat) (x : Vault) : (s.putVault f site x).kmaps = s.kmaps := rfl
@[simp] theorem State.putVault_replicas (f site : Nat) (x : Vault) : (s.putVault f site x).replicas = s.replicas := rfl
@[simp] theorem State.putVault_homeQ (f site : Nat) (x : Vault) : (s.putVault f site x).homeQ = s.homeQ := rfl
@[simp] theorem State.putVault_ops (f site : Nat) (x : Vault) : (s.putVault f site x).ops = s.ops := rfl
@[simp] theorem State.putVault_transit (f site : Nat) (x : Vault) : (s.putVault f site x).transit = s.transit := rfl
@[simp] theorem State.putVault_discarded (f site : Nat) (x : Vault) : (s.putVault f site x).discarded = s.discarded := rfl
@[simp] theorem State.putVault_rtMem (f site : Nat) (x : Vault) : (s.putVault f site x).rtMem = s.rtMem := rfl
@[simp] theorem State.putVault_keeper (f site : Nat) (x : Vault) : (s.putVault f site x).keeper = s.keeper := rfl
@[simp] theorem State.putVault_links (f site : Nat) (x : Vault) : (s.putVault f site x).links = s.links := rfl
@[simp] theorem State.putVault_chans (f site : Nat) (x : Vault) : (s.putVault f site x).chans = s.chans := rfl
@[simp] theorem State.putVault_dma (f site : Nat) (x : Vault) : (s.putVault f site x).dma = s.dma := rfl
@[simp] theorem State.putVault_rings (f site : Nat) (x : Vault) : (s.putVault f site x).rings = s.rings := rfl
@[simp] theorem State.putVault_parts (f site : Nat) (x : Vault) : (s.putVault f site x).parts = s.parts := rfl
@[simp] theorem State.putVault_scrubs (f site : Nat) (x : Vault) : (s.putVault f site x).scrubs = s.scrubs := rfl
@[simp] theorem State.putVault_lists (f site : Nat) (x : Vault) : (s.putVault f site x).lists = s.lists := rfl
@[simp] theorem State.putVault_rotas (f site : Nat) (x : Vault) : (s.putVault f site x).rotas = s.rotas := rfl
@[simp] theorem State.putVault_frame (f site : Nat) (x : Vault) : (s.putVault f site x).frame = s.frame := rfl
@[simp] theorem State.putVault_checker (f site : Nat) (x : Vault) : (s.putVault f site x).checker = s.checker := rfl
@[simp] theorem State.putVault_recorder (f site : Nat) (x : Vault) : (s.putVault f site x).recorder = s.recorder := rfl
@[simp] theorem State.putVault_power (f site : Nat) (x : Vault) : (s.putVault f site x).power = s.power := rfl
@[simp] theorem State.putVault_startup (f site : Nat) (x : Vault) : (s.putVault f site x).startup = s.startup := rfl
@[simp] theorem State.putVault_flash (f site : Nat) (x : Vault) : (s.putVault f site x).flash = s.flash := rfl
@[simp] theorem State.putVault_sec (f site : Nat) (x : Vault) : (s.putVault f site x).sec = s.sec := rfl
@[simp] theorem State.putVault_tap (f site : Nat) (x : Vault) : (s.putVault f site x).tap = s.tap := rfl
@[simp] theorem State.putVault_cores (f site : Nat) (x : Vault) : (s.putVault f site x).cores = s.cores := rfl
@[simp] theorem State.putVault_steps (f site : Nat) (x : Vault) : (s.putVault f site x).steps = s.steps := rfl
@[simp] theorem State.putVault_host (f site : Nat) (x : Vault) : (s.putVault f site x).host = s.host := rfl

/-! ### putHalf -/

@[simp] theorem State.putHalf_pending (h : Nat) (x : Half) : (s.putHalf h x).pending = s.pending := rfl
@[simp] theorem State.putHalf_tick (h : Nat) (x : Half) : (s.putHalf h x).tick = s.tick := rfl
@[simp] theorem State.putHalf_regs (h : Nat) (x : Half) : (s.putHalf h x).regs = s.regs := rfl
@[simp] theorem State.putHalf_strobed (h : Nat) (x : Half) : (s.putHalf h x).strobed = s.strobed := rfl
@[simp] theorem State.putHalf_pairs (h : Nat) (x : Half) : (s.putHalf h x).pairs = s.pairs := rfl
@[simp] theorem State.putHalf_applying (h : Nat) (x : Half) : (s.putHalf h x).applying = s.applying := rfl
@[simp] theorem State.putHalf_mem (h : Nat) (x : Half) : (s.putHalf h x).mem = s.mem := rfl
@[simp] theorem State.putHalf_poison (h : Nat) (x : Half) : (s.putHalf h x).poison = s.poison := rfl
@[simp] theorem State.putHalf_imem (h : Nat) (x : Half) : (s.putHalf h x).imem = s.imem := rfl
@[simp] theorem State.putHalf_imemPoison (h : Nat) (x : Half) : (s.putHalf h x).imemPoison = s.imemPoison := rfl
@[simp] theorem State.putHalf_gpr (h : Nat) (x : Half) : (s.putHalf h x).gpr = s.gpr := rfl
@[simp] theorem State.putHalf_preds (h : Nat) (x : Half) : (s.putHalf h x).preds = s.preds := rfl
@[simp] theorem State.putHalf_rotors (h : Nat) (x : Half) : (s.putHalf h x).rotors = s.rotors := rfl
@[simp] theorem State.putHalf_groups (h : Nat) (x : Half) : (s.putHalf h x).groups = s.groups := rfl
@[simp] theorem State.putHalf_kernels (h : Nat) (x : Half) : (s.putHalf h x).kernels = s.kernels := rfl
@[simp] theorem State.putHalf_cells (h : Nat) (x : Half) : (s.putHalf h x).cells = s.cells := rfl
@[simp] theorem State.putHalf_acc (h : Nat) (x : Half) : (s.putHalf h x).acc = s.acc := rfl
@[simp] theorem State.putHalf_mx (h : Nat) (x : Half) : (s.putHalf h x).mx = s.mx := rfl
@[simp] theorem State.putHalf_unused (h : Nat) (x : Half) : (s.putHalf h x).unused = s.unused := rfl
@[simp] theorem State.putHalf_slots (h : Nat) (x : Half) : (s.putHalf h x).slots = s.slots := rfl
@[simp] theorem State.putHalf_vaults (h : Nat) (x : Half) : (s.putHalf h x).vaults = s.vaults := rfl
@[simp] theorem State.putHalf_tsScrub (h : Nat) (x : Half) : (s.putHalf h x).tsScrub = s.tsScrub := rfl
@[simp] theorem State.putHalf_lines (h : Nat) (x : Half) : (s.putHalf h x).lines = s.lines := rfl
@[simp] theorem State.putHalf_replPtr (h : Nat) (x : Half) : (s.putHalf h x).replPtr = s.replPtr := rfl
@[simp] theorem State.putHalf_cacheQ (h : Nat) (x : Half) : (s.putHalf h x).cacheQ = s.cacheQ := rfl
@[simp] theorem State.putHalf_routes (h : Nat) (x : Half) : (s.putHalf h x).routes = s.routes := rfl
@[simp] theorem State.putHalf_regions (h : Nat) (x : Half) : (s.putHalf h x).regions = s.regions := rfl
@[simp] theorem State.putHalf_kmaps (h : Nat) (x : Half) : (s.putHalf h x).kmaps = s.kmaps := rfl
@[simp] theorem State.putHalf_replicas (h : Nat) (x : Half) : (s.putHalf h x).replicas = s.replicas := rfl
@[simp] theorem State.putHalf_homeQ (h : Nat) (x : Half) : (s.putHalf h x).homeQ = s.homeQ := rfl
@[simp] theorem State.putHalf_ops (h : Nat) (x : Half) : (s.putHalf h x).ops = s.ops := rfl
@[simp] theorem State.putHalf_transit (h : Nat) (x : Half) : (s.putHalf h x).transit = s.transit := rfl
@[simp] theorem State.putHalf_discarded (h : Nat) (x : Half) : (s.putHalf h x).discarded = s.discarded := rfl
@[simp] theorem State.putHalf_rtMem (h : Nat) (x : Half) : (s.putHalf h x).rtMem = s.rtMem := rfl
@[simp] theorem State.putHalf_keeper (h : Nat) (x : Half) : (s.putHalf h x).keeper = s.keeper := rfl
@[simp] theorem State.putHalf_links (h : Nat) (x : Half) : (s.putHalf h x).links = s.links := rfl
@[simp] theorem State.putHalf_chans (h : Nat) (x : Half) : (s.putHalf h x).chans = s.chans := rfl
@[simp] theorem State.putHalf_dma (h : Nat) (x : Half) : (s.putHalf h x).dma = s.dma := rfl
@[simp] theorem State.putHalf_rings (h : Nat) (x : Half) : (s.putHalf h x).rings = s.rings := rfl
@[simp] theorem State.putHalf_parts (h : Nat) (x : Half) : (s.putHalf h x).parts = s.parts := rfl
@[simp] theorem State.putHalf_scrubs (h : Nat) (x : Half) : (s.putHalf h x).scrubs = s.scrubs := rfl
@[simp] theorem State.putHalf_lists (h : Nat) (x : Half) : (s.putHalf h x).lists = s.lists := rfl
@[simp] theorem State.putHalf_rotas (h : Nat) (x : Half) : (s.putHalf h x).rotas = s.rotas := rfl
@[simp] theorem State.putHalf_frame (h : Nat) (x : Half) : (s.putHalf h x).frame = s.frame := rfl
@[simp] theorem State.putHalf_checker (h : Nat) (x : Half) : (s.putHalf h x).checker = s.checker := rfl
@[simp] theorem State.putHalf_recorder (h : Nat) (x : Half) : (s.putHalf h x).recorder = s.recorder := rfl
@[simp] theorem State.putHalf_power (h : Nat) (x : Half) : (s.putHalf h x).power = s.power := rfl
@[simp] theorem State.putHalf_startup (h : Nat) (x : Half) : (s.putHalf h x).startup = s.startup := rfl
@[simp] theorem State.putHalf_flash (h : Nat) (x : Half) : (s.putHalf h x).flash = s.flash := rfl
@[simp] theorem State.putHalf_sec (h : Nat) (x : Half) : (s.putHalf h x).sec = s.sec := rfl
@[simp] theorem State.putHalf_tap (h : Nat) (x : Half) : (s.putHalf h x).tap = s.tap := rfl
@[simp] theorem State.putHalf_cores (h : Nat) (x : Half) : (s.putHalf h x).cores = s.cores := rfl
@[simp] theorem State.putHalf_steps (h : Nat) (x : Half) : (s.putHalf h x).steps = s.steps := rfl
@[simp] theorem State.putHalf_host (h : Nat) (x : Half) : (s.putHalf h x).host = s.host := rfl

/-! ### putRegion -/

@[simp] theorem State.putRegion_pending (e : Nat) (x : Region) : (s.putRegion e x).pending = s.pending := rfl
@[simp] theorem State.putRegion_tick (e : Nat) (x : Region) : (s.putRegion e x).tick = s.tick := rfl
@[simp] theorem State.putRegion_regs (e : Nat) (x : Region) : (s.putRegion e x).regs = s.regs := rfl
@[simp] theorem State.putRegion_strobed (e : Nat) (x : Region) : (s.putRegion e x).strobed = s.strobed := rfl
@[simp] theorem State.putRegion_pairs (e : Nat) (x : Region) : (s.putRegion e x).pairs = s.pairs := rfl
@[simp] theorem State.putRegion_applying (e : Nat) (x : Region) : (s.putRegion e x).applying = s.applying := rfl
@[simp] theorem State.putRegion_mem (e : Nat) (x : Region) : (s.putRegion e x).mem = s.mem := rfl
@[simp] theorem State.putRegion_poison (e : Nat) (x : Region) : (s.putRegion e x).poison = s.poison := rfl
@[simp] theorem State.putRegion_imem (e : Nat) (x : Region) : (s.putRegion e x).imem = s.imem := rfl
@[simp] theorem State.putRegion_imemPoison (e : Nat) (x : Region) : (s.putRegion e x).imemPoison = s.imemPoison := rfl
@[simp] theorem State.putRegion_gpr (e : Nat) (x : Region) : (s.putRegion e x).gpr = s.gpr := rfl
@[simp] theorem State.putRegion_preds (e : Nat) (x : Region) : (s.putRegion e x).preds = s.preds := rfl
@[simp] theorem State.putRegion_rotors (e : Nat) (x : Region) : (s.putRegion e x).rotors = s.rotors := rfl
@[simp] theorem State.putRegion_groups (e : Nat) (x : Region) : (s.putRegion e x).groups = s.groups := rfl
@[simp] theorem State.putRegion_kernels (e : Nat) (x : Region) : (s.putRegion e x).kernels = s.kernels := rfl
@[simp] theorem State.putRegion_cells (e : Nat) (x : Region) : (s.putRegion e x).cells = s.cells := rfl
@[simp] theorem State.putRegion_acc (e : Nat) (x : Region) : (s.putRegion e x).acc = s.acc := rfl
@[simp] theorem State.putRegion_mx (e : Nat) (x : Region) : (s.putRegion e x).mx = s.mx := rfl
@[simp] theorem State.putRegion_unused (e : Nat) (x : Region) : (s.putRegion e x).unused = s.unused := rfl
@[simp] theorem State.putRegion_slots (e : Nat) (x : Region) : (s.putRegion e x).slots = s.slots := rfl
@[simp] theorem State.putRegion_vaults (e : Nat) (x : Region) : (s.putRegion e x).vaults = s.vaults := rfl
@[simp] theorem State.putRegion_tsScrub (e : Nat) (x : Region) : (s.putRegion e x).tsScrub = s.tsScrub := rfl
@[simp] theorem State.putRegion_lines (e : Nat) (x : Region) : (s.putRegion e x).lines = s.lines := rfl
@[simp] theorem State.putRegion_replPtr (e : Nat) (x : Region) : (s.putRegion e x).replPtr = s.replPtr := rfl
@[simp] theorem State.putRegion_halves (e : Nat) (x : Region) : (s.putRegion e x).halves = s.halves := rfl
@[simp] theorem State.putRegion_cacheQ (e : Nat) (x : Region) : (s.putRegion e x).cacheQ = s.cacheQ := rfl
@[simp] theorem State.putRegion_routes (e : Nat) (x : Region) : (s.putRegion e x).routes = s.routes := rfl
@[simp] theorem State.putRegion_kmaps (e : Nat) (x : Region) : (s.putRegion e x).kmaps = s.kmaps := rfl
@[simp] theorem State.putRegion_replicas (e : Nat) (x : Region) : (s.putRegion e x).replicas = s.replicas := rfl
@[simp] theorem State.putRegion_homeQ (e : Nat) (x : Region) : (s.putRegion e x).homeQ = s.homeQ := rfl
@[simp] theorem State.putRegion_ops (e : Nat) (x : Region) : (s.putRegion e x).ops = s.ops := rfl
@[simp] theorem State.putRegion_transit (e : Nat) (x : Region) : (s.putRegion e x).transit = s.transit := rfl
@[simp] theorem State.putRegion_discarded (e : Nat) (x : Region) : (s.putRegion e x).discarded = s.discarded := rfl
@[simp] theorem State.putRegion_rtMem (e : Nat) (x : Region) : (s.putRegion e x).rtMem = s.rtMem := rfl
@[simp] theorem State.putRegion_keeper (e : Nat) (x : Region) : (s.putRegion e x).keeper = s.keeper := rfl
@[simp] theorem State.putRegion_links (e : Nat) (x : Region) : (s.putRegion e x).links = s.links := rfl
@[simp] theorem State.putRegion_chans (e : Nat) (x : Region) : (s.putRegion e x).chans = s.chans := rfl
@[simp] theorem State.putRegion_dma (e : Nat) (x : Region) : (s.putRegion e x).dma = s.dma := rfl
@[simp] theorem State.putRegion_rings (e : Nat) (x : Region) : (s.putRegion e x).rings = s.rings := rfl
@[simp] theorem State.putRegion_parts (e : Nat) (x : Region) : (s.putRegion e x).parts = s.parts := rfl
@[simp] theorem State.putRegion_scrubs (e : Nat) (x : Region) : (s.putRegion e x).scrubs = s.scrubs := rfl
@[simp] theorem State.putRegion_lists (e : Nat) (x : Region) : (s.putRegion e x).lists = s.lists := rfl
@[simp] theorem State.putRegion_rotas (e : Nat) (x : Region) : (s.putRegion e x).rotas = s.rotas := rfl
@[simp] theorem State.putRegion_frame (e : Nat) (x : Region) : (s.putRegion e x).frame = s.frame := rfl
@[simp] theorem State.putRegion_checker (e : Nat) (x : Region) : (s.putRegion e x).checker = s.checker := rfl
@[simp] theorem State.putRegion_recorder (e : Nat) (x : Region) : (s.putRegion e x).recorder = s.recorder := rfl
@[simp] theorem State.putRegion_power (e : Nat) (x : Region) : (s.putRegion e x).power = s.power := rfl
@[simp] theorem State.putRegion_startup (e : Nat) (x : Region) : (s.putRegion e x).startup = s.startup := rfl
@[simp] theorem State.putRegion_flash (e : Nat) (x : Region) : (s.putRegion e x).flash = s.flash := rfl
@[simp] theorem State.putRegion_sec (e : Nat) (x : Region) : (s.putRegion e x).sec = s.sec := rfl
@[simp] theorem State.putRegion_tap (e : Nat) (x : Region) : (s.putRegion e x).tap = s.tap := rfl
@[simp] theorem State.putRegion_cores (e : Nat) (x : Region) : (s.putRegion e x).cores = s.cores := rfl
@[simp] theorem State.putRegion_steps (e : Nat) (x : Region) : (s.putRegion e x).steps = s.steps := rfl
@[simp] theorem State.putRegion_host (e : Nat) (x : Region) : (s.putRegion e x).host = s.host := rfl

/-! ### putKmap -/

@[simp] theorem State.putKmap_pending (p i : Nat) (x : KeyEntry) : (s.putKmap p i x).pending = s.pending := rfl
@[simp] theorem State.putKmap_tick (p i : Nat) (x : KeyEntry) : (s.putKmap p i x).tick = s.tick := rfl
@[simp] theorem State.putKmap_regs (p i : Nat) (x : KeyEntry) : (s.putKmap p i x).regs = s.regs := rfl
@[simp] theorem State.putKmap_strobed (p i : Nat) (x : KeyEntry) : (s.putKmap p i x).strobed = s.strobed := rfl
@[simp] theorem State.putKmap_pairs (p i : Nat) (x : KeyEntry) : (s.putKmap p i x).pairs = s.pairs := rfl
@[simp] theorem State.putKmap_applying (p i : Nat) (x : KeyEntry) : (s.putKmap p i x).applying = s.applying := rfl
@[simp] theorem State.putKmap_mem (p i : Nat) (x : KeyEntry) : (s.putKmap p i x).mem = s.mem := rfl
@[simp] theorem State.putKmap_poison (p i : Nat) (x : KeyEntry) : (s.putKmap p i x).poison = s.poison := rfl
@[simp] theorem State.putKmap_imem (p i : Nat) (x : KeyEntry) : (s.putKmap p i x).imem = s.imem := rfl
@[simp] theorem State.putKmap_imemPoison (p i : Nat) (x : KeyEntry) : (s.putKmap p i x).imemPoison = s.imemPoison := rfl
@[simp] theorem State.putKmap_gpr (p i : Nat) (x : KeyEntry) : (s.putKmap p i x).gpr = s.gpr := rfl
@[simp] theorem State.putKmap_preds (p i : Nat) (x : KeyEntry) : (s.putKmap p i x).preds = s.preds := rfl
@[simp] theorem State.putKmap_rotors (p i : Nat) (x : KeyEntry) : (s.putKmap p i x).rotors = s.rotors := rfl
@[simp] theorem State.putKmap_groups (p i : Nat) (x : KeyEntry) : (s.putKmap p i x).groups = s.groups := rfl
@[simp] theorem State.putKmap_kernels (p i : Nat) (x : KeyEntry) : (s.putKmap p i x).kernels = s.kernels := rfl
@[simp] theorem State.putKmap_cells (p i : Nat) (x : KeyEntry) : (s.putKmap p i x).cells = s.cells := rfl
@[simp] theorem State.putKmap_acc (p i : Nat) (x : KeyEntry) : (s.putKmap p i x).acc = s.acc := rfl
@[simp] theorem State.putKmap_mx (p i : Nat) (x : KeyEntry) : (s.putKmap p i x).mx = s.mx := rfl
@[simp] theorem State.putKmap_unused (p i : Nat) (x : KeyEntry) : (s.putKmap p i x).unused = s.unused := rfl
@[simp] theorem State.putKmap_slots (p i : Nat) (x : KeyEntry) : (s.putKmap p i x).slots = s.slots := rfl
@[simp] theorem State.putKmap_vaults (p i : Nat) (x : KeyEntry) : (s.putKmap p i x).vaults = s.vaults := rfl
@[simp] theorem State.putKmap_tsScrub (p i : Nat) (x : KeyEntry) : (s.putKmap p i x).tsScrub = s.tsScrub := rfl
@[simp] theorem State.putKmap_lines (p i : Nat) (x : KeyEntry) : (s.putKmap p i x).lines = s.lines := rfl
@[simp] theorem State.putKmap_replPtr (p i : Nat) (x : KeyEntry) : (s.putKmap p i x).replPtr = s.replPtr := rfl
@[simp] theorem State.putKmap_halves (p i : Nat) (x : KeyEntry) : (s.putKmap p i x).halves = s.halves := rfl
@[simp] theorem State.putKmap_cacheQ (p i : Nat) (x : KeyEntry) : (s.putKmap p i x).cacheQ = s.cacheQ := rfl
@[simp] theorem State.putKmap_routes (p i : Nat) (x : KeyEntry) : (s.putKmap p i x).routes = s.routes := rfl
@[simp] theorem State.putKmap_regions (p i : Nat) (x : KeyEntry) : (s.putKmap p i x).regions = s.regions := rfl
@[simp] theorem State.putKmap_replicas (p i : Nat) (x : KeyEntry) : (s.putKmap p i x).replicas = s.replicas := rfl
@[simp] theorem State.putKmap_homeQ (p i : Nat) (x : KeyEntry) : (s.putKmap p i x).homeQ = s.homeQ := rfl
@[simp] theorem State.putKmap_ops (p i : Nat) (x : KeyEntry) : (s.putKmap p i x).ops = s.ops := rfl
@[simp] theorem State.putKmap_transit (p i : Nat) (x : KeyEntry) : (s.putKmap p i x).transit = s.transit := rfl
@[simp] theorem State.putKmap_discarded (p i : Nat) (x : KeyEntry) : (s.putKmap p i x).discarded = s.discarded := rfl
@[simp] theorem State.putKmap_rtMem (p i : Nat) (x : KeyEntry) : (s.putKmap p i x).rtMem = s.rtMem := rfl
@[simp] theorem State.putKmap_keeper (p i : Nat) (x : KeyEntry) : (s.putKmap p i x).keeper = s.keeper := rfl
@[simp] theorem State.putKmap_links (p i : Nat) (x : KeyEntry) : (s.putKmap p i x).links = s.links := rfl
@[simp] theorem State.putKmap_chans (p i : Nat) (x : KeyEntry) : (s.putKmap p i x).chans = s.chans := rfl
@[simp] theorem State.putKmap_dma (p i : Nat) (x : KeyEntry) : (s.putKmap p i x).dma = s.dma := rfl
@[simp] theorem State.putKmap_rings (p i : Nat) (x : KeyEntry) : (s.putKmap p i x).rings = s.rings := rfl
@[simp] theorem State.putKmap_parts (p i : Nat) (x : KeyEntry) : (s.putKmap p i x).parts = s.parts := rfl
@[simp] theorem State.putKmap_scrubs (p i : Nat) (x : KeyEntry) : (s.putKmap p i x).scrubs = s.scrubs := rfl
@[simp] theorem State.putKmap_lists (p i : Nat) (x : KeyEntry) : (s.putKmap p i x).lists = s.lists := rfl
@[simp] theorem State.putKmap_rotas (p i : Nat) (x : KeyEntry) : (s.putKmap p i x).rotas = s.rotas := rfl
@[simp] theorem State.putKmap_frame (p i : Nat) (x : KeyEntry) : (s.putKmap p i x).frame = s.frame := rfl
@[simp] theorem State.putKmap_checker (p i : Nat) (x : KeyEntry) : (s.putKmap p i x).checker = s.checker := rfl
@[simp] theorem State.putKmap_recorder (p i : Nat) (x : KeyEntry) : (s.putKmap p i x).recorder = s.recorder := rfl
@[simp] theorem State.putKmap_power (p i : Nat) (x : KeyEntry) : (s.putKmap p i x).power = s.power := rfl
@[simp] theorem State.putKmap_startup (p i : Nat) (x : KeyEntry) : (s.putKmap p i x).startup = s.startup := rfl
@[simp] theorem State.putKmap_flash (p i : Nat) (x : KeyEntry) : (s.putKmap p i x).flash = s.flash := rfl
@[simp] theorem State.putKmap_sec (p i : Nat) (x : KeyEntry) : (s.putKmap p i x).sec = s.sec := rfl
@[simp] theorem State.putKmap_tap (p i : Nat) (x : KeyEntry) : (s.putKmap p i x).tap = s.tap := rfl
@[simp] theorem State.putKmap_cores (p i : Nat) (x : KeyEntry) : (s.putKmap p i x).cores = s.cores := rfl
@[simp] theorem State.putKmap_steps (p i : Nat) (x : KeyEntry) : (s.putKmap p i x).steps = s.steps := rfl
@[simp] theorem State.putKmap_host (p i : Nat) (x : KeyEntry) : (s.putKmap p i x).host = s.host := rfl

/-! ### putLink -/

@[simp] theorem State.putLink_pending (k : Nat) (x : Link) : (s.putLink k x).pending = s.pending := rfl
@[simp] theorem State.putLink_tick (k : Nat) (x : Link) : (s.putLink k x).tick = s.tick := rfl
@[simp] theorem State.putLink_regs (k : Nat) (x : Link) : (s.putLink k x).regs = s.regs := rfl
@[simp] theorem State.putLink_strobed (k : Nat) (x : Link) : (s.putLink k x).strobed = s.strobed := rfl
@[simp] theorem State.putLink_pairs (k : Nat) (x : Link) : (s.putLink k x).pairs = s.pairs := rfl
@[simp] theorem State.putLink_applying (k : Nat) (x : Link) : (s.putLink k x).applying = s.applying := rfl
@[simp] theorem State.putLink_mem (k : Nat) (x : Link) : (s.putLink k x).mem = s.mem := rfl
@[simp] theorem State.putLink_poison (k : Nat) (x : Link) : (s.putLink k x).poison = s.poison := rfl
@[simp] theorem State.putLink_imem (k : Nat) (x : Link) : (s.putLink k x).imem = s.imem := rfl
@[simp] theorem State.putLink_imemPoison (k : Nat) (x : Link) : (s.putLink k x).imemPoison = s.imemPoison := rfl
@[simp] theorem State.putLink_gpr (k : Nat) (x : Link) : (s.putLink k x).gpr = s.gpr := rfl
@[simp] theorem State.putLink_preds (k : Nat) (x : Link) : (s.putLink k x).preds = s.preds := rfl
@[simp] theorem State.putLink_rotors (k : Nat) (x : Link) : (s.putLink k x).rotors = s.rotors := rfl
@[simp] theorem State.putLink_groups (k : Nat) (x : Link) : (s.putLink k x).groups = s.groups := rfl
@[simp] theorem State.putLink_kernels (k : Nat) (x : Link) : (s.putLink k x).kernels = s.kernels := rfl
@[simp] theorem State.putLink_cells (k : Nat) (x : Link) : (s.putLink k x).cells = s.cells := rfl
@[simp] theorem State.putLink_acc (k : Nat) (x : Link) : (s.putLink k x).acc = s.acc := rfl
@[simp] theorem State.putLink_mx (k : Nat) (x : Link) : (s.putLink k x).mx = s.mx := rfl
@[simp] theorem State.putLink_unused (k : Nat) (x : Link) : (s.putLink k x).unused = s.unused := rfl
@[simp] theorem State.putLink_slots (k : Nat) (x : Link) : (s.putLink k x).slots = s.slots := rfl
@[simp] theorem State.putLink_vaults (k : Nat) (x : Link) : (s.putLink k x).vaults = s.vaults := rfl
@[simp] theorem State.putLink_tsScrub (k : Nat) (x : Link) : (s.putLink k x).tsScrub = s.tsScrub := rfl
@[simp] theorem State.putLink_lines (k : Nat) (x : Link) : (s.putLink k x).lines = s.lines := rfl
@[simp] theorem State.putLink_replPtr (k : Nat) (x : Link) : (s.putLink k x).replPtr = s.replPtr := rfl
@[simp] theorem State.putLink_halves (k : Nat) (x : Link) : (s.putLink k x).halves = s.halves := rfl
@[simp] theorem State.putLink_cacheQ (k : Nat) (x : Link) : (s.putLink k x).cacheQ = s.cacheQ := rfl
@[simp] theorem State.putLink_routes (k : Nat) (x : Link) : (s.putLink k x).routes = s.routes := rfl
@[simp] theorem State.putLink_regions (k : Nat) (x : Link) : (s.putLink k x).regions = s.regions := rfl
@[simp] theorem State.putLink_kmaps (k : Nat) (x : Link) : (s.putLink k x).kmaps = s.kmaps := rfl
@[simp] theorem State.putLink_replicas (k : Nat) (x : Link) : (s.putLink k x).replicas = s.replicas := rfl
@[simp] theorem State.putLink_homeQ (k : Nat) (x : Link) : (s.putLink k x).homeQ = s.homeQ := rfl
@[simp] theorem State.putLink_ops (k : Nat) (x : Link) : (s.putLink k x).ops = s.ops := rfl
@[simp] theorem State.putLink_transit (k : Nat) (x : Link) : (s.putLink k x).transit = s.transit := rfl
@[simp] theorem State.putLink_discarded (k : Nat) (x : Link) : (s.putLink k x).discarded = s.discarded := rfl
@[simp] theorem State.putLink_rtMem (k : Nat) (x : Link) : (s.putLink k x).rtMem = s.rtMem := rfl
@[simp] theorem State.putLink_keeper (k : Nat) (x : Link) : (s.putLink k x).keeper = s.keeper := rfl
@[simp] theorem State.putLink_chans (k : Nat) (x : Link) : (s.putLink k x).chans = s.chans := rfl
@[simp] theorem State.putLink_dma (k : Nat) (x : Link) : (s.putLink k x).dma = s.dma := rfl
@[simp] theorem State.putLink_rings (k : Nat) (x : Link) : (s.putLink k x).rings = s.rings := rfl
@[simp] theorem State.putLink_parts (k : Nat) (x : Link) : (s.putLink k x).parts = s.parts := rfl
@[simp] theorem State.putLink_scrubs (k : Nat) (x : Link) : (s.putLink k x).scrubs = s.scrubs := rfl
@[simp] theorem State.putLink_lists (k : Nat) (x : Link) : (s.putLink k x).lists = s.lists := rfl
@[simp] theorem State.putLink_rotas (k : Nat) (x : Link) : (s.putLink k x).rotas = s.rotas := rfl
@[simp] theorem State.putLink_frame (k : Nat) (x : Link) : (s.putLink k x).frame = s.frame := rfl
@[simp] theorem State.putLink_checker (k : Nat) (x : Link) : (s.putLink k x).checker = s.checker := rfl
@[simp] theorem State.putLink_recorder (k : Nat) (x : Link) : (s.putLink k x).recorder = s.recorder := rfl
@[simp] theorem State.putLink_power (k : Nat) (x : Link) : (s.putLink k x).power = s.power := rfl
@[simp] theorem State.putLink_startup (k : Nat) (x : Link) : (s.putLink k x).startup = s.startup := rfl
@[simp] theorem State.putLink_flash (k : Nat) (x : Link) : (s.putLink k x).flash = s.flash := rfl
@[simp] theorem State.putLink_sec (k : Nat) (x : Link) : (s.putLink k x).sec = s.sec := rfl
@[simp] theorem State.putLink_tap (k : Nat) (x : Link) : (s.putLink k x).tap = s.tap := rfl
@[simp] theorem State.putLink_cores (k : Nat) (x : Link) : (s.putLink k x).cores = s.cores := rfl
@[simp] theorem State.putLink_steps (k : Nat) (x : Link) : (s.putLink k x).steps = s.steps := rfl
@[simp] theorem State.putLink_host (k : Nat) (x : Link) : (s.putLink k x).host = s.host := rfl

/-! ### putRing -/

@[simp] theorem State.putRing_pending (r : Nat) (x : Ring) : (s.putRing r x).pending = s.pending := rfl
@[simp] theorem State.putRing_tick (r : Nat) (x : Ring) : (s.putRing r x).tick = s.tick := rfl
@[simp] theorem State.putRing_regs (r : Nat) (x : Ring) : (s.putRing r x).regs = s.regs := rfl
@[simp] theorem State.putRing_strobed (r : Nat) (x : Ring) : (s.putRing r x).strobed = s.strobed := rfl
@[simp] theorem State.putRing_pairs (r : Nat) (x : Ring) : (s.putRing r x).pairs = s.pairs := rfl
@[simp] theorem State.putRing_applying (r : Nat) (x : Ring) : (s.putRing r x).applying = s.applying := rfl
@[simp] theorem State.putRing_mem (r : Nat) (x : Ring) : (s.putRing r x).mem = s.mem := rfl
@[simp] theorem State.putRing_poison (r : Nat) (x : Ring) : (s.putRing r x).poison = s.poison := rfl
@[simp] theorem State.putRing_imem (r : Nat) (x : Ring) : (s.putRing r x).imem = s.imem := rfl
@[simp] theorem State.putRing_imemPoison (r : Nat) (x : Ring) : (s.putRing r x).imemPoison = s.imemPoison := rfl
@[simp] theorem State.putRing_gpr (r : Nat) (x : Ring) : (s.putRing r x).gpr = s.gpr := rfl
@[simp] theorem State.putRing_preds (r : Nat) (x : Ring) : (s.putRing r x).preds = s.preds := rfl
@[simp] theorem State.putRing_rotors (r : Nat) (x : Ring) : (s.putRing r x).rotors = s.rotors := rfl
@[simp] theorem State.putRing_groups (r : Nat) (x : Ring) : (s.putRing r x).groups = s.groups := rfl
@[simp] theorem State.putRing_kernels (r : Nat) (x : Ring) : (s.putRing r x).kernels = s.kernels := rfl
@[simp] theorem State.putRing_cells (r : Nat) (x : Ring) : (s.putRing r x).cells = s.cells := rfl
@[simp] theorem State.putRing_acc (r : Nat) (x : Ring) : (s.putRing r x).acc = s.acc := rfl
@[simp] theorem State.putRing_mx (r : Nat) (x : Ring) : (s.putRing r x).mx = s.mx := rfl
@[simp] theorem State.putRing_unused (r : Nat) (x : Ring) : (s.putRing r x).unused = s.unused := rfl
@[simp] theorem State.putRing_slots (r : Nat) (x : Ring) : (s.putRing r x).slots = s.slots := rfl
@[simp] theorem State.putRing_vaults (r : Nat) (x : Ring) : (s.putRing r x).vaults = s.vaults := rfl
@[simp] theorem State.putRing_tsScrub (r : Nat) (x : Ring) : (s.putRing r x).tsScrub = s.tsScrub := rfl
@[simp] theorem State.putRing_lines (r : Nat) (x : Ring) : (s.putRing r x).lines = s.lines := rfl
@[simp] theorem State.putRing_replPtr (r : Nat) (x : Ring) : (s.putRing r x).replPtr = s.replPtr := rfl
@[simp] theorem State.putRing_halves (r : Nat) (x : Ring) : (s.putRing r x).halves = s.halves := rfl
@[simp] theorem State.putRing_cacheQ (r : Nat) (x : Ring) : (s.putRing r x).cacheQ = s.cacheQ := rfl
@[simp] theorem State.putRing_routes (r : Nat) (x : Ring) : (s.putRing r x).routes = s.routes := rfl
@[simp] theorem State.putRing_regions (r : Nat) (x : Ring) : (s.putRing r x).regions = s.regions := rfl
@[simp] theorem State.putRing_kmaps (r : Nat) (x : Ring) : (s.putRing r x).kmaps = s.kmaps := rfl
@[simp] theorem State.putRing_replicas (r : Nat) (x : Ring) : (s.putRing r x).replicas = s.replicas := rfl
@[simp] theorem State.putRing_homeQ (r : Nat) (x : Ring) : (s.putRing r x).homeQ = s.homeQ := rfl
@[simp] theorem State.putRing_ops (r : Nat) (x : Ring) : (s.putRing r x).ops = s.ops := rfl
@[simp] theorem State.putRing_transit (r : Nat) (x : Ring) : (s.putRing r x).transit = s.transit := rfl
@[simp] theorem State.putRing_discarded (r : Nat) (x : Ring) : (s.putRing r x).discarded = s.discarded := rfl
@[simp] theorem State.putRing_rtMem (r : Nat) (x : Ring) : (s.putRing r x).rtMem = s.rtMem := rfl
@[simp] theorem State.putRing_keeper (r : Nat) (x : Ring) : (s.putRing r x).keeper = s.keeper := rfl
@[simp] theorem State.putRing_links (r : Nat) (x : Ring) : (s.putRing r x).links = s.links := rfl
@[simp] theorem State.putRing_chans (r : Nat) (x : Ring) : (s.putRing r x).chans = s.chans := rfl
@[simp] theorem State.putRing_dma (r : Nat) (x : Ring) : (s.putRing r x).dma = s.dma := rfl
@[simp] theorem State.putRing_parts (r : Nat) (x : Ring) : (s.putRing r x).parts = s.parts := rfl
@[simp] theorem State.putRing_scrubs (r : Nat) (x : Ring) : (s.putRing r x).scrubs = s.scrubs := rfl
@[simp] theorem State.putRing_lists (r : Nat) (x : Ring) : (s.putRing r x).lists = s.lists := rfl
@[simp] theorem State.putRing_rotas (r : Nat) (x : Ring) : (s.putRing r x).rotas = s.rotas := rfl
@[simp] theorem State.putRing_frame (r : Nat) (x : Ring) : (s.putRing r x).frame = s.frame := rfl
@[simp] theorem State.putRing_checker (r : Nat) (x : Ring) : (s.putRing r x).checker = s.checker := rfl
@[simp] theorem State.putRing_recorder (r : Nat) (x : Ring) : (s.putRing r x).recorder = s.recorder := rfl
@[simp] theorem State.putRing_power (r : Nat) (x : Ring) : (s.putRing r x).power = s.power := rfl
@[simp] theorem State.putRing_startup (r : Nat) (x : Ring) : (s.putRing r x).startup = s.startup := rfl
@[simp] theorem State.putRing_flash (r : Nat) (x : Ring) : (s.putRing r x).flash = s.flash := rfl
@[simp] theorem State.putRing_sec (r : Nat) (x : Ring) : (s.putRing r x).sec = s.sec := rfl
@[simp] theorem State.putRing_tap (r : Nat) (x : Ring) : (s.putRing r x).tap = s.tap := rfl
@[simp] theorem State.putRing_cores (r : Nat) (x : Ring) : (s.putRing r x).cores = s.cores := rfl
@[simp] theorem State.putRing_steps (r : Nat) (x : Ring) : (s.putRing r x).steps = s.steps := rfl
@[simp] theorem State.putRing_host (r : Nat) (x : Ring) : (s.putRing r x).host = s.host := rfl

/-! ### putSlot -/

@[simp] theorem State.putSlot_pending (f site n : Nat) (x : SlotEntry) : (s.putSlot f site n x).pending = s.pending := rfl
@[simp] theorem State.putSlot_tick (f site n : Nat) (x : SlotEntry) : (s.putSlot f site n x).tick = s.tick := rfl
@[simp] theorem State.putSlot_regs (f site n : Nat) (x : SlotEntry) : (s.putSlot f site n x).regs = s.regs := rfl
@[simp] theorem State.putSlot_strobed (f site n : Nat) (x : SlotEntry) : (s.putSlot f site n x).strobed = s.strobed := rfl
@[simp] theorem State.putSlot_pairs (f site n : Nat) (x : SlotEntry) : (s.putSlot f site n x).pairs = s.pairs := rfl
@[simp] theorem State.putSlot_applying (f site n : Nat) (x : SlotEntry) : (s.putSlot f site n x).applying = s.applying := rfl
@[simp] theorem State.putSlot_mem (f site n : Nat) (x : SlotEntry) : (s.putSlot f site n x).mem = s.mem := rfl
@[simp] theorem State.putSlot_poison (f site n : Nat) (x : SlotEntry) : (s.putSlot f site n x).poison = s.poison := rfl
@[simp] theorem State.putSlot_imem (f site n : Nat) (x : SlotEntry) : (s.putSlot f site n x).imem = s.imem := rfl
@[simp] theorem State.putSlot_imemPoison (f site n : Nat) (x : SlotEntry) : (s.putSlot f site n x).imemPoison = s.imemPoison := rfl
@[simp] theorem State.putSlot_gpr (f site n : Nat) (x : SlotEntry) : (s.putSlot f site n x).gpr = s.gpr := rfl
@[simp] theorem State.putSlot_preds (f site n : Nat) (x : SlotEntry) : (s.putSlot f site n x).preds = s.preds := rfl
@[simp] theorem State.putSlot_rotors (f site n : Nat) (x : SlotEntry) : (s.putSlot f site n x).rotors = s.rotors := rfl
@[simp] theorem State.putSlot_groups (f site n : Nat) (x : SlotEntry) : (s.putSlot f site n x).groups = s.groups := rfl
@[simp] theorem State.putSlot_kernels (f site n : Nat) (x : SlotEntry) : (s.putSlot f site n x).kernels = s.kernels := rfl
@[simp] theorem State.putSlot_cells (f site n : Nat) (x : SlotEntry) : (s.putSlot f site n x).cells = s.cells := rfl
@[simp] theorem State.putSlot_acc (f site n : Nat) (x : SlotEntry) : (s.putSlot f site n x).acc = s.acc := rfl
@[simp] theorem State.putSlot_mx (f site n : Nat) (x : SlotEntry) : (s.putSlot f site n x).mx = s.mx := rfl
@[simp] theorem State.putSlot_unused (f site n : Nat) (x : SlotEntry) : (s.putSlot f site n x).unused = s.unused := rfl
@[simp] theorem State.putSlot_vaults (f site n : Nat) (x : SlotEntry) : (s.putSlot f site n x).vaults = s.vaults := rfl
@[simp] theorem State.putSlot_tsScrub (f site n : Nat) (x : SlotEntry) : (s.putSlot f site n x).tsScrub = s.tsScrub := rfl
@[simp] theorem State.putSlot_lines (f site n : Nat) (x : SlotEntry) : (s.putSlot f site n x).lines = s.lines := rfl
@[simp] theorem State.putSlot_replPtr (f site n : Nat) (x : SlotEntry) : (s.putSlot f site n x).replPtr = s.replPtr := rfl
@[simp] theorem State.putSlot_halves (f site n : Nat) (x : SlotEntry) : (s.putSlot f site n x).halves = s.halves := rfl
@[simp] theorem State.putSlot_cacheQ (f site n : Nat) (x : SlotEntry) : (s.putSlot f site n x).cacheQ = s.cacheQ := rfl
@[simp] theorem State.putSlot_routes (f site n : Nat) (x : SlotEntry) : (s.putSlot f site n x).routes = s.routes := rfl
@[simp] theorem State.putSlot_regions (f site n : Nat) (x : SlotEntry) : (s.putSlot f site n x).regions = s.regions := rfl
@[simp] theorem State.putSlot_kmaps (f site n : Nat) (x : SlotEntry) : (s.putSlot f site n x).kmaps = s.kmaps := rfl
@[simp] theorem State.putSlot_replicas (f site n : Nat) (x : SlotEntry) : (s.putSlot f site n x).replicas = s.replicas := rfl
@[simp] theorem State.putSlot_homeQ (f site n : Nat) (x : SlotEntry) : (s.putSlot f site n x).homeQ = s.homeQ := rfl
@[simp] theorem State.putSlot_ops (f site n : Nat) (x : SlotEntry) : (s.putSlot f site n x).ops = s.ops := rfl
@[simp] theorem State.putSlot_transit (f site n : Nat) (x : SlotEntry) : (s.putSlot f site n x).transit = s.transit := rfl
@[simp] theorem State.putSlot_discarded (f site n : Nat) (x : SlotEntry) : (s.putSlot f site n x).discarded = s.discarded := rfl
@[simp] theorem State.putSlot_rtMem (f site n : Nat) (x : SlotEntry) : (s.putSlot f site n x).rtMem = s.rtMem := rfl
@[simp] theorem State.putSlot_keeper (f site n : Nat) (x : SlotEntry) : (s.putSlot f site n x).keeper = s.keeper := rfl
@[simp] theorem State.putSlot_links (f site n : Nat) (x : SlotEntry) : (s.putSlot f site n x).links = s.links := rfl
@[simp] theorem State.putSlot_chans (f site n : Nat) (x : SlotEntry) : (s.putSlot f site n x).chans = s.chans := rfl
@[simp] theorem State.putSlot_dma (f site n : Nat) (x : SlotEntry) : (s.putSlot f site n x).dma = s.dma := rfl
@[simp] theorem State.putSlot_rings (f site n : Nat) (x : SlotEntry) : (s.putSlot f site n x).rings = s.rings := rfl
@[simp] theorem State.putSlot_parts (f site n : Nat) (x : SlotEntry) : (s.putSlot f site n x).parts = s.parts := rfl
@[simp] theorem State.putSlot_scrubs (f site n : Nat) (x : SlotEntry) : (s.putSlot f site n x).scrubs = s.scrubs := rfl
@[simp] theorem State.putSlot_lists (f site n : Nat) (x : SlotEntry) : (s.putSlot f site n x).lists = s.lists := rfl
@[simp] theorem State.putSlot_rotas (f site n : Nat) (x : SlotEntry) : (s.putSlot f site n x).rotas = s.rotas := rfl
@[simp] theorem State.putSlot_frame (f site n : Nat) (x : SlotEntry) : (s.putSlot f site n x).frame = s.frame := rfl
@[simp] theorem State.putSlot_checker (f site n : Nat) (x : SlotEntry) : (s.putSlot f site n x).checker = s.checker := rfl
@[simp] theorem State.putSlot_recorder (f site n : Nat) (x : SlotEntry) : (s.putSlot f site n x).recorder = s.recorder := rfl
@[simp] theorem State.putSlot_power (f site n : Nat) (x : SlotEntry) : (s.putSlot f site n x).power = s.power := rfl
@[simp] theorem State.putSlot_startup (f site n : Nat) (x : SlotEntry) : (s.putSlot f site n x).startup = s.startup := rfl
@[simp] theorem State.putSlot_flash (f site n : Nat) (x : SlotEntry) : (s.putSlot f site n x).flash = s.flash := rfl
@[simp] theorem State.putSlot_sec (f site n : Nat) (x : SlotEntry) : (s.putSlot f site n x).sec = s.sec := rfl
@[simp] theorem State.putSlot_tap (f site n : Nat) (x : SlotEntry) : (s.putSlot f site n x).tap = s.tap := rfl
@[simp] theorem State.putSlot_cores (f site n : Nat) (x : SlotEntry) : (s.putSlot f site n x).cores = s.cores := rfl
@[simp] theorem State.putSlot_steps (f site n : Nat) (x : SlotEntry) : (s.putSlot f site n x).steps = s.steps := rfl
@[simp] theorem State.putSlot_host (f site n : Nat) (x : SlotEntry) : (s.putSlot f site n x).host = s.host := rfl

/-! ### setG -/

@[simp] theorem State.setG_pending (t L r : Nat) (v : Word) : (s.setG t L r v).pending = s.pending := rfl
@[simp] theorem State.setG_tick (t L r : Nat) (v : Word) : (s.setG t L r v).tick = s.tick := rfl
@[simp] theorem State.setG_regs (t L r : Nat) (v : Word) : (s.setG t L r v).regs = s.regs := rfl
@[simp] theorem State.setG_strobed (t L r : Nat) (v : Word) : (s.setG t L r v).strobed = s.strobed := rfl
@[simp] theorem State.setG_pairs (t L r : Nat) (v : Word) : (s.setG t L r v).pairs = s.pairs := rfl
@[simp] theorem State.setG_applying (t L r : Nat) (v : Word) : (s.setG t L r v).applying = s.applying := rfl
@[simp] theorem State.setG_mem (t L r : Nat) (v : Word) : (s.setG t L r v).mem = s.mem := rfl
@[simp] theorem State.setG_poison (t L r : Nat) (v : Word) : (s.setG t L r v).poison = s.poison := rfl
@[simp] theorem State.setG_imem (t L r : Nat) (v : Word) : (s.setG t L r v).imem = s.imem := rfl
@[simp] theorem State.setG_imemPoison (t L r : Nat) (v : Word) : (s.setG t L r v).imemPoison = s.imemPoison := rfl
@[simp] theorem State.setG_preds (t L r : Nat) (v : Word) : (s.setG t L r v).preds = s.preds := rfl
@[simp] theorem State.setG_rotors (t L r : Nat) (v : Word) : (s.setG t L r v).rotors = s.rotors := rfl
@[simp] theorem State.setG_groups (t L r : Nat) (v : Word) : (s.setG t L r v).groups = s.groups := rfl
@[simp] theorem State.setG_kernels (t L r : Nat) (v : Word) : (s.setG t L r v).kernels = s.kernels := rfl
@[simp] theorem State.setG_cells (t L r : Nat) (v : Word) : (s.setG t L r v).cells = s.cells := rfl
@[simp] theorem State.setG_acc (t L r : Nat) (v : Word) : (s.setG t L r v).acc = s.acc := rfl
@[simp] theorem State.setG_mx (t L r : Nat) (v : Word) : (s.setG t L r v).mx = s.mx := rfl
@[simp] theorem State.setG_unused (t L r : Nat) (v : Word) : (s.setG t L r v).unused = s.unused := rfl
@[simp] theorem State.setG_slots (t L r : Nat) (v : Word) : (s.setG t L r v).slots = s.slots := rfl
@[simp] theorem State.setG_vaults (t L r : Nat) (v : Word) : (s.setG t L r v).vaults = s.vaults := rfl
@[simp] theorem State.setG_tsScrub (t L r : Nat) (v : Word) : (s.setG t L r v).tsScrub = s.tsScrub := rfl
@[simp] theorem State.setG_lines (t L r : Nat) (v : Word) : (s.setG t L r v).lines = s.lines := rfl
@[simp] theorem State.setG_replPtr (t L r : Nat) (v : Word) : (s.setG t L r v).replPtr = s.replPtr := rfl
@[simp] theorem State.setG_halves (t L r : Nat) (v : Word) : (s.setG t L r v).halves = s.halves := rfl
@[simp] theorem State.setG_cacheQ (t L r : Nat) (v : Word) : (s.setG t L r v).cacheQ = s.cacheQ := rfl
@[simp] theorem State.setG_routes (t L r : Nat) (v : Word) : (s.setG t L r v).routes = s.routes := rfl
@[simp] theorem State.setG_regions (t L r : Nat) (v : Word) : (s.setG t L r v).regions = s.regions := rfl
@[simp] theorem State.setG_kmaps (t L r : Nat) (v : Word) : (s.setG t L r v).kmaps = s.kmaps := rfl
@[simp] theorem State.setG_replicas (t L r : Nat) (v : Word) : (s.setG t L r v).replicas = s.replicas := rfl
@[simp] theorem State.setG_homeQ (t L r : Nat) (v : Word) : (s.setG t L r v).homeQ = s.homeQ := rfl
@[simp] theorem State.setG_ops (t L r : Nat) (v : Word) : (s.setG t L r v).ops = s.ops := rfl
@[simp] theorem State.setG_transit (t L r : Nat) (v : Word) : (s.setG t L r v).transit = s.transit := rfl
@[simp] theorem State.setG_discarded (t L r : Nat) (v : Word) : (s.setG t L r v).discarded = s.discarded := rfl
@[simp] theorem State.setG_rtMem (t L r : Nat) (v : Word) : (s.setG t L r v).rtMem = s.rtMem := rfl
@[simp] theorem State.setG_keeper (t L r : Nat) (v : Word) : (s.setG t L r v).keeper = s.keeper := rfl
@[simp] theorem State.setG_links (t L r : Nat) (v : Word) : (s.setG t L r v).links = s.links := rfl
@[simp] theorem State.setG_chans (t L r : Nat) (v : Word) : (s.setG t L r v).chans = s.chans := rfl
@[simp] theorem State.setG_dma (t L r : Nat) (v : Word) : (s.setG t L r v).dma = s.dma := rfl
@[simp] theorem State.setG_rings (t L r : Nat) (v : Word) : (s.setG t L r v).rings = s.rings := rfl
@[simp] theorem State.setG_parts (t L r : Nat) (v : Word) : (s.setG t L r v).parts = s.parts := rfl
@[simp] theorem State.setG_scrubs (t L r : Nat) (v : Word) : (s.setG t L r v).scrubs = s.scrubs := rfl
@[simp] theorem State.setG_lists (t L r : Nat) (v : Word) : (s.setG t L r v).lists = s.lists := rfl
@[simp] theorem State.setG_rotas (t L r : Nat) (v : Word) : (s.setG t L r v).rotas = s.rotas := rfl
@[simp] theorem State.setG_frame (t L r : Nat) (v : Word) : (s.setG t L r v).frame = s.frame := rfl
@[simp] theorem State.setG_checker (t L r : Nat) (v : Word) : (s.setG t L r v).checker = s.checker := rfl
@[simp] theorem State.setG_recorder (t L r : Nat) (v : Word) : (s.setG t L r v).recorder = s.recorder := rfl
@[simp] theorem State.setG_power (t L r : Nat) (v : Word) : (s.setG t L r v).power = s.power := rfl
@[simp] theorem State.setG_startup (t L r : Nat) (v : Word) : (s.setG t L r v).startup = s.startup := rfl
@[simp] theorem State.setG_flash (t L r : Nat) (v : Word) : (s.setG t L r v).flash = s.flash := rfl
@[simp] theorem State.setG_sec (t L r : Nat) (v : Word) : (s.setG t L r v).sec = s.sec := rfl
@[simp] theorem State.setG_tap (t L r : Nat) (v : Word) : (s.setG t L r v).tap = s.tap := rfl
@[simp] theorem State.setG_cores (t L r : Nat) (v : Word) : (s.setG t L r v).cores = s.cores := rfl
@[simp] theorem State.setG_steps (t L r : Nat) (v : Word) : (s.setG t L r v).steps = s.steps := rfl
@[simp] theorem State.setG_host (t L r : Nat) (v : Word) : (s.setG t L r v).host = s.host := rfl

/-! ### putRotor -/

@[simp] theorem State.putRotor_pending (t : Nat) (x : Rotor) : (s.putRotor t x).pending = s.pending := rfl
@[simp] theorem State.putRotor_tick (t : Nat) (x : Rotor) : (s.putRotor t x).tick = s.tick := rfl
@[simp] theorem State.putRotor_regs (t : Nat) (x : Rotor) : (s.putRotor t x).regs = s.regs := rfl
@[simp] theorem State.putRotor_strobed (t : Nat) (x : Rotor) : (s.putRotor t x).strobed = s.strobed := rfl
@[simp] theorem State.putRotor_pairs (t : Nat) (x : Rotor) : (s.putRotor t x).pairs = s.pairs := rfl
@[simp] theorem State.putRotor_applying (t : Nat) (x : Rotor) : (s.putRotor t x).applying = s.applying := rfl
@[simp] theorem State.putRotor_mem (t : Nat) (x : Rotor) : (s.putRotor t x).mem = s.mem := rfl
@[simp] theorem State.putRotor_poison (t : Nat) (x : Rotor) : (s.putRotor t x).poison = s.poison := rfl
@[simp] theorem State.putRotor_imem (t : Nat) (x : Rotor) : (s.putRotor t x).imem = s.imem := rfl
@[simp] theorem State.putRotor_imemPoison (t : Nat) (x : Rotor) : (s.putRotor t x).imemPoison = s.imemPoison := rfl
@[simp] theorem State.putRotor_gpr (t : Nat) (x : Rotor) : (s.putRotor t x).gpr = s.gpr := rfl
@[simp] theorem State.putRotor_preds (t : Nat) (x : Rotor) : (s.putRotor t x).preds = s.preds := rfl
@[simp] theorem State.putRotor_groups (t : Nat) (x : Rotor) : (s.putRotor t x).groups = s.groups := rfl
@[simp] theorem State.putRotor_kernels (t : Nat) (x : Rotor) : (s.putRotor t x).kernels = s.kernels := rfl
@[simp] theorem State.putRotor_cells (t : Nat) (x : Rotor) : (s.putRotor t x).cells = s.cells := rfl
@[simp] theorem State.putRotor_acc (t : Nat) (x : Rotor) : (s.putRotor t x).acc = s.acc := rfl
@[simp] theorem State.putRotor_mx (t : Nat) (x : Rotor) : (s.putRotor t x).mx = s.mx := rfl
@[simp] theorem State.putRotor_unused (t : Nat) (x : Rotor) : (s.putRotor t x).unused = s.unused := rfl
@[simp] theorem State.putRotor_slots (t : Nat) (x : Rotor) : (s.putRotor t x).slots = s.slots := rfl
@[simp] theorem State.putRotor_vaults (t : Nat) (x : Rotor) : (s.putRotor t x).vaults = s.vaults := rfl
@[simp] theorem State.putRotor_tsScrub (t : Nat) (x : Rotor) : (s.putRotor t x).tsScrub = s.tsScrub := rfl
@[simp] theorem State.putRotor_lines (t : Nat) (x : Rotor) : (s.putRotor t x).lines = s.lines := rfl
@[simp] theorem State.putRotor_replPtr (t : Nat) (x : Rotor) : (s.putRotor t x).replPtr = s.replPtr := rfl
@[simp] theorem State.putRotor_halves (t : Nat) (x : Rotor) : (s.putRotor t x).halves = s.halves := rfl
@[simp] theorem State.putRotor_cacheQ (t : Nat) (x : Rotor) : (s.putRotor t x).cacheQ = s.cacheQ := rfl
@[simp] theorem State.putRotor_routes (t : Nat) (x : Rotor) : (s.putRotor t x).routes = s.routes := rfl
@[simp] theorem State.putRotor_regions (t : Nat) (x : Rotor) : (s.putRotor t x).regions = s.regions := rfl
@[simp] theorem State.putRotor_kmaps (t : Nat) (x : Rotor) : (s.putRotor t x).kmaps = s.kmaps := rfl
@[simp] theorem State.putRotor_replicas (t : Nat) (x : Rotor) : (s.putRotor t x).replicas = s.replicas := rfl
@[simp] theorem State.putRotor_homeQ (t : Nat) (x : Rotor) : (s.putRotor t x).homeQ = s.homeQ := rfl
@[simp] theorem State.putRotor_ops (t : Nat) (x : Rotor) : (s.putRotor t x).ops = s.ops := rfl
@[simp] theorem State.putRotor_transit (t : Nat) (x : Rotor) : (s.putRotor t x).transit = s.transit := rfl
@[simp] theorem State.putRotor_discarded (t : Nat) (x : Rotor) : (s.putRotor t x).discarded = s.discarded := rfl
@[simp] theorem State.putRotor_rtMem (t : Nat) (x : Rotor) : (s.putRotor t x).rtMem = s.rtMem := rfl
@[simp] theorem State.putRotor_keeper (t : Nat) (x : Rotor) : (s.putRotor t x).keeper = s.keeper := rfl
@[simp] theorem State.putRotor_links (t : Nat) (x : Rotor) : (s.putRotor t x).links = s.links := rfl
@[simp] theorem State.putRotor_chans (t : Nat) (x : Rotor) : (s.putRotor t x).chans = s.chans := rfl
@[simp] theorem State.putRotor_dma (t : Nat) (x : Rotor) : (s.putRotor t x).dma = s.dma := rfl
@[simp] theorem State.putRotor_rings (t : Nat) (x : Rotor) : (s.putRotor t x).rings = s.rings := rfl
@[simp] theorem State.putRotor_parts (t : Nat) (x : Rotor) : (s.putRotor t x).parts = s.parts := rfl
@[simp] theorem State.putRotor_scrubs (t : Nat) (x : Rotor) : (s.putRotor t x).scrubs = s.scrubs := rfl
@[simp] theorem State.putRotor_lists (t : Nat) (x : Rotor) : (s.putRotor t x).lists = s.lists := rfl
@[simp] theorem State.putRotor_rotas (t : Nat) (x : Rotor) : (s.putRotor t x).rotas = s.rotas := rfl
@[simp] theorem State.putRotor_frame (t : Nat) (x : Rotor) : (s.putRotor t x).frame = s.frame := rfl
@[simp] theorem State.putRotor_checker (t : Nat) (x : Rotor) : (s.putRotor t x).checker = s.checker := rfl
@[simp] theorem State.putRotor_recorder (t : Nat) (x : Rotor) : (s.putRotor t x).recorder = s.recorder := rfl
@[simp] theorem State.putRotor_power (t : Nat) (x : Rotor) : (s.putRotor t x).power = s.power := rfl
@[simp] theorem State.putRotor_startup (t : Nat) (x : Rotor) : (s.putRotor t x).startup = s.startup := rfl
@[simp] theorem State.putRotor_flash (t : Nat) (x : Rotor) : (s.putRotor t x).flash = s.flash := rfl
@[simp] theorem State.putRotor_sec (t : Nat) (x : Rotor) : (s.putRotor t x).sec = s.sec := rfl
@[simp] theorem State.putRotor_tap (t : Nat) (x : Rotor) : (s.putRotor t x).tap = s.tap := rfl
@[simp] theorem State.putRotor_cores (t : Nat) (x : Rotor) : (s.putRotor t x).cores = s.cores := rfl
@[simp] theorem State.putRotor_steps (t : Nat) (x : Rotor) : (s.putRotor t x).steps = s.steps := rfl
@[simp] theorem State.putRotor_host (t : Nat) (x : Rotor) : (s.putRotor t x).host = s.host := rfl

/-! ### putPipe -/

@[simp] theorem State.putPipe_pending (t : Nat) (l : List PipeItem) : (s.putPipe t l).pending = s.pending := rfl
@[simp] theorem State.putPipe_tick (t : Nat) (l : List PipeItem) : (s.putPipe t l).tick = s.tick := rfl
@[simp] theorem State.putPipe_regs (t : Nat) (l : List PipeItem) : (s.putPipe t l).regs = s.regs := rfl
@[simp] theorem State.putPipe_strobed (t : Nat) (l : List PipeItem) : (s.putPipe t l).strobed = s.strobed := rfl
@[simp] theorem State.putPipe_pairs (t : Nat) (l : List PipeItem) : (s.putPipe t l).pairs = s.pairs := rfl
@[simp] theorem State.putPipe_applying (t : Nat) (l : List PipeItem) : (s.putPipe t l).applying = s.applying := rfl
@[simp] theorem State.putPipe_mem (t : Nat) (l : List PipeItem) : (s.putPipe t l).mem = s.mem := rfl
@[simp] theorem State.putPipe_poison (t : Nat) (l : List PipeItem) : (s.putPipe t l).poison = s.poison := rfl
@[simp] theorem State.putPipe_imem (t : Nat) (l : List PipeItem) : (s.putPipe t l).imem = s.imem := rfl
@[simp] theorem State.putPipe_imemPoison (t : Nat) (l : List PipeItem) : (s.putPipe t l).imemPoison = s.imemPoison := rfl
@[simp] theorem State.putPipe_gpr (t : Nat) (l : List PipeItem) : (s.putPipe t l).gpr = s.gpr := rfl
@[simp] theorem State.putPipe_preds (t : Nat) (l : List PipeItem) : (s.putPipe t l).preds = s.preds := rfl
@[simp] theorem State.putPipe_groups (t : Nat) (l : List PipeItem) : (s.putPipe t l).groups = s.groups := rfl
@[simp] theorem State.putPipe_kernels (t : Nat) (l : List PipeItem) : (s.putPipe t l).kernels = s.kernels := rfl
@[simp] theorem State.putPipe_cells (t : Nat) (l : List PipeItem) : (s.putPipe t l).cells = s.cells := rfl
@[simp] theorem State.putPipe_acc (t : Nat) (l : List PipeItem) : (s.putPipe t l).acc = s.acc := rfl
@[simp] theorem State.putPipe_mx (t : Nat) (l : List PipeItem) : (s.putPipe t l).mx = s.mx := rfl
@[simp] theorem State.putPipe_unused (t : Nat) (l : List PipeItem) : (s.putPipe t l).unused = s.unused := rfl
@[simp] theorem State.putPipe_slots (t : Nat) (l : List PipeItem) : (s.putPipe t l).slots = s.slots := rfl
@[simp] theorem State.putPipe_vaults (t : Nat) (l : List PipeItem) : (s.putPipe t l).vaults = s.vaults := rfl
@[simp] theorem State.putPipe_tsScrub (t : Nat) (l : List PipeItem) : (s.putPipe t l).tsScrub = s.tsScrub := rfl
@[simp] theorem State.putPipe_lines (t : Nat) (l : List PipeItem) : (s.putPipe t l).lines = s.lines := rfl
@[simp] theorem State.putPipe_replPtr (t : Nat) (l : List PipeItem) : (s.putPipe t l).replPtr = s.replPtr := rfl
@[simp] theorem State.putPipe_halves (t : Nat) (l : List PipeItem) : (s.putPipe t l).halves = s.halves := rfl
@[simp] theorem State.putPipe_cacheQ (t : Nat) (l : List PipeItem) : (s.putPipe t l).cacheQ = s.cacheQ := rfl
@[simp] theorem State.putPipe_routes (t : Nat) (l : List PipeItem) : (s.putPipe t l).routes = s.routes := rfl
@[simp] theorem State.putPipe_regions (t : Nat) (l : List PipeItem) : (s.putPipe t l).regions = s.regions := rfl
@[simp] theorem State.putPipe_kmaps (t : Nat) (l : List PipeItem) : (s.putPipe t l).kmaps = s.kmaps := rfl
@[simp] theorem State.putPipe_replicas (t : Nat) (l : List PipeItem) : (s.putPipe t l).replicas = s.replicas := rfl
@[simp] theorem State.putPipe_homeQ (t : Nat) (l : List PipeItem) : (s.putPipe t l).homeQ = s.homeQ := rfl
@[simp] theorem State.putPipe_ops (t : Nat) (l : List PipeItem) : (s.putPipe t l).ops = s.ops := rfl
@[simp] theorem State.putPipe_transit (t : Nat) (l : List PipeItem) : (s.putPipe t l).transit = s.transit := rfl
@[simp] theorem State.putPipe_discarded (t : Nat) (l : List PipeItem) : (s.putPipe t l).discarded = s.discarded := rfl
@[simp] theorem State.putPipe_rtMem (t : Nat) (l : List PipeItem) : (s.putPipe t l).rtMem = s.rtMem := rfl
@[simp] theorem State.putPipe_keeper (t : Nat) (l : List PipeItem) : (s.putPipe t l).keeper = s.keeper := rfl
@[simp] theorem State.putPipe_links (t : Nat) (l : List PipeItem) : (s.putPipe t l).links = s.links := rfl
@[simp] theorem State.putPipe_chans (t : Nat) (l : List PipeItem) : (s.putPipe t l).chans = s.chans := rfl
@[simp] theorem State.putPipe_dma (t : Nat) (l : List PipeItem) : (s.putPipe t l).dma = s.dma := rfl
@[simp] theorem State.putPipe_rings (t : Nat) (l : List PipeItem) : (s.putPipe t l).rings = s.rings := rfl
@[simp] theorem State.putPipe_parts (t : Nat) (l : List PipeItem) : (s.putPipe t l).parts = s.parts := rfl
@[simp] theorem State.putPipe_scrubs (t : Nat) (l : List PipeItem) : (s.putPipe t l).scrubs = s.scrubs := rfl
@[simp] theorem State.putPipe_lists (t : Nat) (l : List PipeItem) : (s.putPipe t l).lists = s.lists := rfl
@[simp] theorem State.putPipe_rotas (t : Nat) (l : List PipeItem) : (s.putPipe t l).rotas = s.rotas := rfl
@[simp] theorem State.putPipe_frame (t : Nat) (l : List PipeItem) : (s.putPipe t l).frame = s.frame := rfl
@[simp] theorem State.putPipe_checker (t : Nat) (l : List PipeItem) : (s.putPipe t l).checker = s.checker := rfl
@[simp] theorem State.putPipe_recorder (t : Nat) (l : List PipeItem) : (s.putPipe t l).recorder = s.recorder := rfl
@[simp] theorem State.putPipe_power (t : Nat) (l : List PipeItem) : (s.putPipe t l).power = s.power := rfl
@[simp] theorem State.putPipe_startup (t : Nat) (l : List PipeItem) : (s.putPipe t l).startup = s.startup := rfl
@[simp] theorem State.putPipe_flash (t : Nat) (l : List PipeItem) : (s.putPipe t l).flash = s.flash := rfl
@[simp] theorem State.putPipe_sec (t : Nat) (l : List PipeItem) : (s.putPipe t l).sec = s.sec := rfl
@[simp] theorem State.putPipe_tap (t : Nat) (l : List PipeItem) : (s.putPipe t l).tap = s.tap := rfl
@[simp] theorem State.putPipe_cores (t : Nat) (l : List PipeItem) : (s.putPipe t l).cores = s.cores := rfl
@[simp] theorem State.putPipe_steps (t : Nat) (l : List PipeItem) : (s.putPipe t l).steps = s.steps := rfl
@[simp] theorem State.putPipe_host (t : Nat) (l : List PipeItem) : (s.putPipe t l).host = s.host := rfl

/-! ### putLine -/

@[simp] theorem State.putLine_pending (k : Nat) (x : Line) : (s.putLine k x).pending = s.pending := rfl
@[simp] theorem State.putLine_tick (k : Nat) (x : Line) : (s.putLine k x).tick = s.tick := rfl
@[simp] theorem State.putLine_regs (k : Nat) (x : Line) : (s.putLine k x).regs = s.regs := rfl
@[simp] theorem State.putLine_strobed (k : Nat) (x : Line) : (s.putLine k x).strobed = s.strobed := rfl
@[simp] theorem State.putLine_pairs (k : Nat) (x : Line) : (s.putLine k x).pairs = s.pairs := rfl
@[simp] theorem State.putLine_applying (k : Nat) (x : Line) : (s.putLine k x).applying = s.applying := rfl
@[simp] theorem State.putLine_mem (k : Nat) (x : Line) : (s.putLine k x).mem = s.mem := rfl
@[simp] theorem State.putLine_poison (k : Nat) (x : Line) : (s.putLine k x).poison = s.poison := rfl
@[simp] theorem State.putLine_imem (k : Nat) (x : Line) : (s.putLine k x).imem = s.imem := rfl
@[simp] theorem State.putLine_imemPoison (k : Nat) (x : Line) : (s.putLine k x).imemPoison = s.imemPoison := rfl
@[simp] theorem State.putLine_gpr (k : Nat) (x : Line) : (s.putLine k x).gpr = s.gpr := rfl
@[simp] theorem State.putLine_preds (k : Nat) (x : Line) : (s.putLine k x).preds = s.preds := rfl
@[simp] theorem State.putLine_rotors (k : Nat) (x : Line) : (s.putLine k x).rotors = s.rotors := rfl
@[simp] theorem State.putLine_groups (k : Nat) (x : Line) : (s.putLine k x).groups = s.groups := rfl
@[simp] theorem State.putLine_kernels (k : Nat) (x : Line) : (s.putLine k x).kernels = s.kernels := rfl
@[simp] theorem State.putLine_cells (k : Nat) (x : Line) : (s.putLine k x).cells = s.cells := rfl
@[simp] theorem State.putLine_acc (k : Nat) (x : Line) : (s.putLine k x).acc = s.acc := rfl
@[simp] theorem State.putLine_mx (k : Nat) (x : Line) : (s.putLine k x).mx = s.mx := rfl
@[simp] theorem State.putLine_unused (k : Nat) (x : Line) : (s.putLine k x).unused = s.unused := rfl
@[simp] theorem State.putLine_slots (k : Nat) (x : Line) : (s.putLine k x).slots = s.slots := rfl
@[simp] theorem State.putLine_vaults (k : Nat) (x : Line) : (s.putLine k x).vaults = s.vaults := rfl
@[simp] theorem State.putLine_tsScrub (k : Nat) (x : Line) : (s.putLine k x).tsScrub = s.tsScrub := rfl
@[simp] theorem State.putLine_replPtr (k : Nat) (x : Line) : (s.putLine k x).replPtr = s.replPtr := rfl
@[simp] theorem State.putLine_halves (k : Nat) (x : Line) : (s.putLine k x).halves = s.halves := rfl
@[simp] theorem State.putLine_cacheQ (k : Nat) (x : Line) : (s.putLine k x).cacheQ = s.cacheQ := rfl
@[simp] theorem State.putLine_routes (k : Nat) (x : Line) : (s.putLine k x).routes = s.routes := rfl
@[simp] theorem State.putLine_regions (k : Nat) (x : Line) : (s.putLine k x).regions = s.regions := rfl
@[simp] theorem State.putLine_kmaps (k : Nat) (x : Line) : (s.putLine k x).kmaps = s.kmaps := rfl
@[simp] theorem State.putLine_replicas (k : Nat) (x : Line) : (s.putLine k x).replicas = s.replicas := rfl
@[simp] theorem State.putLine_homeQ (k : Nat) (x : Line) : (s.putLine k x).homeQ = s.homeQ := rfl
@[simp] theorem State.putLine_ops (k : Nat) (x : Line) : (s.putLine k x).ops = s.ops := rfl
@[simp] theorem State.putLine_transit (k : Nat) (x : Line) : (s.putLine k x).transit = s.transit := rfl
@[simp] theorem State.putLine_discarded (k : Nat) (x : Line) : (s.putLine k x).discarded = s.discarded := rfl
@[simp] theorem State.putLine_rtMem (k : Nat) (x : Line) : (s.putLine k x).rtMem = s.rtMem := rfl
@[simp] theorem State.putLine_keeper (k : Nat) (x : Line) : (s.putLine k x).keeper = s.keeper := rfl
@[simp] theorem State.putLine_links (k : Nat) (x : Line) : (s.putLine k x).links = s.links := rfl
@[simp] theorem State.putLine_chans (k : Nat) (x : Line) : (s.putLine k x).chans = s.chans := rfl
@[simp] theorem State.putLine_dma (k : Nat) (x : Line) : (s.putLine k x).dma = s.dma := rfl
@[simp] theorem State.putLine_rings (k : Nat) (x : Line) : (s.putLine k x).rings = s.rings := rfl
@[simp] theorem State.putLine_parts (k : Nat) (x : Line) : (s.putLine k x).parts = s.parts := rfl
@[simp] theorem State.putLine_scrubs (k : Nat) (x : Line) : (s.putLine k x).scrubs = s.scrubs := rfl
@[simp] theorem State.putLine_lists (k : Nat) (x : Line) : (s.putLine k x).lists = s.lists := rfl
@[simp] theorem State.putLine_rotas (k : Nat) (x : Line) : (s.putLine k x).rotas = s.rotas := rfl
@[simp] theorem State.putLine_frame (k : Nat) (x : Line) : (s.putLine k x).frame = s.frame := rfl
@[simp] theorem State.putLine_checker (k : Nat) (x : Line) : (s.putLine k x).checker = s.checker := rfl
@[simp] theorem State.putLine_recorder (k : Nat) (x : Line) : (s.putLine k x).recorder = s.recorder := rfl
@[simp] theorem State.putLine_power (k : Nat) (x : Line) : (s.putLine k x).power = s.power := rfl
@[simp] theorem State.putLine_startup (k : Nat) (x : Line) : (s.putLine k x).startup = s.startup := rfl
@[simp] theorem State.putLine_flash (k : Nat) (x : Line) : (s.putLine k x).flash = s.flash := rfl
@[simp] theorem State.putLine_sec (k : Nat) (x : Line) : (s.putLine k x).sec = s.sec := rfl
@[simp] theorem State.putLine_tap (k : Nat) (x : Line) : (s.putLine k x).tap = s.tap := rfl
@[simp] theorem State.putLine_cores (k : Nat) (x : Line) : (s.putLine k x).cores = s.cores := rfl
@[simp] theorem State.putLine_steps (k : Nat) (x : Line) : (s.putLine k x).steps = s.steps := rfl
@[simp] theorem State.putLine_host (k : Nat) (x : Line) : (s.putLine k x).host = s.host := rfl

/-! ### dropLine -/

@[simp] theorem State.dropLine_pending (k : Nat) : (s.dropLine k).pending = s.pending := rfl
@[simp] theorem State.dropLine_tick (k : Nat) : (s.dropLine k).tick = s.tick := rfl
@[simp] theorem State.dropLine_regs (k : Nat) : (s.dropLine k).regs = s.regs := rfl
@[simp] theorem State.dropLine_strobed (k : Nat) : (s.dropLine k).strobed = s.strobed := rfl
@[simp] theorem State.dropLine_pairs (k : Nat) : (s.dropLine k).pairs = s.pairs := rfl
@[simp] theorem State.dropLine_applying (k : Nat) : (s.dropLine k).applying = s.applying := rfl
@[simp] theorem State.dropLine_mem (k : Nat) : (s.dropLine k).mem = s.mem := rfl
@[simp] theorem State.dropLine_poison (k : Nat) : (s.dropLine k).poison = s.poison := rfl
@[simp] theorem State.dropLine_imem (k : Nat) : (s.dropLine k).imem = s.imem := rfl
@[simp] theorem State.dropLine_imemPoison (k : Nat) : (s.dropLine k).imemPoison = s.imemPoison := rfl
@[simp] theorem State.dropLine_gpr (k : Nat) : (s.dropLine k).gpr = s.gpr := rfl
@[simp] theorem State.dropLine_preds (k : Nat) : (s.dropLine k).preds = s.preds := rfl
@[simp] theorem State.dropLine_rotors (k : Nat) : (s.dropLine k).rotors = s.rotors := rfl
@[simp] theorem State.dropLine_groups (k : Nat) : (s.dropLine k).groups = s.groups := rfl
@[simp] theorem State.dropLine_kernels (k : Nat) : (s.dropLine k).kernels = s.kernels := rfl
@[simp] theorem State.dropLine_cells (k : Nat) : (s.dropLine k).cells = s.cells := rfl
@[simp] theorem State.dropLine_acc (k : Nat) : (s.dropLine k).acc = s.acc := rfl
@[simp] theorem State.dropLine_mx (k : Nat) : (s.dropLine k).mx = s.mx := rfl
@[simp] theorem State.dropLine_unused (k : Nat) : (s.dropLine k).unused = s.unused := rfl
@[simp] theorem State.dropLine_slots (k : Nat) : (s.dropLine k).slots = s.slots := rfl
@[simp] theorem State.dropLine_vaults (k : Nat) : (s.dropLine k).vaults = s.vaults := rfl
@[simp] theorem State.dropLine_tsScrub (k : Nat) : (s.dropLine k).tsScrub = s.tsScrub := rfl
@[simp] theorem State.dropLine_replPtr (k : Nat) : (s.dropLine k).replPtr = s.replPtr := rfl
@[simp] theorem State.dropLine_halves (k : Nat) : (s.dropLine k).halves = s.halves := rfl
@[simp] theorem State.dropLine_cacheQ (k : Nat) : (s.dropLine k).cacheQ = s.cacheQ := rfl
@[simp] theorem State.dropLine_routes (k : Nat) : (s.dropLine k).routes = s.routes := rfl
@[simp] theorem State.dropLine_regions (k : Nat) : (s.dropLine k).regions = s.regions := rfl
@[simp] theorem State.dropLine_kmaps (k : Nat) : (s.dropLine k).kmaps = s.kmaps := rfl
@[simp] theorem State.dropLine_replicas (k : Nat) : (s.dropLine k).replicas = s.replicas := rfl
@[simp] theorem State.dropLine_homeQ (k : Nat) : (s.dropLine k).homeQ = s.homeQ := rfl
@[simp] theorem State.dropLine_ops (k : Nat) : (s.dropLine k).ops = s.ops := rfl
@[simp] theorem State.dropLine_transit (k : Nat) : (s.dropLine k).transit = s.transit := rfl
@[simp] theorem State.dropLine_discarded (k : Nat) : (s.dropLine k).discarded = s.discarded := rfl
@[simp] theorem State.dropLine_rtMem (k : Nat) : (s.dropLine k).rtMem = s.rtMem := rfl
@[simp] theorem State.dropLine_keeper (k : Nat) : (s.dropLine k).keeper = s.keeper := rfl
@[simp] theorem State.dropLine_links (k : Nat) : (s.dropLine k).links = s.links := rfl
@[simp] theorem State.dropLine_chans (k : Nat) : (s.dropLine k).chans = s.chans := rfl
@[simp] theorem State.dropLine_dma (k : Nat) : (s.dropLine k).dma = s.dma := rfl
@[simp] theorem State.dropLine_rings (k : Nat) : (s.dropLine k).rings = s.rings := rfl
@[simp] theorem State.dropLine_parts (k : Nat) : (s.dropLine k).parts = s.parts := rfl
@[simp] theorem State.dropLine_scrubs (k : Nat) : (s.dropLine k).scrubs = s.scrubs := rfl
@[simp] theorem State.dropLine_lists (k : Nat) : (s.dropLine k).lists = s.lists := rfl
@[simp] theorem State.dropLine_rotas (k : Nat) : (s.dropLine k).rotas = s.rotas := rfl
@[simp] theorem State.dropLine_frame (k : Nat) : (s.dropLine k).frame = s.frame := rfl
@[simp] theorem State.dropLine_checker (k : Nat) : (s.dropLine k).checker = s.checker := rfl
@[simp] theorem State.dropLine_recorder (k : Nat) : (s.dropLine k).recorder = s.recorder := rfl
@[simp] theorem State.dropLine_power (k : Nat) : (s.dropLine k).power = s.power := rfl
@[simp] theorem State.dropLine_startup (k : Nat) : (s.dropLine k).startup = s.startup := rfl
@[simp] theorem State.dropLine_flash (k : Nat) : (s.dropLine k).flash = s.flash := rfl
@[simp] theorem State.dropLine_sec (k : Nat) : (s.dropLine k).sec = s.sec := rfl
@[simp] theorem State.dropLine_tap (k : Nat) : (s.dropLine k).tap = s.tap := rfl
@[simp] theorem State.dropLine_cores (k : Nat) : (s.dropLine k).cores = s.cores := rfl
@[simp] theorem State.dropLine_steps (k : Nat) : (s.dropLine k).steps = s.steps := rfl
@[simp] theorem State.dropLine_host (k : Nat) : (s.dropLine k).host = s.host := rfl

/-! ### putXfer -/

@[simp] theorem State.putXfer_pending (k : Nat) (x : Xfer) : (s.putXfer k x).pending = s.pending := rfl
@[simp] theorem State.putXfer_tick (k : Nat) (x : Xfer) : (s.putXfer k x).tick = s.tick := rfl
@[simp] theorem State.putXfer_regs (k : Nat) (x : Xfer) : (s.putXfer k x).regs = s.regs := rfl
@[simp] theorem State.putXfer_strobed (k : Nat) (x : Xfer) : (s.putXfer k x).strobed = s.strobed := rfl
@[simp] theorem State.putXfer_pairs (k : Nat) (x : Xfer) : (s.putXfer k x).pairs = s.pairs := rfl
@[simp] theorem State.putXfer_applying (k : Nat) (x : Xfer) : (s.putXfer k x).applying = s.applying := rfl
@[simp] theorem State.putXfer_mem (k : Nat) (x : Xfer) : (s.putXfer k x).mem = s.mem := rfl
@[simp] theorem State.putXfer_poison (k : Nat) (x : Xfer) : (s.putXfer k x).poison = s.poison := rfl
@[simp] theorem State.putXfer_imem (k : Nat) (x : Xfer) : (s.putXfer k x).imem = s.imem := rfl
@[simp] theorem State.putXfer_imemPoison (k : Nat) (x : Xfer) : (s.putXfer k x).imemPoison = s.imemPoison := rfl
@[simp] theorem State.putXfer_gpr (k : Nat) (x : Xfer) : (s.putXfer k x).gpr = s.gpr := rfl
@[simp] theorem State.putXfer_preds (k : Nat) (x : Xfer) : (s.putXfer k x).preds = s.preds := rfl
@[simp] theorem State.putXfer_rotors (k : Nat) (x : Xfer) : (s.putXfer k x).rotors = s.rotors := rfl
@[simp] theorem State.putXfer_groups (k : Nat) (x : Xfer) : (s.putXfer k x).groups = s.groups := rfl
@[simp] theorem State.putXfer_kernels (k : Nat) (x : Xfer) : (s.putXfer k x).kernels = s.kernels := rfl
@[simp] theorem State.putXfer_cells (k : Nat) (x : Xfer) : (s.putXfer k x).cells = s.cells := rfl
@[simp] theorem State.putXfer_acc (k : Nat) (x : Xfer) : (s.putXfer k x).acc = s.acc := rfl
@[simp] theorem State.putXfer_mx (k : Nat) (x : Xfer) : (s.putXfer k x).mx = s.mx := rfl
@[simp] theorem State.putXfer_unused (k : Nat) (x : Xfer) : (s.putXfer k x).unused = s.unused := rfl
@[simp] theorem State.putXfer_slots (k : Nat) (x : Xfer) : (s.putXfer k x).slots = s.slots := rfl
@[simp] theorem State.putXfer_vaults (k : Nat) (x : Xfer) : (s.putXfer k x).vaults = s.vaults := rfl
@[simp] theorem State.putXfer_tsScrub (k : Nat) (x : Xfer) : (s.putXfer k x).tsScrub = s.tsScrub := rfl
@[simp] theorem State.putXfer_lines (k : Nat) (x : Xfer) : (s.putXfer k x).lines = s.lines := rfl
@[simp] theorem State.putXfer_replPtr (k : Nat) (x : Xfer) : (s.putXfer k x).replPtr = s.replPtr := rfl
@[simp] theorem State.putXfer_halves (k : Nat) (x : Xfer) : (s.putXfer k x).halves = s.halves := rfl
@[simp] theorem State.putXfer_cacheQ (k : Nat) (x : Xfer) : (s.putXfer k x).cacheQ = s.cacheQ := rfl
@[simp] theorem State.putXfer_routes (k : Nat) (x : Xfer) : (s.putXfer k x).routes = s.routes := rfl
@[simp] theorem State.putXfer_regions (k : Nat) (x : Xfer) : (s.putXfer k x).regions = s.regions := rfl
@[simp] theorem State.putXfer_kmaps (k : Nat) (x : Xfer) : (s.putXfer k x).kmaps = s.kmaps := rfl
@[simp] theorem State.putXfer_replicas (k : Nat) (x : Xfer) : (s.putXfer k x).replicas = s.replicas := rfl
@[simp] theorem State.putXfer_homeQ (k : Nat) (x : Xfer) : (s.putXfer k x).homeQ = s.homeQ := rfl
@[simp] theorem State.putXfer_ops (k : Nat) (x : Xfer) : (s.putXfer k x).ops = s.ops := rfl
@[simp] theorem State.putXfer_transit (k : Nat) (x : Xfer) : (s.putXfer k x).transit = s.transit := rfl
@[simp] theorem State.putXfer_discarded (k : Nat) (x : Xfer) : (s.putXfer k x).discarded = s.discarded := rfl
@[simp] theorem State.putXfer_rtMem (k : Nat) (x : Xfer) : (s.putXfer k x).rtMem = s.rtMem := rfl
@[simp] theorem State.putXfer_keeper (k : Nat) (x : Xfer) : (s.putXfer k x).keeper = s.keeper := rfl
@[simp] theorem State.putXfer_links (k : Nat) (x : Xfer) : (s.putXfer k x).links = s.links := rfl
@[simp] theorem State.putXfer_chans (k : Nat) (x : Xfer) : (s.putXfer k x).chans = s.chans := rfl
@[simp] theorem State.putXfer_rings (k : Nat) (x : Xfer) : (s.putXfer k x).rings = s.rings := rfl
@[simp] theorem State.putXfer_parts (k : Nat) (x : Xfer) : (s.putXfer k x).parts = s.parts := rfl
@[simp] theorem State.putXfer_scrubs (k : Nat) (x : Xfer) : (s.putXfer k x).scrubs = s.scrubs := rfl
@[simp] theorem State.putXfer_lists (k : Nat) (x : Xfer) : (s.putXfer k x).lists = s.lists := rfl
@[simp] theorem State.putXfer_rotas (k : Nat) (x : Xfer) : (s.putXfer k x).rotas = s.rotas := rfl
@[simp] theorem State.putXfer_frame (k : Nat) (x : Xfer) : (s.putXfer k x).frame = s.frame := rfl
@[simp] theorem State.putXfer_checker (k : Nat) (x : Xfer) : (s.putXfer k x).checker = s.checker := rfl
@[simp] theorem State.putXfer_recorder (k : Nat) (x : Xfer) : (s.putXfer k x).recorder = s.recorder := rfl
@[simp] theorem State.putXfer_power (k : Nat) (x : Xfer) : (s.putXfer k x).power = s.power := rfl
@[simp] theorem State.putXfer_startup (k : Nat) (x : Xfer) : (s.putXfer k x).startup = s.startup := rfl
@[simp] theorem State.putXfer_flash (k : Nat) (x : Xfer) : (s.putXfer k x).flash = s.flash := rfl
@[simp] theorem State.putXfer_sec (k : Nat) (x : Xfer) : (s.putXfer k x).sec = s.sec := rfl
@[simp] theorem State.putXfer_tap (k : Nat) (x : Xfer) : (s.putXfer k x).tap = s.tap := rfl
@[simp] theorem State.putXfer_cores (k : Nat) (x : Xfer) : (s.putXfer k x).cores = s.cores := rfl
@[simp] theorem State.putXfer_steps (k : Nat) (x : Xfer) : (s.putXfer k x).steps = s.steps := rfl
@[simp] theorem State.putXfer_host (k : Nat) (x : Xfer) : (s.putXfer k x).host = s.host := rfl

/-! ### putChan -/

@[simp] theorem State.putChan_pending (p c : Nat) (x : Chan) : (s.putChan p c x).pending = s.pending := rfl
@[simp] theorem State.putChan_tick (p c : Nat) (x : Chan) : (s.putChan p c x).tick = s.tick := rfl
@[simp] theorem State.putChan_regs (p c : Nat) (x : Chan) : (s.putChan p c x).regs = s.regs := rfl
@[simp] theorem State.putChan_strobed (p c : Nat) (x : Chan) : (s.putChan p c x).strobed = s.strobed := rfl
@[simp] theorem State.putChan_pairs (p c : Nat) (x : Chan) : (s.putChan p c x).pairs = s.pairs := rfl
@[simp] theorem State.putChan_applying (p c : Nat) (x : Chan) : (s.putChan p c x).applying = s.applying := rfl
@[simp] theorem State.putChan_mem (p c : Nat) (x : Chan) : (s.putChan p c x).mem = s.mem := rfl
@[simp] theorem State.putChan_poison (p c : Nat) (x : Chan) : (s.putChan p c x).poison = s.poison := rfl
@[simp] theorem State.putChan_imem (p c : Nat) (x : Chan) : (s.putChan p c x).imem = s.imem := rfl
@[simp] theorem State.putChan_imemPoison (p c : Nat) (x : Chan) : (s.putChan p c x).imemPoison = s.imemPoison := rfl
@[simp] theorem State.putChan_gpr (p c : Nat) (x : Chan) : (s.putChan p c x).gpr = s.gpr := rfl
@[simp] theorem State.putChan_preds (p c : Nat) (x : Chan) : (s.putChan p c x).preds = s.preds := rfl
@[simp] theorem State.putChan_rotors (p c : Nat) (x : Chan) : (s.putChan p c x).rotors = s.rotors := rfl
@[simp] theorem State.putChan_groups (p c : Nat) (x : Chan) : (s.putChan p c x).groups = s.groups := rfl
@[simp] theorem State.putChan_kernels (p c : Nat) (x : Chan) : (s.putChan p c x).kernels = s.kernels := rfl
@[simp] theorem State.putChan_cells (p c : Nat) (x : Chan) : (s.putChan p c x).cells = s.cells := rfl
@[simp] theorem State.putChan_acc (p c : Nat) (x : Chan) : (s.putChan p c x).acc = s.acc := rfl
@[simp] theorem State.putChan_mx (p c : Nat) (x : Chan) : (s.putChan p c x).mx = s.mx := rfl
@[simp] theorem State.putChan_unused (p c : Nat) (x : Chan) : (s.putChan p c x).unused = s.unused := rfl
@[simp] theorem State.putChan_slots (p c : Nat) (x : Chan) : (s.putChan p c x).slots = s.slots := rfl
@[simp] theorem State.putChan_vaults (p c : Nat) (x : Chan) : (s.putChan p c x).vaults = s.vaults := rfl
@[simp] theorem State.putChan_tsScrub (p c : Nat) (x : Chan) : (s.putChan p c x).tsScrub = s.tsScrub := rfl
@[simp] theorem State.putChan_lines (p c : Nat) (x : Chan) : (s.putChan p c x).lines = s.lines := rfl
@[simp] theorem State.putChan_replPtr (p c : Nat) (x : Chan) : (s.putChan p c x).replPtr = s.replPtr := rfl
@[simp] theorem State.putChan_halves (p c : Nat) (x : Chan) : (s.putChan p c x).halves = s.halves := rfl
@[simp] theorem State.putChan_cacheQ (p c : Nat) (x : Chan) : (s.putChan p c x).cacheQ = s.cacheQ := rfl
@[simp] theorem State.putChan_routes (p c : Nat) (x : Chan) : (s.putChan p c x).routes = s.routes := rfl
@[simp] theorem State.putChan_regions (p c : Nat) (x : Chan) : (s.putChan p c x).regions = s.regions := rfl
@[simp] theorem State.putChan_kmaps (p c : Nat) (x : Chan) : (s.putChan p c x).kmaps = s.kmaps := rfl
@[simp] theorem State.putChan_replicas (p c : Nat) (x : Chan) : (s.putChan p c x).replicas = s.replicas := rfl
@[simp] theorem State.putChan_homeQ (p c : Nat) (x : Chan) : (s.putChan p c x).homeQ = s.homeQ := rfl
@[simp] theorem State.putChan_ops (p c : Nat) (x : Chan) : (s.putChan p c x).ops = s.ops := rfl
@[simp] theorem State.putChan_transit (p c : Nat) (x : Chan) : (s.putChan p c x).transit = s.transit := rfl
@[simp] theorem State.putChan_discarded (p c : Nat) (x : Chan) : (s.putChan p c x).discarded = s.discarded := rfl
@[simp] theorem State.putChan_rtMem (p c : Nat) (x : Chan) : (s.putChan p c x).rtMem = s.rtMem := rfl
@[simp] theorem State.putChan_keeper (p c : Nat) (x : Chan) : (s.putChan p c x).keeper = s.keeper := rfl
@[simp] theorem State.putChan_links (p c : Nat) (x : Chan) : (s.putChan p c x).links = s.links := rfl
@[simp] theorem State.putChan_dma (p c : Nat) (x : Chan) : (s.putChan p c x).dma = s.dma := rfl
@[simp] theorem State.putChan_rings (p c : Nat) (x : Chan) : (s.putChan p c x).rings = s.rings := rfl
@[simp] theorem State.putChan_parts (p c : Nat) (x : Chan) : (s.putChan p c x).parts = s.parts := rfl
@[simp] theorem State.putChan_scrubs (p c : Nat) (x : Chan) : (s.putChan p c x).scrubs = s.scrubs := rfl
@[simp] theorem State.putChan_lists (p c : Nat) (x : Chan) : (s.putChan p c x).lists = s.lists := rfl
@[simp] theorem State.putChan_rotas (p c : Nat) (x : Chan) : (s.putChan p c x).rotas = s.rotas := rfl
@[simp] theorem State.putChan_frame (p c : Nat) (x : Chan) : (s.putChan p c x).frame = s.frame := rfl
@[simp] theorem State.putChan_checker (p c : Nat) (x : Chan) : (s.putChan p c x).checker = s.checker := rfl
@[simp] theorem State.putChan_recorder (p c : Nat) (x : Chan) : (s.putChan p c x).recorder = s.recorder := rfl
@[simp] theorem State.putChan_power (p c : Nat) (x : Chan) : (s.putChan p c x).power = s.power := rfl
@[simp] theorem State.putChan_startup (p c : Nat) (x : Chan) : (s.putChan p c x).startup = s.startup := rfl
@[simp] theorem State.putChan_flash (p c : Nat) (x : Chan) : (s.putChan p c x).flash = s.flash := rfl
@[simp] theorem State.putChan_sec (p c : Nat) (x : Chan) : (s.putChan p c x).sec = s.sec := rfl
@[simp] theorem State.putChan_tap (p c : Nat) (x : Chan) : (s.putChan p c x).tap = s.tap := rfl
@[simp] theorem State.putChan_cores (p c : Nat) (x : Chan) : (s.putChan p c x).cores = s.cores := rfl
@[simp] theorem State.putChan_steps (p c : Nat) (x : Chan) : (s.putChan p c x).steps = s.steps := rfl
@[simp] theorem State.putChan_host (p c : Nat) (x : Chan) : (s.putChan p c x).host = s.host := rfl

/-! ### putCell -/

@[simp] theorem State.putCell_pending (t c : Nat) (v : Word) : (s.putCell t c v).pending = s.pending := rfl
@[simp] theorem State.putCell_tick (t c : Nat) (v : Word) : (s.putCell t c v).tick = s.tick := rfl
@[simp] theorem State.putCell_regs (t c : Nat) (v : Word) : (s.putCell t c v).regs = s.regs := rfl
@[simp] theorem State.putCell_strobed (t c : Nat) (v : Word) : (s.putCell t c v).strobed = s.strobed := rfl
@[simp] theorem State.putCell_pairs (t c : Nat) (v : Word) : (s.putCell t c v).pairs = s.pairs := rfl
@[simp] theorem State.putCell_applying (t c : Nat) (v : Word) : (s.putCell t c v).applying = s.applying := rfl
@[simp] theorem State.putCell_mem (t c : Nat) (v : Word) : (s.putCell t c v).mem = s.mem := rfl
@[simp] theorem State.putCell_poison (t c : Nat) (v : Word) : (s.putCell t c v).poison = s.poison := rfl
@[simp] theorem State.putCell_imem (t c : Nat) (v : Word) : (s.putCell t c v).imem = s.imem := rfl
@[simp] theorem State.putCell_imemPoison (t c : Nat) (v : Word) : (s.putCell t c v).imemPoison = s.imemPoison := rfl
@[simp] theorem State.putCell_gpr (t c : Nat) (v : Word) : (s.putCell t c v).gpr = s.gpr := rfl
@[simp] theorem State.putCell_preds (t c : Nat) (v : Word) : (s.putCell t c v).preds = s.preds := rfl
@[simp] theorem State.putCell_rotors (t c : Nat) (v : Word) : (s.putCell t c v).rotors = s.rotors := rfl
@[simp] theorem State.putCell_groups (t c : Nat) (v : Word) : (s.putCell t c v).groups = s.groups := rfl
@[simp] theorem State.putCell_kernels (t c : Nat) (v : Word) : (s.putCell t c v).kernels = s.kernels := rfl
@[simp] theorem State.putCell_acc (t c : Nat) (v : Word) : (s.putCell t c v).acc = s.acc := rfl
@[simp] theorem State.putCell_mx (t c : Nat) (v : Word) : (s.putCell t c v).mx = s.mx := rfl
@[simp] theorem State.putCell_unused (t c : Nat) (v : Word) : (s.putCell t c v).unused = s.unused := rfl
@[simp] theorem State.putCell_slots (t c : Nat) (v : Word) : (s.putCell t c v).slots = s.slots := rfl
@[simp] theorem State.putCell_vaults (t c : Nat) (v : Word) : (s.putCell t c v).vaults = s.vaults := rfl
@[simp] theorem State.putCell_tsScrub (t c : Nat) (v : Word) : (s.putCell t c v).tsScrub = s.tsScrub := rfl
@[simp] theorem State.putCell_lines (t c : Nat) (v : Word) : (s.putCell t c v).lines = s.lines := rfl
@[simp] theorem State.putCell_replPtr (t c : Nat) (v : Word) : (s.putCell t c v).replPtr = s.replPtr := rfl
@[simp] theorem State.putCell_halves (t c : Nat) (v : Word) : (s.putCell t c v).halves = s.halves := rfl
@[simp] theorem State.putCell_cacheQ (t c : Nat) (v : Word) : (s.putCell t c v).cacheQ = s.cacheQ := rfl
@[simp] theorem State.putCell_routes (t c : Nat) (v : Word) : (s.putCell t c v).routes = s.routes := rfl
@[simp] theorem State.putCell_regions (t c : Nat) (v : Word) : (s.putCell t c v).regions = s.regions := rfl
@[simp] theorem State.putCell_kmaps (t c : Nat) (v : Word) : (s.putCell t c v).kmaps = s.kmaps := rfl
@[simp] theorem State.putCell_replicas (t c : Nat) (v : Word) : (s.putCell t c v).replicas = s.replicas := rfl
@[simp] theorem State.putCell_homeQ (t c : Nat) (v : Word) : (s.putCell t c v).homeQ = s.homeQ := rfl
@[simp] theorem State.putCell_ops (t c : Nat) (v : Word) : (s.putCell t c v).ops = s.ops := rfl
@[simp] theorem State.putCell_transit (t c : Nat) (v : Word) : (s.putCell t c v).transit = s.transit := rfl
@[simp] theorem State.putCell_discarded (t c : Nat) (v : Word) : (s.putCell t c v).discarded = s.discarded := rfl
@[simp] theorem State.putCell_rtMem (t c : Nat) (v : Word) : (s.putCell t c v).rtMem = s.rtMem := rfl
@[simp] theorem State.putCell_keeper (t c : Nat) (v : Word) : (s.putCell t c v).keeper = s.keeper := rfl
@[simp] theorem State.putCell_links (t c : Nat) (v : Word) : (s.putCell t c v).links = s.links := rfl
@[simp] theorem State.putCell_chans (t c : Nat) (v : Word) : (s.putCell t c v).chans = s.chans := rfl
@[simp] theorem State.putCell_dma (t c : Nat) (v : Word) : (s.putCell t c v).dma = s.dma := rfl
@[simp] theorem State.putCell_rings (t c : Nat) (v : Word) : (s.putCell t c v).rings = s.rings := rfl
@[simp] theorem State.putCell_parts (t c : Nat) (v : Word) : (s.putCell t c v).parts = s.parts := rfl
@[simp] theorem State.putCell_scrubs (t c : Nat) (v : Word) : (s.putCell t c v).scrubs = s.scrubs := rfl
@[simp] theorem State.putCell_lists (t c : Nat) (v : Word) : (s.putCell t c v).lists = s.lists := rfl
@[simp] theorem State.putCell_rotas (t c : Nat) (v : Word) : (s.putCell t c v).rotas = s.rotas := rfl
@[simp] theorem State.putCell_frame (t c : Nat) (v : Word) : (s.putCell t c v).frame = s.frame := rfl
@[simp] theorem State.putCell_checker (t c : Nat) (v : Word) : (s.putCell t c v).checker = s.checker := rfl
@[simp] theorem State.putCell_recorder (t c : Nat) (v : Word) : (s.putCell t c v).recorder = s.recorder := rfl
@[simp] theorem State.putCell_power (t c : Nat) (v : Word) : (s.putCell t c v).power = s.power := rfl
@[simp] theorem State.putCell_startup (t c : Nat) (v : Word) : (s.putCell t c v).startup = s.startup := rfl
@[simp] theorem State.putCell_flash (t c : Nat) (v : Word) : (s.putCell t c v).flash = s.flash := rfl
@[simp] theorem State.putCell_sec (t c : Nat) (v : Word) : (s.putCell t c v).sec = s.sec := rfl
@[simp] theorem State.putCell_tap (t c : Nat) (v : Word) : (s.putCell t c v).tap = s.tap := rfl
@[simp] theorem State.putCell_cores (t c : Nat) (v : Word) : (s.putCell t c v).cores = s.cores := rfl
@[simp] theorem State.putCell_steps (t c : Nat) (v : Word) : (s.putCell t c v).steps = s.steps := rfl
@[simp] theorem State.putCell_host (t c : Nat) (v : Word) : (s.putCell t c v).host = s.host := rfl

/-! ### putRota -/

@[simp] theorem State.putRota_pending (r : RotaRes) (x : Rota) : (s.putRota r x).pending = s.pending := rfl
@[simp] theorem State.putRota_tick (r : RotaRes) (x : Rota) : (s.putRota r x).tick = s.tick := rfl
@[simp] theorem State.putRota_regs (r : RotaRes) (x : Rota) : (s.putRota r x).regs = s.regs := rfl
@[simp] theorem State.putRota_strobed (r : RotaRes) (x : Rota) : (s.putRota r x).strobed = s.strobed := rfl
@[simp] theorem State.putRota_pairs (r : RotaRes) (x : Rota) : (s.putRota r x).pairs = s.pairs := rfl
@[simp] theorem State.putRota_applying (r : RotaRes) (x : Rota) : (s.putRota r x).applying = s.applying := rfl
@[simp] theorem State.putRota_mem (r : RotaRes) (x : Rota) : (s.putRota r x).mem = s.mem := rfl
@[simp] theorem State.putRota_poison (r : RotaRes) (x : Rota) : (s.putRota r x).poison = s.poison := rfl
@[simp] theorem State.putRota_imem (r : RotaRes) (x : Rota) : (s.putRota r x).imem = s.imem := rfl
@[simp] theorem State.putRota_imemPoison (r : RotaRes) (x : Rota) : (s.putRota r x).imemPoison = s.imemPoison := rfl
@[simp] theorem State.putRota_gpr (r : RotaRes) (x : Rota) : (s.putRota r x).gpr = s.gpr := rfl
@[simp] theorem State.putRota_preds (r : RotaRes) (x : Rota) : (s.putRota r x).preds = s.preds := rfl
@[simp] theorem State.putRota_rotors (r : RotaRes) (x : Rota) : (s.putRota r x).rotors = s.rotors := rfl
@[simp] theorem State.putRota_groups (r : RotaRes) (x : Rota) : (s.putRota r x).groups = s.groups := rfl
@[simp] theorem State.putRota_kernels (r : RotaRes) (x : Rota) : (s.putRota r x).kernels = s.kernels := rfl
@[simp] theorem State.putRota_cells (r : RotaRes) (x : Rota) : (s.putRota r x).cells = s.cells := rfl
@[simp] theorem State.putRota_acc (r : RotaRes) (x : Rota) : (s.putRota r x).acc = s.acc := rfl
@[simp] theorem State.putRota_mx (r : RotaRes) (x : Rota) : (s.putRota r x).mx = s.mx := rfl
@[simp] theorem State.putRota_unused (r : RotaRes) (x : Rota) : (s.putRota r x).unused = s.unused := rfl
@[simp] theorem State.putRota_slots (r : RotaRes) (x : Rota) : (s.putRota r x).slots = s.slots := rfl
@[simp] theorem State.putRota_vaults (r : RotaRes) (x : Rota) : (s.putRota r x).vaults = s.vaults := rfl
@[simp] theorem State.putRota_tsScrub (r : RotaRes) (x : Rota) : (s.putRota r x).tsScrub = s.tsScrub := rfl
@[simp] theorem State.putRota_lines (r : RotaRes) (x : Rota) : (s.putRota r x).lines = s.lines := rfl
@[simp] theorem State.putRota_replPtr (r : RotaRes) (x : Rota) : (s.putRota r x).replPtr = s.replPtr := rfl
@[simp] theorem State.putRota_halves (r : RotaRes) (x : Rota) : (s.putRota r x).halves = s.halves := rfl
@[simp] theorem State.putRota_cacheQ (r : RotaRes) (x : Rota) : (s.putRota r x).cacheQ = s.cacheQ := rfl
@[simp] theorem State.putRota_routes (r : RotaRes) (x : Rota) : (s.putRota r x).routes = s.routes := rfl
@[simp] theorem State.putRota_regions (r : RotaRes) (x : Rota) : (s.putRota r x).regions = s.regions := rfl
@[simp] theorem State.putRota_kmaps (r : RotaRes) (x : Rota) : (s.putRota r x).kmaps = s.kmaps := rfl
@[simp] theorem State.putRota_replicas (r : RotaRes) (x : Rota) : (s.putRota r x).replicas = s.replicas := rfl
@[simp] theorem State.putRota_homeQ (r : RotaRes) (x : Rota) : (s.putRota r x).homeQ = s.homeQ := rfl
@[simp] theorem State.putRota_ops (r : RotaRes) (x : Rota) : (s.putRota r x).ops = s.ops := rfl
@[simp] theorem State.putRota_transit (r : RotaRes) (x : Rota) : (s.putRota r x).transit = s.transit := rfl
@[simp] theorem State.putRota_discarded (r : RotaRes) (x : Rota) : (s.putRota r x).discarded = s.discarded := rfl
@[simp] theorem State.putRota_rtMem (r : RotaRes) (x : Rota) : (s.putRota r x).rtMem = s.rtMem := rfl
@[simp] theorem State.putRota_keeper (r : RotaRes) (x : Rota) : (s.putRota r x).keeper = s.keeper := rfl
@[simp] theorem State.putRota_links (r : RotaRes) (x : Rota) : (s.putRota r x).links = s.links := rfl
@[simp] theorem State.putRota_chans (r : RotaRes) (x : Rota) : (s.putRota r x).chans = s.chans := rfl
@[simp] theorem State.putRota_dma (r : RotaRes) (x : Rota) : (s.putRota r x).dma = s.dma := rfl
@[simp] theorem State.putRota_rings (r : RotaRes) (x : Rota) : (s.putRota r x).rings = s.rings := rfl
@[simp] theorem State.putRota_parts (r : RotaRes) (x : Rota) : (s.putRota r x).parts = s.parts := rfl
@[simp] theorem State.putRota_scrubs (r : RotaRes) (x : Rota) : (s.putRota r x).scrubs = s.scrubs := rfl
@[simp] theorem State.putRota_lists (r : RotaRes) (x : Rota) : (s.putRota r x).lists = s.lists := rfl
@[simp] theorem State.putRota_frame (r : RotaRes) (x : Rota) : (s.putRota r x).frame = s.frame := rfl
@[simp] theorem State.putRota_checker (r : RotaRes) (x : Rota) : (s.putRota r x).checker = s.checker := rfl
@[simp] theorem State.putRota_recorder (r : RotaRes) (x : Rota) : (s.putRota r x).recorder = s.recorder := rfl
@[simp] theorem State.putRota_power (r : RotaRes) (x : Rota) : (s.putRota r x).power = s.power := rfl
@[simp] theorem State.putRota_startup (r : RotaRes) (x : Rota) : (s.putRota r x).startup = s.startup := rfl
@[simp] theorem State.putRota_flash (r : RotaRes) (x : Rota) : (s.putRota r x).flash = s.flash := rfl
@[simp] theorem State.putRota_sec (r : RotaRes) (x : Rota) : (s.putRota r x).sec = s.sec := rfl
@[simp] theorem State.putRota_tap (r : RotaRes) (x : Rota) : (s.putRota r x).tap = s.tap := rfl
@[simp] theorem State.putRota_cores (r : RotaRes) (x : Rota) : (s.putRota r x).cores = s.cores := rfl
@[simp] theorem State.putRota_steps (r : RotaRes) (x : Rota) : (s.putRota r x).steps = s.steps := rfl
@[simp] theorem State.putRota_host (r : RotaRes) (x : Rota) : (s.putRota r x).host = s.host := rfl

/-! ### putAcc -/

@[simp] theorem State.putAcc_pending (t a r j : Nat) (x : Acc) : (s.putAcc t a r j x).pending = s.pending := rfl
@[simp] theorem State.putAcc_tick (t a r j : Nat) (x : Acc) : (s.putAcc t a r j x).tick = s.tick := rfl
@[simp] theorem State.putAcc_regs (t a r j : Nat) (x : Acc) : (s.putAcc t a r j x).regs = s.regs := rfl
@[simp] theorem State.putAcc_strobed (t a r j : Nat) (x : Acc) : (s.putAcc t a r j x).strobed = s.strobed := rfl
@[simp] theorem State.putAcc_pairs (t a r j : Nat) (x : Acc) : (s.putAcc t a r j x).pairs = s.pairs := rfl
@[simp] theorem State.putAcc_applying (t a r j : Nat) (x : Acc) : (s.putAcc t a r j x).applying = s.applying := rfl
@[simp] theorem State.putAcc_mem (t a r j : Nat) (x : Acc) : (s.putAcc t a r j x).mem = s.mem := rfl
@[simp] theorem State.putAcc_poison (t a r j : Nat) (x : Acc) : (s.putAcc t a r j x).poison = s.poison := rfl
@[simp] theorem State.putAcc_imem (t a r j : Nat) (x : Acc) : (s.putAcc t a r j x).imem = s.imem := rfl
@[simp] theorem State.putAcc_imemPoison (t a r j : Nat) (x : Acc) : (s.putAcc t a r j x).imemPoison = s.imemPoison := rfl
@[simp] theorem State.putAcc_gpr (t a r j : Nat) (x : Acc) : (s.putAcc t a r j x).gpr = s.gpr := rfl
@[simp] theorem State.putAcc_preds (t a r j : Nat) (x : Acc) : (s.putAcc t a r j x).preds = s.preds := rfl
@[simp] theorem State.putAcc_rotors (t a r j : Nat) (x : Acc) : (s.putAcc t a r j x).rotors = s.rotors := rfl
@[simp] theorem State.putAcc_groups (t a r j : Nat) (x : Acc) : (s.putAcc t a r j x).groups = s.groups := rfl
@[simp] theorem State.putAcc_kernels (t a r j : Nat) (x : Acc) : (s.putAcc t a r j x).kernels = s.kernels := rfl
@[simp] theorem State.putAcc_cells (t a r j : Nat) (x : Acc) : (s.putAcc t a r j x).cells = s.cells := rfl
@[simp] theorem State.putAcc_mx (t a r j : Nat) (x : Acc) : (s.putAcc t a r j x).mx = s.mx := rfl
@[simp] theorem State.putAcc_unused (t a r j : Nat) (x : Acc) : (s.putAcc t a r j x).unused = s.unused := rfl
@[simp] theorem State.putAcc_slots (t a r j : Nat) (x : Acc) : (s.putAcc t a r j x).slots = s.slots := rfl
@[simp] theorem State.putAcc_vaults (t a r j : Nat) (x : Acc) : (s.putAcc t a r j x).vaults = s.vaults := rfl
@[simp] theorem State.putAcc_tsScrub (t a r j : Nat) (x : Acc) : (s.putAcc t a r j x).tsScrub = s.tsScrub := rfl
@[simp] theorem State.putAcc_lines (t a r j : Nat) (x : Acc) : (s.putAcc t a r j x).lines = s.lines := rfl
@[simp] theorem State.putAcc_replPtr (t a r j : Nat) (x : Acc) : (s.putAcc t a r j x).replPtr = s.replPtr := rfl
@[simp] theorem State.putAcc_halves (t a r j : Nat) (x : Acc) : (s.putAcc t a r j x).halves = s.halves := rfl
@[simp] theorem State.putAcc_cacheQ (t a r j : Nat) (x : Acc) : (s.putAcc t a r j x).cacheQ = s.cacheQ := rfl
@[simp] theorem State.putAcc_routes (t a r j : Nat) (x : Acc) : (s.putAcc t a r j x).routes = s.routes := rfl
@[simp] theorem State.putAcc_regions (t a r j : Nat) (x : Acc) : (s.putAcc t a r j x).regions = s.regions := rfl
@[simp] theorem State.putAcc_kmaps (t a r j : Nat) (x : Acc) : (s.putAcc t a r j x).kmaps = s.kmaps := rfl
@[simp] theorem State.putAcc_replicas (t a r j : Nat) (x : Acc) : (s.putAcc t a r j x).replicas = s.replicas := rfl
@[simp] theorem State.putAcc_homeQ (t a r j : Nat) (x : Acc) : (s.putAcc t a r j x).homeQ = s.homeQ := rfl
@[simp] theorem State.putAcc_ops (t a r j : Nat) (x : Acc) : (s.putAcc t a r j x).ops = s.ops := rfl
@[simp] theorem State.putAcc_transit (t a r j : Nat) (x : Acc) : (s.putAcc t a r j x).transit = s.transit := rfl
@[simp] theorem State.putAcc_discarded (t a r j : Nat) (x : Acc) : (s.putAcc t a r j x).discarded = s.discarded := rfl
@[simp] theorem State.putAcc_rtMem (t a r j : Nat) (x : Acc) : (s.putAcc t a r j x).rtMem = s.rtMem := rfl
@[simp] theorem State.putAcc_keeper (t a r j : Nat) (x : Acc) : (s.putAcc t a r j x).keeper = s.keeper := rfl
@[simp] theorem State.putAcc_links (t a r j : Nat) (x : Acc) : (s.putAcc t a r j x).links = s.links := rfl
@[simp] theorem State.putAcc_chans (t a r j : Nat) (x : Acc) : (s.putAcc t a r j x).chans = s.chans := rfl
@[simp] theorem State.putAcc_dma (t a r j : Nat) (x : Acc) : (s.putAcc t a r j x).dma = s.dma := rfl
@[simp] theorem State.putAcc_rings (t a r j : Nat) (x : Acc) : (s.putAcc t a r j x).rings = s.rings := rfl
@[simp] theorem State.putAcc_parts (t a r j : Nat) (x : Acc) : (s.putAcc t a r j x).parts = s.parts := rfl
@[simp] theorem State.putAcc_scrubs (t a r j : Nat) (x : Acc) : (s.putAcc t a r j x).scrubs = s.scrubs := rfl
@[simp] theorem State.putAcc_lists (t a r j : Nat) (x : Acc) : (s.putAcc t a r j x).lists = s.lists := rfl
@[simp] theorem State.putAcc_rotas (t a r j : Nat) (x : Acc) : (s.putAcc t a r j x).rotas = s.rotas := rfl
@[simp] theorem State.putAcc_frame (t a r j : Nat) (x : Acc) : (s.putAcc t a r j x).frame = s.frame := rfl
@[simp] theorem State.putAcc_checker (t a r j : Nat) (x : Acc) : (s.putAcc t a r j x).checker = s.checker := rfl
@[simp] theorem State.putAcc_recorder (t a r j : Nat) (x : Acc) : (s.putAcc t a r j x).recorder = s.recorder := rfl
@[simp] theorem State.putAcc_power (t a r j : Nat) (x : Acc) : (s.putAcc t a r j x).power = s.power := rfl
@[simp] theorem State.putAcc_startup (t a r j : Nat) (x : Acc) : (s.putAcc t a r j x).startup = s.startup := rfl
@[simp] theorem State.putAcc_flash (t a r j : Nat) (x : Acc) : (s.putAcc t a r j x).flash = s.flash := rfl
@[simp] theorem State.putAcc_sec (t a r j : Nat) (x : Acc) : (s.putAcc t a r j x).sec = s.sec := rfl
@[simp] theorem State.putAcc_tap (t a r j : Nat) (x : Acc) : (s.putAcc t a r j x).tap = s.tap := rfl
@[simp] theorem State.putAcc_cores (t a r j : Nat) (x : Acc) : (s.putAcc t a r j x).cores = s.cores := rfl
@[simp] theorem State.putAcc_steps (t a r j : Nat) (x : Acc) : (s.putAcc t a r j x).steps = s.steps := rfl
@[simp] theorem State.putAcc_host (t a r j : Nat) (x : Acc) : (s.putAcc t a r j x).host = s.host := rfl

/-! ### putCore -/

@[simp] theorem State.putCore_pending (c : Nat) (x : Core) : (s.putCore c x).pending = s.pending := rfl
@[simp] theorem State.putCore_tick (c : Nat) (x : Core) : (s.putCore c x).tick = s.tick := rfl
@[simp] theorem State.putCore_regs (c : Nat) (x : Core) : (s.putCore c x).regs = s.regs := rfl
@[simp] theorem State.putCore_strobed (c : Nat) (x : Core) : (s.putCore c x).strobed = s.strobed := rfl
@[simp] theorem State.putCore_pairs (c : Nat) (x : Core) : (s.putCore c x).pairs = s.pairs := rfl
@[simp] theorem State.putCore_applying (c : Nat) (x : Core) : (s.putCore c x).applying = s.applying := rfl
@[simp] theorem State.putCore_mem (c : Nat) (x : Core) : (s.putCore c x).mem = s.mem := rfl
@[simp] theorem State.putCore_poison (c : Nat) (x : Core) : (s.putCore c x).poison = s.poison := rfl
@[simp] theorem State.putCore_imem (c : Nat) (x : Core) : (s.putCore c x).imem = s.imem := rfl
@[simp] theorem State.putCore_imemPoison (c : Nat) (x : Core) : (s.putCore c x).imemPoison = s.imemPoison := rfl
@[simp] theorem State.putCore_gpr (c : Nat) (x : Core) : (s.putCore c x).gpr = s.gpr := rfl
@[simp] theorem State.putCore_preds (c : Nat) (x : Core) : (s.putCore c x).preds = s.preds := rfl
@[simp] theorem State.putCore_rotors (c : Nat) (x : Core) : (s.putCore c x).rotors = s.rotors := rfl
@[simp] theorem State.putCore_groups (c : Nat) (x : Core) : (s.putCore c x).groups = s.groups := rfl
@[simp] theorem State.putCore_kernels (c : Nat) (x : Core) : (s.putCore c x).kernels = s.kernels := rfl
@[simp] theorem State.putCore_cells (c : Nat) (x : Core) : (s.putCore c x).cells = s.cells := rfl
@[simp] theorem State.putCore_acc (c : Nat) (x : Core) : (s.putCore c x).acc = s.acc := rfl
@[simp] theorem State.putCore_mx (c : Nat) (x : Core) : (s.putCore c x).mx = s.mx := rfl
@[simp] theorem State.putCore_unused (c : Nat) (x : Core) : (s.putCore c x).unused = s.unused := rfl
@[simp] theorem State.putCore_slots (c : Nat) (x : Core) : (s.putCore c x).slots = s.slots := rfl
@[simp] theorem State.putCore_vaults (c : Nat) (x : Core) : (s.putCore c x).vaults = s.vaults := rfl
@[simp] theorem State.putCore_tsScrub (c : Nat) (x : Core) : (s.putCore c x).tsScrub = s.tsScrub := rfl
@[simp] theorem State.putCore_lines (c : Nat) (x : Core) : (s.putCore c x).lines = s.lines := rfl
@[simp] theorem State.putCore_replPtr (c : Nat) (x : Core) : (s.putCore c x).replPtr = s.replPtr := rfl
@[simp] theorem State.putCore_halves (c : Nat) (x : Core) : (s.putCore c x).halves = s.halves := rfl
@[simp] theorem State.putCore_cacheQ (c : Nat) (x : Core) : (s.putCore c x).cacheQ = s.cacheQ := rfl
@[simp] theorem State.putCore_routes (c : Nat) (x : Core) : (s.putCore c x).routes = s.routes := rfl
@[simp] theorem State.putCore_regions (c : Nat) (x : Core) : (s.putCore c x).regions = s.regions := rfl
@[simp] theorem State.putCore_kmaps (c : Nat) (x : Core) : (s.putCore c x).kmaps = s.kmaps := rfl
@[simp] theorem State.putCore_replicas (c : Nat) (x : Core) : (s.putCore c x).replicas = s.replicas := rfl
@[simp] theorem State.putCore_homeQ (c : Nat) (x : Core) : (s.putCore c x).homeQ = s.homeQ := rfl
@[simp] theorem State.putCore_ops (c : Nat) (x : Core) : (s.putCore c x).ops = s.ops := rfl
@[simp] theorem State.putCore_transit (c : Nat) (x : Core) : (s.putCore c x).transit = s.transit := rfl
@[simp] theorem State.putCore_discarded (c : Nat) (x : Core) : (s.putCore c x).discarded = s.discarded := rfl
@[simp] theorem State.putCore_rtMem (c : Nat) (x : Core) : (s.putCore c x).rtMem = s.rtMem := rfl
@[simp] theorem State.putCore_keeper (c : Nat) (x : Core) : (s.putCore c x).keeper = s.keeper := rfl
@[simp] theorem State.putCore_links (c : Nat) (x : Core) : (s.putCore c x).links = s.links := rfl
@[simp] theorem State.putCore_chans (c : Nat) (x : Core) : (s.putCore c x).chans = s.chans := rfl
@[simp] theorem State.putCore_dma (c : Nat) (x : Core) : (s.putCore c x).dma = s.dma := rfl
@[simp] theorem State.putCore_rings (c : Nat) (x : Core) : (s.putCore c x).rings = s.rings := rfl
@[simp] theorem State.putCore_parts (c : Nat) (x : Core) : (s.putCore c x).parts = s.parts := rfl
@[simp] theorem State.putCore_scrubs (c : Nat) (x : Core) : (s.putCore c x).scrubs = s.scrubs := rfl
@[simp] theorem State.putCore_lists (c : Nat) (x : Core) : (s.putCore c x).lists = s.lists := rfl
@[simp] theorem State.putCore_rotas (c : Nat) (x : Core) : (s.putCore c x).rotas = s.rotas := rfl
@[simp] theorem State.putCore_frame (c : Nat) (x : Core) : (s.putCore c x).frame = s.frame := rfl
@[simp] theorem State.putCore_checker (c : Nat) (x : Core) : (s.putCore c x).checker = s.checker := rfl
@[simp] theorem State.putCore_recorder (c : Nat) (x : Core) : (s.putCore c x).recorder = s.recorder := rfl
@[simp] theorem State.putCore_power (c : Nat) (x : Core) : (s.putCore c x).power = s.power := rfl
@[simp] theorem State.putCore_startup (c : Nat) (x : Core) : (s.putCore c x).startup = s.startup := rfl
@[simp] theorem State.putCore_flash (c : Nat) (x : Core) : (s.putCore c x).flash = s.flash := rfl
@[simp] theorem State.putCore_sec (c : Nat) (x : Core) : (s.putCore c x).sec = s.sec := rfl
@[simp] theorem State.putCore_tap (c : Nat) (x : Core) : (s.putCore c x).tap = s.tap := rfl
@[simp] theorem State.putCore_steps (c : Nat) (x : Core) : (s.putCore c x).steps = s.steps := rfl
@[simp] theorem State.putCore_host (c : Nat) (x : Core) : (s.putCore c x).host = s.host := rfl

/-! ### putPin -/

@[simp] theorem State.putPin_pending (h e : Nat) (x : PinEntry) : (s.putPin h e x).pending = s.pending := rfl
@[simp] theorem State.putPin_tick (h e : Nat) (x : PinEntry) : (s.putPin h e x).tick = s.tick := rfl
@[simp] theorem State.putPin_regs (h e : Nat) (x : PinEntry) : (s.putPin h e x).regs = s.regs := rfl
@[simp] theorem State.putPin_strobed (h e : Nat) (x : PinEntry) : (s.putPin h e x).strobed = s.strobed := rfl
@[simp] theorem State.putPin_pairs (h e : Nat) (x : PinEntry) : (s.putPin h e x).pairs = s.pairs := rfl
@[simp] theorem State.putPin_applying (h e : Nat) (x : PinEntry) : (s.putPin h e x).applying = s.applying := rfl
@[simp] theorem State.putPin_mem (h e : Nat) (x : PinEntry) : (s.putPin h e x).mem = s.mem := rfl
@[simp] theorem State.putPin_poison (h e : Nat) (x : PinEntry) : (s.putPin h e x).poison = s.poison := rfl
@[simp] theorem State.putPin_imem (h e : Nat) (x : PinEntry) : (s.putPin h e x).imem = s.imem := rfl
@[simp] theorem State.putPin_imemPoison (h e : Nat) (x : PinEntry) : (s.putPin h e x).imemPoison = s.imemPoison := rfl
@[simp] theorem State.putPin_gpr (h e : Nat) (x : PinEntry) : (s.putPin h e x).gpr = s.gpr := rfl
@[simp] theorem State.putPin_preds (h e : Nat) (x : PinEntry) : (s.putPin h e x).preds = s.preds := rfl
@[simp] theorem State.putPin_rotors (h e : Nat) (x : PinEntry) : (s.putPin h e x).rotors = s.rotors := rfl
@[simp] theorem State.putPin_groups (h e : Nat) (x : PinEntry) : (s.putPin h e x).groups = s.groups := rfl
@[simp] theorem State.putPin_kernels (h e : Nat) (x : PinEntry) : (s.putPin h e x).kernels = s.kernels := rfl
@[simp] theorem State.putPin_cells (h e : Nat) (x : PinEntry) : (s.putPin h e x).cells = s.cells := rfl
@[simp] theorem State.putPin_acc (h e : Nat) (x : PinEntry) : (s.putPin h e x).acc = s.acc := rfl
@[simp] theorem State.putPin_mx (h e : Nat) (x : PinEntry) : (s.putPin h e x).mx = s.mx := rfl
@[simp] theorem State.putPin_unused (h e : Nat) (x : PinEntry) : (s.putPin h e x).unused = s.unused := rfl
@[simp] theorem State.putPin_slots (h e : Nat) (x : PinEntry) : (s.putPin h e x).slots = s.slots := rfl
@[simp] theorem State.putPin_vaults (h e : Nat) (x : PinEntry) : (s.putPin h e x).vaults = s.vaults := rfl
@[simp] theorem State.putPin_tsScrub (h e : Nat) (x : PinEntry) : (s.putPin h e x).tsScrub = s.tsScrub := rfl
@[simp] theorem State.putPin_lines (h e : Nat) (x : PinEntry) : (s.putPin h e x).lines = s.lines := rfl
@[simp] theorem State.putPin_replPtr (h e : Nat) (x : PinEntry) : (s.putPin h e x).replPtr = s.replPtr := rfl
@[simp] theorem State.putPin_cacheQ (h e : Nat) (x : PinEntry) : (s.putPin h e x).cacheQ = s.cacheQ := rfl
@[simp] theorem State.putPin_routes (h e : Nat) (x : PinEntry) : (s.putPin h e x).routes = s.routes := rfl
@[simp] theorem State.putPin_regions (h e : Nat) (x : PinEntry) : (s.putPin h e x).regions = s.regions := rfl
@[simp] theorem State.putPin_kmaps (h e : Nat) (x : PinEntry) : (s.putPin h e x).kmaps = s.kmaps := rfl
@[simp] theorem State.putPin_replicas (h e : Nat) (x : PinEntry) : (s.putPin h e x).replicas = s.replicas := rfl
@[simp] theorem State.putPin_homeQ (h e : Nat) (x : PinEntry) : (s.putPin h e x).homeQ = s.homeQ := rfl
@[simp] theorem State.putPin_ops (h e : Nat) (x : PinEntry) : (s.putPin h e x).ops = s.ops := rfl
@[simp] theorem State.putPin_transit (h e : Nat) (x : PinEntry) : (s.putPin h e x).transit = s.transit := rfl
@[simp] theorem State.putPin_discarded (h e : Nat) (x : PinEntry) : (s.putPin h e x).discarded = s.discarded := rfl
@[simp] theorem State.putPin_rtMem (h e : Nat) (x : PinEntry) : (s.putPin h e x).rtMem = s.rtMem := rfl
@[simp] theorem State.putPin_keeper (h e : Nat) (x : PinEntry) : (s.putPin h e x).keeper = s.keeper := rfl
@[simp] theorem State.putPin_links (h e : Nat) (x : PinEntry) : (s.putPin h e x).links = s.links := rfl
@[simp] theorem State.putPin_chans (h e : Nat) (x : PinEntry) : (s.putPin h e x).chans = s.chans := rfl
@[simp] theorem State.putPin_dma (h e : Nat) (x : PinEntry) : (s.putPin h e x).dma = s.dma := rfl
@[simp] theorem State.putPin_rings (h e : Nat) (x : PinEntry) : (s.putPin h e x).rings = s.rings := rfl
@[simp] theorem State.putPin_parts (h e : Nat) (x : PinEntry) : (s.putPin h e x).parts = s.parts := rfl
@[simp] theorem State.putPin_scrubs (h e : Nat) (x : PinEntry) : (s.putPin h e x).scrubs = s.scrubs := rfl
@[simp] theorem State.putPin_lists (h e : Nat) (x : PinEntry) : (s.putPin h e x).lists = s.lists := rfl
@[simp] theorem State.putPin_rotas (h e : Nat) (x : PinEntry) : (s.putPin h e x).rotas = s.rotas := rfl
@[simp] theorem State.putPin_frame (h e : Nat) (x : PinEntry) : (s.putPin h e x).frame = s.frame := rfl
@[simp] theorem State.putPin_checker (h e : Nat) (x : PinEntry) : (s.putPin h e x).checker = s.checker := rfl
@[simp] theorem State.putPin_recorder (h e : Nat) (x : PinEntry) : (s.putPin h e x).recorder = s.recorder := rfl
@[simp] theorem State.putPin_power (h e : Nat) (x : PinEntry) : (s.putPin h e x).power = s.power := rfl
@[simp] theorem State.putPin_startup (h e : Nat) (x : PinEntry) : (s.putPin h e x).startup = s.startup := rfl
@[simp] theorem State.putPin_flash (h e : Nat) (x : PinEntry) : (s.putPin h e x).flash = s.flash := rfl
@[simp] theorem State.putPin_sec (h e : Nat) (x : PinEntry) : (s.putPin h e x).sec = s.sec := rfl
@[simp] theorem State.putPin_tap (h e : Nat) (x : PinEntry) : (s.putPin h e x).tap = s.tap := rfl
@[simp] theorem State.putPin_cores (h e : Nat) (x : PinEntry) : (s.putPin h e x).cores = s.cores := rfl
@[simp] theorem State.putPin_steps (h e : Nat) (x : PinEntry) : (s.putPin h e x).steps = s.steps := rfl
@[simp] theorem State.putPin_host (h e : Nat) (x : PinEntry) : (s.putPin h e x).host = s.host := rfl

/-! ### emit -/

@[simp] theorem State.emit_pending (x : Tlp) : (s.emit x).pending = s.pending := rfl
@[simp] theorem State.emit_tick (x : Tlp) : (s.emit x).tick = s.tick := rfl
@[simp] theorem State.emit_regs (x : Tlp) : (s.emit x).regs = s.regs := rfl
@[simp] theorem State.emit_strobed (x : Tlp) : (s.emit x).strobed = s.strobed := rfl
@[simp] theorem State.emit_pairs (x : Tlp) : (s.emit x).pairs = s.pairs := rfl
@[simp] theorem State.emit_applying (x : Tlp) : (s.emit x).applying = s.applying := rfl
@[simp] theorem State.emit_mem (x : Tlp) : (s.emit x).mem = s.mem := rfl
@[simp] theorem State.emit_poison (x : Tlp) : (s.emit x).poison = s.poison := rfl
@[simp] theorem State.emit_imem (x : Tlp) : (s.emit x).imem = s.imem := rfl
@[simp] theorem State.emit_imemPoison (x : Tlp) : (s.emit x).imemPoison = s.imemPoison := rfl
@[simp] theorem State.emit_gpr (x : Tlp) : (s.emit x).gpr = s.gpr := rfl
@[simp] theorem State.emit_preds (x : Tlp) : (s.emit x).preds = s.preds := rfl
@[simp] theorem State.emit_rotors (x : Tlp) : (s.emit x).rotors = s.rotors := rfl
@[simp] theorem State.emit_groups (x : Tlp) : (s.emit x).groups = s.groups := rfl
@[simp] theorem State.emit_kernels (x : Tlp) : (s.emit x).kernels = s.kernels := rfl
@[simp] theorem State.emit_cells (x : Tlp) : (s.emit x).cells = s.cells := rfl
@[simp] theorem State.emit_acc (x : Tlp) : (s.emit x).acc = s.acc := rfl
@[simp] theorem State.emit_mx (x : Tlp) : (s.emit x).mx = s.mx := rfl
@[simp] theorem State.emit_unused (x : Tlp) : (s.emit x).unused = s.unused := rfl
@[simp] theorem State.emit_slots (x : Tlp) : (s.emit x).slots = s.slots := rfl
@[simp] theorem State.emit_vaults (x : Tlp) : (s.emit x).vaults = s.vaults := rfl
@[simp] theorem State.emit_tsScrub (x : Tlp) : (s.emit x).tsScrub = s.tsScrub := rfl
@[simp] theorem State.emit_lines (x : Tlp) : (s.emit x).lines = s.lines := rfl
@[simp] theorem State.emit_replPtr (x : Tlp) : (s.emit x).replPtr = s.replPtr := rfl
@[simp] theorem State.emit_halves (x : Tlp) : (s.emit x).halves = s.halves := rfl
@[simp] theorem State.emit_cacheQ (x : Tlp) : (s.emit x).cacheQ = s.cacheQ := rfl
@[simp] theorem State.emit_routes (x : Tlp) : (s.emit x).routes = s.routes := rfl
@[simp] theorem State.emit_regions (x : Tlp) : (s.emit x).regions = s.regions := rfl
@[simp] theorem State.emit_kmaps (x : Tlp) : (s.emit x).kmaps = s.kmaps := rfl
@[simp] theorem State.emit_replicas (x : Tlp) : (s.emit x).replicas = s.replicas := rfl
@[simp] theorem State.emit_homeQ (x : Tlp) : (s.emit x).homeQ = s.homeQ := rfl
@[simp] theorem State.emit_ops (x : Tlp) : (s.emit x).ops = s.ops := rfl
@[simp] theorem State.emit_transit (x : Tlp) : (s.emit x).transit = s.transit := rfl
@[simp] theorem State.emit_discarded (x : Tlp) : (s.emit x).discarded = s.discarded := rfl
@[simp] theorem State.emit_rtMem (x : Tlp) : (s.emit x).rtMem = s.rtMem := rfl
@[simp] theorem State.emit_keeper (x : Tlp) : (s.emit x).keeper = s.keeper := rfl
@[simp] theorem State.emit_links (x : Tlp) : (s.emit x).links = s.links := rfl
@[simp] theorem State.emit_chans (x : Tlp) : (s.emit x).chans = s.chans := rfl
@[simp] theorem State.emit_dma (x : Tlp) : (s.emit x).dma = s.dma := rfl
@[simp] theorem State.emit_rings (x : Tlp) : (s.emit x).rings = s.rings := rfl
@[simp] theorem State.emit_parts (x : Tlp) : (s.emit x).parts = s.parts := rfl
@[simp] theorem State.emit_scrubs (x : Tlp) : (s.emit x).scrubs = s.scrubs := rfl
@[simp] theorem State.emit_lists (x : Tlp) : (s.emit x).lists = s.lists := rfl
@[simp] theorem State.emit_rotas (x : Tlp) : (s.emit x).rotas = s.rotas := rfl
@[simp] theorem State.emit_frame (x : Tlp) : (s.emit x).frame = s.frame := rfl
@[simp] theorem State.emit_checker (x : Tlp) : (s.emit x).checker = s.checker := rfl
@[simp] theorem State.emit_recorder (x : Tlp) : (s.emit x).recorder = s.recorder := rfl
@[simp] theorem State.emit_power (x : Tlp) : (s.emit x).power = s.power := rfl
@[simp] theorem State.emit_startup (x : Tlp) : (s.emit x).startup = s.startup := rfl
@[simp] theorem State.emit_flash (x : Tlp) : (s.emit x).flash = s.flash := rfl
@[simp] theorem State.emit_sec (x : Tlp) : (s.emit x).sec = s.sec := rfl
@[simp] theorem State.emit_tap (x : Tlp) : (s.emit x).tap = s.tap := rfl
@[simp] theorem State.emit_cores (x : Tlp) : (s.emit x).cores = s.cores := rfl
@[simp] theorem State.emit_steps (x : Tlp) : (s.emit x).steps = s.steps := rfl

/-! ### Entries read back -/

@[simp] theorem State.rd_wr (o q : Nat) (v : Word) : (s.wr o v).rd q = if q = o then v else s.rd q := by
  simp only [State.rd, State.wr, putReg]
  split
  · rw [tfind_tdel]
    split <;> simp_all
  · rw [tfind_tput]
    split <;> simp

@[simp] theorem State.rd_wrF (o lo w x q : Nat) : (s.wrF o lo w x).rd q = if q = o then setFld (s.rd o) lo w x else s.rd q := by
  simp [State.wrF]

@[simp] theorem State.part_putPart (p q : Nat) (x : Part) : (s.putPart p x).part q = if q = p then x else s.part q := by
  simp [State.part, State.putPart]

@[simp] theorem State.mxu_putMx (t u : Nat) (x : Mx) : (s.putMx t x).mxu u = if u = t then x else s.mxu u := by
  simp [State.mxu, State.putMx]

@[simp] theorem State.half_putHalf (h j : Nat) (x : Half) : (s.putHalf h x).half j = if j = h then x else s.half j := by
  simp [State.half, State.putHalf]

@[simp] theorem State.region_putRegion (e f : Nat) (x : Region) : (s.putRegion e x).region f = if f = e then x else s.region f := by
  simp [State.region, State.putRegion]

@[simp] theorem State.link_putLink (k j : Nat) (x : Link) : (s.putLink k x).link j = if j = k then x else s.link j := by
  simp [State.link, State.putLink]

@[simp] theorem State.ring_putRing (r j : Nat) (x : Ring) : (s.putRing r x).ring j = if j = r then x else s.ring j := by
  simp [State.ring, State.putRing]

@[simp] theorem State.rotor_putRotor (t u : Nat) (x : Rotor) : (s.putRotor t x).rotor u = if u = t then x else s.rotor u := by
  simp [State.rotor, State.putRotor]

/-- Group slots are kept apart below 16 slots a tile (R92). -/
theorem State.group_putGroup (t n u m : Nat) (x : Group) (hn : n < 16) (hm : m < 16) :
    (s.putGroup t n x).group u m = if u = t ∧ m = n then x else s.group u m := by
  simp only [State.group, State.putGroup, tget_tset]
  have e : u * 16 + m = t * 16 + n ↔ u = t ∧ m = n := by omega
  simp [e]

/-- Vault sites are kept apart below 196 sites a field (R12). -/
theorem State.vault_putVault (f site g j : Nat) (x : Vault) (hs : site < 196) (hj : j < 196) :
    (s.putVault f site x).vault g j = if g = f ∧ j = site then x else s.vault g j := by
  simp only [State.vault, State.putVault, tget_tset, sites]
  have e : g * 196 + j = f * 196 + site ↔ g = f ∧ j = site := by omega
  simp [e]

/-- A general register written: the 64 registers of a lane and the lanes and tiles are kept apart (R92). -/
theorem State.g_setG (t L r u K q : Nat) (v : Word) (ht : t < 16384) (hu : u < 16384) (hr : r < 64) (hq : q < 64) :
    (s.setG t L r v).g u K q = if u = t ∧ K = L ∧ q = r then v else s.g u K q := by
  simp only [State.g, State.setG, tget_tset, gprKey]
  have e : (K * 16384 + u) * 64 + q = (L * 16384 + t) * 64 + r ↔ u = t ∧ K = L ∧ q = r := by omega
  simp [e]

/-- A predicate written: p7 stays 1, and a write of it changes nothing (R92). -/
theorem State.p_setP (t L r u K q : Nat) (b : Bool) (ht : t < 16384) (hu : u < 16384) (hr : r < 8) (hq : q < 8) :
    (s.setP t L r b).p u K q = if r ≠ 7 ∧ u = t ∧ K = L ∧ q = r then b else s.p u K q := by
  by_cases h7 : r = 7
  · simp [State.setP, h7]
  · have e : (K * 16384 + u) * 8 + q = (L * 16384 + t) * 8 + r ↔ u = t ∧ K = L ∧ q = r := by omega
    simp only [State.p, State.setP, h7, if_false, tget_tset, predKey, e, ne_eq, not_false_eq_true, true_and]
    by_cases hq7 : q = 7
    · simp only [hq7, if_true]
      split
      · omega
      · rfl
    · simp only [hq7, if_false]

end Sys2Proof.Machine
end

