-- ==== Sys2Proof/Laws/Memory.lean ====
section
/-! SUPPORT. Module memory: reads after writes, nibble by nibble, and the canonical form, which every operation on memory keeps. -/

namespace Sys2Proof.Machine

/-! ### One nibble -/

theorem nib_ext (x y : Nib) (h : ∀ i, i = 0 ∨ i = 1 ∨ i = 2 ∨ i = 3 → x.getLsbD i = y.getLsbD i) : x = y :=
  BitVec.eq_of_getLsbD_eq fun i hi => h i (by omega)

theorem byte_low (b : Byte) (v : Nib) : (((b &&& 0xF0#8) ||| v.zeroExtend 8).truncate 4 : Nib) = v := by
  apply nib_ext
  rintro i (rfl | rfl | rfl | rfl) <;> simp

theorem byte_low_high (b : Byte) (v : Nib) : ((((b &&& 0xF0#8) ||| v.zeroExtend 8) >>> 4).truncate 4 : Nib) = (b >>> 4).truncate 4 := by
  apply nib_ext
  rintro i (rfl | rfl | rfl | rfl) <;> simp

theorem byte_high (b : Byte) (v : Nib) : ((((b &&& 0x0F#8) ||| (v.zeroExtend 8 <<< 4)) >>> 4).truncate 4 : Nib) = v := by
  apply nib_ext
  rintro i (rfl | rfl | rfl | rfl) <;> simp

theorem byte_high_low (b : Byte) (v : Nib) : (((b &&& 0x0F#8) ||| (v.zeroExtend 8 <<< 4)).truncate 4 : Nib) = b.truncate 4 := by
  apply nib_ext
  rintro i (rfl | rfl | rfl | rfl) <;> simp

/-- Reading a nibble after writing one. -/
@[simp] theorem getNib_setNib (m : List Host.Cell) (a o : Nat) (v : Nib) :
    getNib (setNib m a v) o = if o = a then v else getNib m o := by
  simp only [getNib, setNib, tget_tset]
  by_cases hb : o / 2 = a / 2
  · simp only [hb, if_true]
    by_cases h0 : a % 2 = 0 <;> by_cases h1 : o % 2 = 0
    · simp only [h0, if_true, byte_low, show o = a by omega]
    · simp only [h0, h1, if_true, if_false, byte_low_high, show o ≠ a by omega]
    · simp only [h0, h1, if_true, if_false, byte_high_low, show o ≠ a by omega]
    · simp only [h0, if_false, byte_high, show o = a by omega, if_true]
  · have : o ≠ a := fun h => hb (by rw [h])
    simp only [hb, this, if_false]

/-! ### Runs of nibbles -/

/-- Reading a nibble after writing a list of them: inside the run the list's, outside as before. -/
theorem getNib_setNibs (m : List Host.Cell) (a o : Nat) (l : List Nib) :
    getNib (setNibs m a l) o = if a ≤ o ∧ o < a + l.length then l.getD (o - a) 0#4 else getNib m o := by
  induction l generalizing m a with
  | nil => simp [setNibs, show ¬ (a ≤ o ∧ o < a) by omega]
  | cons x r ih =>
    rw [setNibs, ih, getNib_setNib, List.length_cons]
    by_cases h : o = a
    · subst h
      simp [show ¬ (o + 1 ≤ o ∧ o < o + 1 + r.length) by omega]
    · by_cases g : a + 1 ≤ o ∧ o < a + 1 + r.length
      · obtain ⟨n, rfl⟩ : ∃ n, o = a + 1 + n := ⟨o - (a + 1), by omega⟩
        simp only [g, show a ≤ a + 1 + n ∧ a + 1 + n < a + (r.length + 1) by omega, and_self, if_true,
          show a + 1 + n - a = n + 1 by omega, show a + 1 + n - (a + 1) = n by omega, List.getD_cons_succ]
      · simp only [g, if_false, h, show ¬ (a ≤ o ∧ o < a + (r.length + 1)) by omega]

/-- The nibbles read back from where a list was written are the list. -/
theorem getNibs_setNibs (m : List Host.Cell) (a : Nat) (l : List Nib) : getNibs (setNibs m a l) a l.length = l := by
  have key : ∀ (n k : Nat) (m' : List Host.Cell), (∀ i, i < n → getNib m' (k + i) = l.getD (k - a + i) 0#4) → a ≤ k →
      getNibs m' k n = (List.range n).map (fun i => l.getD (k - a + i) 0#4) := by
    intro n
    induction n with
    | zero => intros; rfl
    | succ n ih =>
      intro k m' h ha
      rw [getNibs, ih (k + 1) m' (fun i hi => by
        have := h (i + 1) (by omega)
        rw [show k + 1 + i = k + (i + 1) by omega, show k + 1 - a + i = k - a + (i + 1) by omega, this]) (by omega)]
      rw [List.range_succ_eq_map, List.map_cons, List.map_map]
      congr 1
      · simpa using h 0 (by omega)
      · apply List.map_congr_left
        intro i _
        simp only [Function.comp, show k + 1 - a + i = k - a + (i + 1) by omega]
  rw [key l.length a _ (fun i hi => by
    rw [getNib_setNibs, if_pos (by omega)]
    simp) (Nat.le_refl a)]
  apply List.ext_getElem
  · simp
  · intro i h1 h2
    simp at h1
    simp [h1]

/-- The value of a nibble list is below 16 to its length. -/
theorem ofNibs_lt (l : List Nib) : ofNibs l < 16 ^ l.length := by
  induction l with
  | nil => simp [ofNibs]
  | cons x r ih =>
    have := x.isLt
    simp only [ofNibs, List.length_cons, Nat.pow_succ]
    omega

/-- A value of n nibbles, taken apart and put together. -/
theorem ofNibs_nibsOf (v n : Nat) : ofNibs (nibsOf v n) = v % 16 ^ n := by
  induction n generalizing v with
  | zero => simp [nibsOf, ofNibs, Nat.mod_one]
  | succ n ih =>
    have e : (BitVec.ofNat 4 v).toNat = v % 16 := BitVec.toNat_ofNat v 4
    rw [nibsOf, ofNibs, ih, e, Nat.pow_succ, Nat.mul_comm (16 ^ n) 16, Nat.mod_mul]

@[simp] theorem nibsOf_length (v n : Nat) : (nibsOf v n).length = n := by
  induction n generalizing v with
  | zero => rfl
  | succ n ih => simp [nibsOf, ih]

/-- A value stored reads back. -/
theorem State.load_store (s : State) (a v n : Nat) : (s.store a (nibsOf v n)).load a n = v % 16 ^ n := by
  have h := getNibs_setNibs s.mem a (nibsOf v n)
  rw [nibsOf_length] at h
  simp only [State.load, State.store, h, ofNibs_nibsOf]

/-! ### The canonical form -/

theorem Memory.wf_setNib (m : List Host.Cell) (a : Nat) (v : Nib) (h : Memory.wf m = true) : Memory.wf (setNib m a v) = true :=
  twf_tset _ _ _ _ h

theorem Memory.wf_setNibs (m : List Host.Cell) (a : Nat) (l : List Nib) (h : Memory.wf m = true) : Memory.wf (setNibs m a l) = true := by
  induction l generalizing m a with
  | nil => exact h
  | cons x r ih => exact ih _ _ (Memory.wf_setNib m a x h)

theorem Memory.wf_filter (m : List Host.Cell) (p : Host.Cell → Bool) (h : Memory.wf m = true) : Memory.wf (m.filter p) = true :=
  twf_filter _ p m h

theorem Memory.wf_nil : Memory.wf [] = true := rfl

/-- Reset leaves memory in its canonical form. -/
theorem Memory.wf_reset : Memory.wf State.reset.mem = true := rfl

end Sys2Proof.Machine
end

