-- ==== Sys2Proof/Laws/Frame.lean ====
section
/-! SUPPORT. What every shared operation leaves alone: one lemma <operation>_keeps each, to be cited in place of unfolding it. -/

namespace Sys2Proof.Machine

/-- From s to t the queue, the canonical form of memory and the signing state are kept. -/
structure State.Keeps (s t : State) : Prop where
  pending : t.pending = s.pending
  mem : Memory.wf s.mem = true → Memory.wf t.mem = true
  next : t.sec.signNext = s.sec.signNext
  last : t.sec.signEnd = s.sec.signEnd
  idOk : t.sec.idOk = s.sec.idOk
  res : t.flash.resEnd = s.flash.resEnd

theorem State.Keeps.rfl' {s : State} : s.Keeps s := ⟨rfl, id, rfl, rfl, rfl, rfl⟩

theorem State.Keeps.foldl {α : Type} {s : State} {f : State → α → State} (l : List α) {t : State}
    (h : s.Keeps t) (hf : ∀ v e, s.Keeps v → s.Keeps (f v e)) : s.Keeps (l.foldl f t) := by
  induction l generalizing t with
  | nil => exact h
  | cons x r ih => exact ih (hf t x h)

theorem State.Keeps.upd {s t : State} (h : s.Keeps t) {x_tick x_regs x_strobed x_pairs x_applying x_poison x_imem x_imemPoison x_gpr x_preds x_rotors x_groups x_kernels x_cells x_acc x_mx x_unused x_slots x_vaults x_tsScrub x_lines x_replPtr x_halves x_cacheQ x_routes x_regions x_kmaps x_replicas x_homeQ x_ops x_transit x_discarded x_rtMem x_keeper x_links x_chans x_dma x_rings x_parts x_scrubs x_lists x_rotas x_frame x_checker x_recorder x_power x_startup x_tap x_cores x_steps x_host} :
    s.Keeps (State.mk t.pending x_tick x_regs x_strobed x_pairs x_applying t.mem x_poison x_imem x_imemPoison x_gpr x_preds x_rotors x_groups x_kernels x_cells x_acc x_mx x_unused x_slots x_vaults x_tsScrub x_lines x_replPtr x_halves x_cacheQ x_routes x_regions x_kmaps x_replicas x_homeQ x_ops x_transit x_discarded x_rtMem x_keeper x_links x_chans x_dma x_rings x_parts x_scrubs x_lists x_rotas x_frame x_checker x_recorder x_power x_startup t.flash t.sec x_tap x_cores x_steps x_host) :=
  ⟨h.pending, h.mem, h.next, h.last, h.idOk, h.res⟩

theorem State.Keeps.updSec {s t : State} (h : s.Keeps t) {x_tick x_regs x_strobed x_pairs x_applying x_poison x_imem x_imemPoison x_gpr x_preds x_rotors x_groups x_kernels x_cells x_acc x_mx x_unused x_slots x_vaults x_tsScrub x_lines x_replPtr x_halves x_cacheQ x_routes x_regions x_kmaps x_replicas x_homeQ x_ops x_transit x_discarded x_rtMem x_keeper x_links x_chans x_dma x_rings x_parts x_scrubs x_lists x_rotas x_frame x_checker x_recorder x_power x_startup x_tap x_cores x_steps x_host} {x_sec : Security} {x_flash : Flash}
    (e : x_sec.signNext = t.sec.signNext) (e1 : x_sec.signEnd = t.sec.signEnd) (e2 : x_sec.idOk = t.sec.idOk)
    (e3 : x_flash.resEnd = t.flash.resEnd) :
    s.Keeps (State.mk t.pending x_tick x_regs x_strobed x_pairs x_applying t.mem x_poison x_imem x_imemPoison x_gpr x_preds x_rotors x_groups x_kernels x_cells x_acc x_mx x_unused x_slots x_vaults x_tsScrub x_lines x_replPtr x_halves x_cacheQ x_routes x_regions x_kmaps x_replicas x_homeQ x_ops x_transit x_discarded x_rtMem x_keeper x_links x_chans x_dma x_rings x_parts x_scrubs x_lists x_rotas x_frame x_checker x_recorder x_power x_startup x_flash x_sec x_tap x_cores x_steps x_host) :=
  ⟨h.pending, h.mem, e.trans h.next, e1.trans h.last, e2.trans h.idOk, e3.trans h.res⟩

theorem State.Keeps.foldl_fst {α β : Type} {s : State} {f : State × β → α → State × β} (l : List α) {t : State × β}
    (h : s.Keeps t.1) (hf : ∀ v e, s.Keeps v.1 → s.Keeps (f v e).1) : s.Keeps (l.foldl f t).1 := by
  induction l generalizing t with
  | nil => exact h
  | cons x r ih => exact ih (hf t x h)

theorem State.Keeps.ite {s t u : State} {c : Prop} [Decidable c] (h : s.Keeps t) (g : s.Keeps u) :
    s.Keeps (if c then t else u) := by
  split
  · exact h
  · exact g

theorem State.Keeps.ite_fst {β : Type} {s : State} {t u : State × β} {c : Prop} [Decidable c] (h : s.Keeps t.1) (g : s.Keeps u.1) :
    s.Keeps (if c then t else u).1 := by
  split
  · exact h
  · exact g

theorem State.Keeps.fst_of {β : Type} {s a : State} {b : β} {p : State × β} (h : s.Keeps p.1) (e : p = (a, b)) : s.Keeps a := by
  rw [e] at h
  exact h

theorem State.Keeps.mk_fst {β : Type} {s t : State} {b : β} (h : s.Keeps t) : s.Keeps (t, b).1 := h

theorem State.newTag_keeps {s t : State} (h : s.Keeps t) : s.Keeps t.newTag.2 := State.Keeps.upd h

theorem State.store_keeps {s : State} {t : State} {a0 a1} (h : s.Keeps t) : s.Keeps (State.store t a0 a1) :=
  ⟨h.pending, fun w => Memory.wf_setNibs _ _ _ (h.mem w), h.next, h.last, h.idOk, h.res⟩

theorem State.zeroOffsets_keeps {s t : State} {a0} (h : s.Keeps t) : s.Keeps (State.zeroOffsets t a0) :=
  ⟨h.pending, fun w => Memory.wf_filter _ _ (h.mem w), h.next, h.last, h.idOk, h.res⟩

theorem State.zeroSram_keeps {s t : State} (h : s.Keeps t) : s.Keeps (State.zeroSram t) :=
  ⟨h.pending, fun w => Memory.wf_filter _ _ (h.mem w), h.next, h.last, h.idOk, h.res⟩

theorem State.tock_keeps {s t0 : State} (h0 : s.Keeps t0) :
    s.Keeps (State.tock t0) := by
  unfold State.tock
  repeat' first | intro _ | (with_reducible first | assumption) | dsimp -zeta only | (with_reducible refine State.Keeps.upd ?_)

theorem State.putPoison_keeps {s t0 : State} {a1 a2} (h0 : s.Keeps t0) :
    s.Keeps (State.putPoison t0 a1 a2) := by
  unfold State.putPoison
  repeat' first | intro _ | (with_reducible first | assumption) | dsimp -zeta only | (with_reducible refine State.Keeps.upd ?_)

theorem State.storeClean_keeps {s t0 : State} {a1 a2} (h0 : s.Keeps t0) :
    s.Keeps (State.storeClean t0 a1 a2) := by
  unfold State.storeClean
  repeat' first | intro _ | (with_reducible first | assumption | apply State.store_keeps) | split | extract_lets | dsimp -zeta only | (with_reducible refine State.Keeps.upd ?_)

theorem State.storePoison_keeps {s t0 : State} {a1 a2} (h0 : s.Keeps t0) :
    s.Keeps (State.storePoison t0 a1 a2) := by
  unfold State.storePoison
  repeat' first | intro _ | (with_reducible first | assumption | apply State.store_keeps | apply State.putPoison_keeps | refine State.Keeps.foldl _ ?_ (fun _ _ hv => ?_)) | split | dsimp -zeta only

theorem State.putSlot_keeps {s t0 : State} {a1 a2 a3 a4} (h0 : s.Keeps t0) :
    s.Keeps (State.putSlot t0 a1 a2 a3 a4) := by
  unfold State.putSlot
  repeat' first | intro _ | (with_reducible first | assumption | refine State.Keeps.ite ?_ ?_) | split | extract_lets | dsimp -zeta only | (with_reducible refine State.Keeps.upd ?_)

theorem State.wr_keeps {s t0 : State} {a1 a2} (h0 : s.Keeps t0) :
    s.Keeps (State.wr t0 a1 a2) := by
  unfold State.wr
  repeat' first | intro _ | (with_reducible first | assumption) | dsimp -zeta only | (with_reducible refine State.Keeps.upd ?_)

theorem State.wrF_keeps {s t0 : State} {a1 a2 a3 a4} (h0 : s.Keeps t0) :
    s.Keeps (State.wrF t0 a1 a2 a3 a4) := by
  unfold State.wrF
  repeat' first | intro _ | (with_reducible first | assumption | apply State.wr_keeps) | dsimp -zeta only

theorem State.bump_keeps {s t0 : State} {a1 a2 a3 a4} (h0 : s.Keeps t0) :
    s.Keeps (State.bump t0 a1 a2 a3 a4) := by
  unfold State.bump
  repeat' first | intro _ | (with_reducible first | assumption | apply State.wrF_keeps) | dsimp -zeta only

theorem State.bumpWrap_keeps {s t0 : State} {a1 a2 a3 a4} (h0 : s.Keeps t0) :
    s.Keeps (State.bumpWrap t0 a1 a2 a3 a4) := by
  unfold State.bumpWrap
  repeat' first | intro _ | (with_reducible first | assumption | apply State.wrF_keeps) | dsimp -zeta only

theorem State.putPart_keeps {s t0 : State} {a1 a2} (h0 : s.Keeps t0) :
    s.Keeps (State.putPart t0 a1 a2) := by
  unfold State.putPart
  repeat' first | intro _ | (with_reducible first | assumption) | dsimp -zeta only | (with_reducible refine State.Keeps.upd ?_)

theorem State.setPhase_keeps {s t0 : State} {a1 a2} (h0 : s.Keeps t0) :
    s.Keeps (State.setPhase t0 a1 a2) := by
  unfold State.setPhase
  repeat' first | intro _ | (with_reducible first | assumption | apply State.wrF_keeps) | dsimp -zeta only

theorem State.setModState_keeps {s t0 : State} {a1} (h0 : s.Keeps t0) :
    s.Keeps (State.setModState t0 a1) := by
  unfold State.setModState
  repeat' first | intro _ | (with_reducible first | assumption | apply State.wrF_keeps) | dsimp -zeta only

theorem State.putGroup_keeps {s t0 : State} {a1 a2 a3} (h0 : s.Keeps t0) :
    s.Keeps (State.putGroup t0 a1 a2 a3) := by
  unfold State.putGroup
  repeat' first | intro _ | (with_reducible first | assumption) | dsimp -zeta only | (with_reducible refine State.Keeps.upd ?_)

theorem State.putMx_keeps {s t0 : State} {a1 a2} (h0 : s.Keeps t0) :
    s.Keeps (State.putMx t0 a1 a2) := by
  unfold State.putMx
  repeat' first | intro _ | (with_reducible first | assumption) | dsimp -zeta only | (with_reducible refine State.Keeps.upd ?_)

theorem State.putVault_keeps {s t0 : State} {a1 a2 a3} (h0 : s.Keeps t0) :
    s.Keeps (State.putVault t0 a1 a2 a3) := by
  unfold State.putVault
  repeat' first | intro _ | (with_reducible first | assumption) | dsimp -zeta only | (with_reducible refine State.Keeps.upd ?_)

theorem State.putHalf_keeps {s t0 : State} {a1 a2} (h0 : s.Keeps t0) :
    s.Keeps (State.putHalf t0 a1 a2) := by
  unfold State.putHalf
  repeat' first | intro _ | (with_reducible first | assumption) | dsimp -zeta only | (with_reducible refine State.Keeps.upd ?_)

theorem State.putRegion_keeps {s t0 : State} {a1 a2} (h0 : s.Keeps t0) :
    s.Keeps (State.putRegion t0 a1 a2) := by
  unfold State.putRegion
  repeat' first | intro _ | (with_reducible first | assumption) | dsimp -zeta only | (with_reducible refine State.Keeps.upd ?_)

theorem State.putKmap_keeps {s t0 : State} {a1 a2 a3} (h0 : s.Keeps t0) :
    s.Keeps (State.putKmap t0 a1 a2 a3) := by
  unfold State.putKmap
  repeat' first | intro _ | (with_reducible first | assumption) | dsimp -zeta only | (with_reducible refine State.Keeps.upd ?_)

theorem State.putLink_keeps {s t0 : State} {a1 a2} (h0 : s.Keeps t0) :
    s.Keeps (State.putLink t0 a1 a2) := by
  unfold State.putLink
  repeat' first | intro _ | (with_reducible first | assumption) | dsimp -zeta only | (with_reducible refine State.Keeps.upd ?_)

theorem State.putRing_keeps {s t0 : State} {a1 a2} (h0 : s.Keeps t0) :
    s.Keeps (State.putRing t0 a1 a2) := by
  unfold State.putRing
  repeat' first | intro _ | (with_reducible first | assumption) | dsimp -zeta only | (with_reducible refine State.Keeps.upd ?_)

theorem State.raise_keeps {s t0 : State} {a1 a2 a3 a4} (h0 : s.Keeps t0) :
    s.Keeps (State.raise t0 a1 a2 a3 a4) := by
  unfold State.raise
  repeat' first | intro _ | (with_reducible first | assumption | refine State.Keeps.ite ?_ ?_) | split | extract_lets | dsimp -zeta only | (with_reducible refine State.Keeps.upd ?_)

theorem State.raiseOwner_keeps {s t0 : State} {a1 a2 a3} (h0 : s.Keeps t0) :
    s.Keeps (State.raiseOwner t0 a1 a2 a3) := by
  unfold State.raiseOwner
  repeat' first | intro _ | (with_reducible first | assumption | apply State.raise_keeps) | dsimp -zeta only

theorem State.raisePart_keeps {s t0 : State} {a1 a2 a3 a4} (h0 : s.Keeps t0) :
    s.Keeps (State.raisePart t0 a1 a2 a3 a4) := by
  unfold State.raisePart
  repeat' first | intro _ | (with_reducible first | assumption | apply State.raise_keeps) | dsimp -zeta only

theorem State.countCorrected_keeps {s t0 : State} {a1 a2 a3 a4 a5} (h0 : s.Keeps t0) :
    s.Keeps (State.countCorrected t0 a1 a2 a3 a4 a5) := by
  unfold State.countCorrected
  repeat' first | intro _ | (with_reducible first | assumption | apply State.wrF_keeps | apply State.bump_keeps | apply State.raiseOwner_keeps | refine State.Keeps.ite ?_ ?_) | split | extract_lets | dsimp -zeta only

theorem State.enqueue_keeps {s t0 : State} {a1 a2} (h0 : s.Keeps t0) :
    s.Keeps (State.enqueue t0 a1 a2) := by
  unfold State.enqueue
  repeat' first | intro _ | (with_reducible first | assumption | apply State.putLink_keeps) | extract_lets | dsimp -zeta only | (with_reducible refine State.Keeps.upd ?_)

theorem State.sendFlit_keeps {s t0 : State} {a1 a2 a3 a4 a5 a6} (h0 : s.Keeps t0) :
    s.Keeps (State.sendFlit t0 a1 a2 a3 a4 a5 a6) := by
  unfold State.sendFlit
  repeat' first | intro _ | (with_reducible first | assumption | apply State.enqueue_keeps | refine State.Keeps.foldl _ ?_ (fun _ _ hv => ?_)) | split | dsimp -zeta only

theorem State.poisonRegion_keeps {s t0 : State} {a1} (h0 : s.Keeps t0) :
    s.Keeps (State.poisonRegion t0 a1) := by
  unfold State.poisonRegion
  repeat' first | intro _ | (with_reducible first | assumption | apply State.wr_keeps | refine State.Keeps.ite ?_ ?_ | refine State.Keeps.ite_fst ?_ ?_ | refine State.Keeps.fst_of ?_ (by assumption)) | split | dsimp -zeta only

theorem State.metCorrected_keeps {s t0 : State} {a1 a2} (h0 : s.Keeps t0) :
    s.Keeps (State.metCorrected t0 a1 a2) := by
  unfold State.metCorrected
  repeat' first | intro _ | (with_reducible first | assumption | apply State.putVault_keeps | apply State.countCorrected_keeps | refine State.Keeps.ite ?_ ?_) | split | extract_lets | dsimp -zeta only

theorem State.metUncorrectable_keeps {s t0 : State} {a1} (h0 : s.Keeps t0) :
    s.Keeps (State.metUncorrectable t0 a1) := by
  unfold State.metUncorrectable
  repeat' first | intro _ | (with_reducible first | assumption | apply State.putPoison_keeps | apply State.wr_keeps | apply State.wrF_keeps | apply State.bump_keeps | apply State.putVault_keeps | apply State.raise_keeps | apply State.poisonRegion_keeps | refine State.Keeps.ite ?_ ?_) | split | extract_lets | dsimp -zeta only

theorem State.maskCw_keeps {s t0 : State} {a1 a2} (h0 : s.Keeps t0) :
    s.Keeps (State.maskCw t0 a1 a2) := by
  unfold State.maskCw
  repeat' first | intro _ | (with_reducible first | assumption | apply State.store_keeps | refine State.Keeps.ite ?_ ?_) | split | dsimp -zeta only

theorem State.senseCw_keeps {s t0 : State} {a1 a2} (h0 : s.Keeps t0) :
    s.Keeps (State.senseCw t0 a1 a2) := by
  unfold State.senseCw
  repeat' first | intro _ | (with_reducible first | assumption | apply State.putPoison_keeps | apply State.metCorrected_keeps | apply State.metUncorrectable_keeps | apply State.maskCw_keeps | refine State.Keeps.fst_of ?_ (by assumption)) | split | extract_lets | dsimp -zeta only

theorem State.sense_keeps {s t0 : State} {a1 a2 a3} (h0 : s.Keeps t0) :
    s.Keeps (State.sense t0 a1 a2 a3) := by
  unfold State.sense
  repeat' first | intro _ | (with_reducible first | assumption | apply State.senseCw_keeps | refine State.Keeps.foldl _ ?_ (fun _ _ hv => ?_)) | split | dsimp -zeta only

theorem State.mendCw_keeps {s t0 : State} {a1 a2} (h0 : s.Keeps t0) :
    s.Keeps (State.mendCw t0 a1 a2) := by
  unfold State.mendCw
  extract_lets l_p l_a l_t
  try (have h_p : s.Keeps l_p := by (repeat' first | intro _ | (with_reducible first | assumption | apply State.putPoison_keeps | apply State.maskCw_keeps | apply State.senseCw_keeps | refine State.Keeps.ite ?_ ?_ | refine State.Keeps.ite_fst ?_ ?_ | refine State.Keeps.fst_of ?_ (by assumption)) | split | extract_lets | dsimp -zeta only))
  try clear_value l_p
  try (have h_a : s.Keeps l_a := by (repeat' first | intro _ | (with_reducible first | assumption | apply State.putPoison_keeps | apply State.maskCw_keeps | apply State.senseCw_keeps | refine State.Keeps.ite ?_ ?_ | refine State.Keeps.ite_fst ?_ ?_ | refine State.Keeps.fst_of ?_ (by assumption)) | split | extract_lets | dsimp -zeta only))
  try clear_value l_a
  try (have h_t : s.Keeps l_t := by (repeat' first | intro _ | (with_reducible first | assumption | apply State.putPoison_keeps | apply State.maskCw_keeps | apply State.senseCw_keeps | refine State.Keeps.ite ?_ ?_ | refine State.Keeps.ite_fst ?_ ?_ | refine State.Keeps.fst_of ?_ (by assumption)) | split | extract_lets | dsimp -zeta only))
  try clear_value l_t
  repeat' first | intro _ | (with_reducible first | assumption | apply State.putPoison_keeps | apply State.maskCw_keeps | apply State.senseCw_keeps | refine State.Keeps.ite ?_ ?_ | refine State.Keeps.ite_fst ?_ ?_ | refine State.Keeps.fst_of ?_ (by assumption)) | split | extract_lets | dsimp -zeta only

theorem State.merge_keeps {s t0 : State} {a1 a2 a3} (h0 : s.Keeps t0) :
    s.Keeps (State.merge t0 a1 a2 a3) := by
  unfold State.merge
  repeat' first | intro _ | (with_reducible first | assumption | apply State.storeClean_keeps | apply State.mendCw_keeps | refine State.Keeps.foldl _ ?_ (fun _ _ hv => ?_)) | split | extract_lets | dsimp -zeta only

theorem State.denied_keeps {s t0 : State} {a1 a2} (h0 : s.Keeps t0) :
    s.Keeps (State.denied t0 a1 a2) := by
  unfold State.denied
  repeat' first | intro _ | (with_reducible first | assumption | apply State.wrF_keeps | apply State.bump_keeps | apply State.raiseOwner_keeps | refine State.Keeps.ite ?_ ?_ | refine State.Keeps.ite_fst ?_ ?_ | refine State.Keeps.fst_of ?_ (by assumption)) | split | extract_lets | dsimp -zeta only

theorem State.fenceHit_keeps {s t0 : State} {a1 a2} (h0 : s.Keeps t0) :
    s.Keeps (State.fenceHit t0 a1 a2) := by
  unfold State.fenceHit
  repeat' first | intro _ | (with_reducible first | assumption | apply State.bump_keeps | apply State.raisePart_keeps) | dsimp -zeta only

theorem State.putCell_keeps {s t0 : State} {a1 a2 a3} (h0 : s.Keeps t0) :
    s.Keeps (State.putCell t0 a1 a2 a3) := by
  unfold State.putCell
  repeat' first | intro _ | (with_reducible first | assumption) | dsimp -zeta only | (with_reducible refine State.Keeps.upd ?_)

theorem State.addCell_keeps {s t0 : State} {a1 a2 a3} (h0 : s.Keeps t0) :
    s.Keeps (State.addCell t0 a1 a2 a3) := by
  unfold State.addCell
  repeat' first | intro _ | (with_reducible first | assumption | apply State.raise_keeps | apply State.putCell_keeps | refine State.Keeps.ite ?_ ?_ | refine State.Keeps.ite_fst ?_ ?_ | refine State.Keeps.fst_of ?_ (by assumption)) | split | extract_lets | dsimp -zeta only

theorem State.applyAt_keeps {s t0 : State} {a1 a2 a3 a4} (h0 : s.Keeps t0) :
    s.Keeps (State.applyAt t0 a1 a2 a3 a4).1 := by
  unfold State.applyAt
  repeat' first | intro _ | (with_reducible first | assumption | apply State.store_keeps | apply State.storePoison_keeps | apply State.sense_keeps | apply State.merge_keeps | apply State.addCell_keeps | refine State.Keeps.ite ?_ ?_ | refine State.Keeps.ite_fst ?_ ?_ | refine State.Keeps.fst_of ?_ (by assumption)) | split | extract_lets | dsimp -zeta only

theorem State.applyHome_keeps {s t0 : State} {a1 a2} (h0 : s.Keeps t0) :
    s.Keeps (State.applyHome t0 a1 a2).1 := by
  unfold State.applyHome
  repeat' first | intro _ | (with_reducible first | assumption | apply State.denied_keeps | apply State.fenceHit_keeps | apply State.addCell_keeps | apply State.applyAt_keeps | refine State.Keeps.ite ?_ ?_ | refine State.Keeps.ite_fst ?_ ?_ | refine State.Keeps.fst_of ?_ (by assumption)) | split | dsimp -zeta only

theorem State.putAol_keeps {s t0 : State} {a1 a2} (h0 : s.Keeps t0) :
    s.Keeps (State.putAol t0 a1 a2) := by
  unfold State.putAol
  repeat' first | intro _ | (with_reducible first | assumption | refine State.Keeps.fst_of ?_ (by assumption)) | split | extract_lets | dsimp -zeta only | (with_reducible refine State.Keeps.upd ?_)

theorem State.passUnits_keeps {s t0 : State} {a1 a2} (h0 : s.Keeps t0) :
    s.Keeps (State.passUnits t0 a1 a2) := by
  unfold State.passUnits
  repeat' first | intro _ | (with_reducible first | assumption | apply State.putVault_keeps | refine State.Keeps.fst_of ?_ (by assumption)) | split | extract_lets | dsimp -zeta only | (with_reducible refine State.Keeps.upd ?_)

theorem State.usePort_keeps {s t0 : State} {a1 a2} (h0 : s.Keeps t0) :
    s.Keeps (State.usePort t0 a1 a2) := by
  unfold State.usePort
  repeat' first | intro _ | (with_reducible first | assumption | apply State.putAol_keeps | apply State.passUnits_keeps | refine State.Keeps.fst_of ?_ (by assumption)) | split | extract_lets | dsimp -zeta only

theorem State.passEntry_keeps {s t0 : State} {a1} (h0 : s.Keeps t0) :
    s.Keeps (State.passEntry t0 a1) := by
  unfold State.passEntry
  repeat' first | intro _ | (with_reducible first | assumption | apply State.putAol_keeps | apply State.passUnits_keeps | refine State.Keeps.ite ?_ ?_ | refine State.Keeps.ite_fst ?_ ?_ | refine State.Keeps.fst_of ?_ (by assumption)) | split | extract_lets | dsimp -zeta only

theorem State.putLine_keeps {s t0 : State} {a1 a2} (h0 : s.Keeps t0) :
    s.Keeps (State.putLine t0 a1 a2) := by
  unfold State.putLine
  repeat' first | intro _ | (with_reducible first | assumption) | dsimp -zeta only | (with_reducible refine State.Keeps.upd ?_)

theorem State.dropLine_keeps {s t0 : State} {a1} (h0 : s.Keeps t0) :
    s.Keeps (State.dropLine t0 a1) := by
  unfold State.dropLine
  repeat' first | intro _ | (with_reducible first | assumption) | dsimp -zeta only | (with_reducible refine State.Keeps.upd ?_)

theorem State.fillSector_keeps {s t0 : State} {a1 a2 a3} (h0 : s.Keeps t0) :
    s.Keeps (State.fillSector t0 a1 a2 a3) := by
  unfold State.fillSector
  repeat' first | intro _ | (with_reducible first | assumption | apply State.sense_keeps | apply State.putLine_keeps | refine State.Keeps.ite ?_ ?_ | refine State.Keeps.ite_fst ?_ ?_ | refine State.Keeps.foldl _ ?_ (fun _ _ hv => ?_) | refine State.Keeps.foldl_fst _ ?_ (fun _ _ hv => ?_) | refine State.Keeps.fst_of ?_ (by assumption)) | split | extract_lets | dsimp -zeta only | (with_reducible refine State.Keeps.upd ?_)

theorem State.fillFor_keeps {s t0 : State} {a1 a2 a3 a4} (h0 : s.Keeps t0) :
    s.Keeps (State.fillFor t0 a1 a2 a3 a4) := by
  unfold State.fillFor
  repeat' first | intro _ | (with_reducible first | assumption | apply State.fillSector_keeps | refine State.Keeps.ite ?_ ?_ | refine State.Keeps.ite_fst ?_ ?_ | refine State.Keeps.foldl _ ?_ (fun _ _ hv => ?_) | refine State.Keeps.foldl_fst _ ?_ (fun _ _ hv => ?_) | refine State.Keeps.fst_of ?_ (by assumption)) | split | dsimp -zeta only

theorem State.senseLine_keeps {s t0 : State} {a1 a2 a3 a4} (h0 : s.Keeps t0) :
    s.Keeps (State.senseLine t0 a1 a2 a3 a4) := by
  unfold State.senseLine
  repeat' first | intro _ | (with_reducible first | assumption | apply State.wrF_keeps | apply State.bump_keeps | apply State.raise_keeps | apply State.raiseOwner_keeps | apply State.countCorrected_keeps | apply State.poisonRegion_keeps | apply State.putLine_keeps | refine State.Keeps.ite ?_ ?_ | refine State.Keeps.ite_fst ?_ ?_ | refine State.Keeps.fst_of ?_ (by assumption)) | split | extract_lets | dsimp -zeta only | (with_reducible refine State.Keeps.upd ?_)

theorem State.writeBackCw_keeps {s t0 : State} {a1 a2 a3} (h0 : s.Keeps t0) :
    s.Keeps (State.writeBackCw t0 a1 a2 a3) := by
  unfold State.writeBackCw
  repeat' first | intro _ | (with_reducible first | assumption | apply State.store_keeps | apply State.putPoison_keeps | apply State.storeClean_keeps | apply State.mendCw_keeps | refine State.Keeps.ite ?_ ?_ | refine State.Keeps.foldl _ ?_ (fun _ _ hv => ?_)) | split | extract_lets | dsimp -zeta only

theorem State.senseDirty_keeps {s t0 : State} {a1 a2 a3} (h0 : s.Keeps t0) :
    s.Keeps (State.senseDirty t0 a1 a2 a3) := by
  unfold State.senseDirty
  repeat' first | intro _ | (with_reducible first | assumption | apply State.senseLine_keeps | refine State.Keeps.ite ?_ ?_ | refine State.Keeps.ite_fst ?_ ?_ | refine State.Keeps.foldl _ ?_ (fun _ _ hv => ?_) | refine State.Keeps.foldl_fst _ ?_ (fun _ _ hv => ?_) | refine State.Keeps.fst_of ?_ (by assumption)) | split | dsimp -zeta only

theorem State.writeBack_keeps {s t0 : State} {a1 a2 a3} (h0 : s.Keeps t0) :
    s.Keeps (State.writeBack t0 a1 a2 a3) := by
  unfold State.writeBack
  repeat' first | intro _ | (with_reducible first | assumption | apply State.writeBackCw_keeps | apply State.senseDirty_keeps | refine State.Keeps.ite ?_ ?_ | refine State.Keeps.ite_fst ?_ ?_ | refine State.Keeps.foldl _ ?_ (fun _ _ hv => ?_) | refine State.Keeps.foldl_fst _ ?_ (fun _ _ hv => ?_) | refine State.Keeps.fst_of ?_ (by assumption)) | split | extract_lets | dsimp -zeta only | (with_reducible refine State.Keeps.upd ?_)

theorem State.evict_keeps {s t0 : State} {a1 a2 a3} (h0 : s.Keeps t0) :
    s.Keeps (State.evict t0 a1 a2 a3) := by
  unfold State.evict
  repeat' first | intro _ | (with_reducible first | assumption | apply State.dropLine_keeps | apply State.writeBack_keeps | refine State.Keeps.fst_of ?_ (by assumption)) | split | dsimp -zeta only

theorem State.allocate_keeps {s t0 : State} {a1 a2 a3} (h0 : s.Keeps t0) :
    s.Keeps (State.allocate t0 a1 a2 a3).1 := by
  unfold State.allocate
  repeat' first | intro _ | (with_reducible first | assumption | apply State.putLine_keeps | apply State.evict_keeps | refine State.Keeps.fst_of ?_ (by assumption)) | split | extract_lets | dsimp -zeta only | (with_reducible refine State.Keeps.upd ?_)

theorem State.endWindow_keeps {s t0 : State} {a1} (h0 : s.Keeps t0) :
    s.Keeps (State.endWindow t0 a1) := by
  unfold State.endWindow
  repeat' first | intro _ | (with_reducible first | assumption | apply State.wrF_keeps | apply State.putHalf_keeps | apply State.raiseOwner_keeps | refine State.Keeps.ite ?_ ?_) | split | extract_lets | dsimp -zeta only | (with_reducible refine State.Keeps.upd ?_)

theorem State.countAccess_keeps {s t0 : State} {a1 a2} (h0 : s.Keeps t0) :
    s.Keeps (State.countAccess t0 a1 a2) := by
  unfold State.countAccess
  repeat' first | intro _ | (with_reducible first | assumption | apply State.bump_keeps | apply State.putHalf_keeps | apply State.endWindow_keeps | refine State.Keeps.ite ?_ ?_) | split | extract_lets | dsimp -zeta only | (with_reducible refine State.Keeps.upd ?_)

theorem State.lineWrite_keeps {s t0 : State} {a1 a2 a3 a4} (h0 : s.Keeps t0) :
    s.Keeps (State.lineWrite t0 a1 a2 a3 a4) := by
  unfold State.lineWrite
  repeat' first | intro _ | (with_reducible first | assumption | apply State.putHalf_keeps | apply State.putLine_keeps | refine State.Keeps.ite ?_ ?_ | refine State.Keeps.ite_fst ?_ ?_ | refine State.Keeps.foldl _ ?_ (fun _ _ hv => ?_) | refine State.Keeps.foldl_fst _ ?_ (fun _ _ hv => ?_) | refine State.Keeps.fst_of ?_ (by assumption)) | split | extract_lets | dsimp -zeta only | (with_reducible refine State.Keeps.upd ?_)

theorem State.touchLine_keeps {s t0 : State} {a1 a2 a3} (h0 : s.Keeps t0) :
    s.Keeps (State.touchLine t0 a1 a2 a3).1 := by
  unfold State.touchLine
  repeat' first | intro _ | (with_reducible first | assumption | apply State.allocate_keeps | apply State.countAccess_keeps | refine State.Keeps.fst_of ?_ (by assumption)) | split | extract_lets | dsimp -zeta only

theorem State.retireLine_keeps {s t0 : State} {a1} (h0 : s.Keeps t0) :
    s.Keeps (State.retireLine t0 a1) := by
  unfold State.retireLine
  repeat' first | intro _ | (with_reducible first | assumption | apply State.bump_keeps | apply State.putLine_keeps | refine State.Keeps.ite ?_ ?_ | refine State.Keeps.ite_fst ?_ ?_ | refine State.Keeps.fst_of ?_ (by assumption)) | split | extract_lets | dsimp -zeta only | (with_reducible refine State.Keeps.upd ?_)

theorem State.lineApply_keeps {s t0 : State} {a1 a2 a3 a4 a5 a6} (h0 : s.Keeps t0) :
    s.Keeps (State.lineApply t0 a1 a2 a3 a4 a5 a6).1 := by
  unfold State.lineApply
  repeat' first | intro _ | (with_reducible first | assumption | apply State.store_keeps | apply State.bump_keeps | apply State.fillFor_keeps | apply State.senseLine_keeps | apply State.lineWrite_keeps | refine State.Keeps.ite ?_ ?_ | refine State.Keeps.ite_fst ?_ ?_ | refine State.Keeps.foldl _ ?_ (fun _ _ hv => ?_) | refine State.Keeps.foldl_fst _ ?_ (fun _ _ hv => ?_) | refine State.Keeps.fst_of ?_ (by assumption)) | split | extract_lets | dsimp -zeta only

theorem State.cacheNow_keeps {s t0 : State} {a1 a2 a3 a4} (h0 : s.Keeps t0) :
    s.Keeps (State.cacheNow t0 a1 a2 a3 a4).1 := by
  unfold State.cacheNow
  split
  rename_i v k he
  have hv : s.Keeps v := State.Keeps.fst_of (State.touchLine_keeps h0) he
  refine State.lineApply_keeps ?_
  split
  · exact State.Keeps.ite (State.fillFor_keeps hv) hv
  · exact hv

theorem State.atHome_keeps {s t0 : State} {a1} (h0 : s.Keeps t0) :
    s.Keeps (State.atHome t0 a1) := by
  unfold State.atHome
  repeat' first | intro _ | (with_reducible first | assumption) | dsimp -zeta only | (with_reducible refine State.Keeps.upd ?_)

theorem State.depart_keeps {s t0 : State} {a1 a2} (h0 : s.Keeps t0) :
    s.Keeps (State.depart t0 a1 a2) := by
  unfold State.depart
  repeat' first | intro _ | (with_reducible first | assumption) | dsimp -zeta only | (with_reducible refine State.Keeps.upd ?_)

theorem State.sendHome_keeps {s t0 : State} {a1 a2} (h0 : s.Keeps t0) :
    s.Keeps (State.sendHome t0 a1 a2) := by
  unfold State.sendHome
  repeat' first | intro _ | (with_reducible first | assumption | apply State.atHome_keeps | apply State.depart_keeps | refine State.Keeps.ite ?_ ?_) | split | dsimp -zeta only

theorem State.sendLink_keeps {s t0 : State} {a1 a2 a3} (h0 : s.Keeps t0) :
    s.Keeps (State.sendLink t0 a1 a2 a3) := by
  unfold State.sendLink
  repeat' first | intro _ | (with_reducible first | assumption | apply State.enqueue_keeps | apply State.depart_keeps | refine State.Keeps.ite ?_ ?_) | split | dsimp -zeta only

theorem State.emit_keeps {s t0 : State} {a1} (h0 : s.Keeps t0) :
    s.Keeps (State.emit t0 a1) := by
  unfold State.emit
  repeat' first | intro _ | (with_reducible first | assumption) | dsimp -zeta only | (with_reducible refine State.Keeps.upd ?_)

theorem State.consume_keeps {s t0 : State} {a1 a2} (h0 : s.Keeps t0) :
    s.Keeps (State.consume t0 a1 a2) := by
  unfold State.consume
  repeat' first | intro _ | (with_reducible first | assumption | apply State.wr_keeps | apply State.emit_keeps | refine State.Keeps.ite ?_ ?_) | split | extract_lets | dsimp -zeta only

theorem State.putCpl_keeps {s t0 : State} {a1 a2 a3 a4 a5 a6 a7} (h0 : s.Keeps t0) :
    s.Keeps (State.putCpl t0 a1 a2 a3 a4 a5 a6 a7) := by
  unfold State.putCpl
  repeat' first | intro _ | (with_reducible first | assumption | apply State.wr_keeps | apply State.emit_keeps | refine State.Keeps.ite ?_ ?_) | split | extract_lets | dsimp -zeta only

theorem State.writeCpl_keeps {s t0 : State} {a1 a2 a3 a4 a5 a6 a7} (h0 : s.Keeps t0) :
    s.Keeps (State.writeCpl t0 a1 a2 a3 a4 a5 a6 a7) := by
  unfold State.writeCpl
  repeat' first | intro _ | (with_reducible first | assumption | apply State.putCpl_keeps | refine State.Keeps.ite ?_ ?_) | split | dsimp -zeta only

theorem State.fences_keeps {s t0 : State} {a1 a2} (h0 : s.Keeps t0) : s.Keeps (State.fences t0 a1 a2) := by
  induction a2 generalizing t0 with
  | zero => exact h0
  | succ n ih =>
    rw [State.fences]
    split
    · exact ih (State.putRing_keeps (State.writeCpl_keeps h0))
    · exact h0

theorem State.ringDone_keeps {s t0 : State} {a1 a2 a3 a4 a5} (h0 : s.Keeps t0) :
    s.Keeps (State.ringDone t0 a1 a2 a3 a4 a5) := by
  unfold State.ringDone
  repeat' first | intro _ | (with_reducible first | assumption | apply State.putRing_keeps | apply State.writeCpl_keeps | apply State.fences_keeps | refine State.Keeps.fst_of ?_ (by assumption)) | split | extract_lets | dsimp -zeta only | (with_reducible refine State.Keeps.upd ?_)

theorem State.ringDoneOp_keeps {s t0 : State} {a1 a2 a3 a4 a5} (h0 : s.Keeps t0) :
    s.Keeps (State.ringDoneOp t0 a1 a2 a3 a4 a5) := by
  unfold State.ringDoneOp
  repeat' first | intro _ | (with_reducible first | assumption | apply State.ringDone_keeps | refine State.Keeps.foldl _ ?_ (fun _ _ hv => ?_)) | split | dsimp -zeta only

theorem State.allDoneOp_keeps {s t0 : State} {a1 a2 a3 a4} (h0 : s.Keeps t0) :
    s.Keeps (State.allDoneOp t0 a1 a2 a3 a4) := by
  unfold State.allDoneOp
  repeat' first | intro _ | (with_reducible first | assumption | apply State.ringDoneOp_keeps | refine State.Keeps.foldl _ ?_ (fun _ _ hv => ?_)) | split | dsimp -zeta only

theorem State.sendEvent_keeps {s t0 : State} {a1 a2 a3 a4} (h0 : s.Keeps t0) :
    s.Keeps (State.sendEvent t0 a1 a2 a3 a4) := by
  unfold State.sendEvent
  repeat' first | intro _ | (with_reducible first | assumption | apply State.bump_keeps | apply State.writeCpl_keeps | refine State.Keeps.ite ?_ ?_) | split | dsimp -zeta only

theorem State.dmaFinish_keeps {s t0 : State} {a1 a2} (h0 : s.Keeps t0) :
    s.Keeps (State.dmaFinish t0 a1 a2) := by
  unfold State.dmaFinish
  extract_lets l_cmd l_s1 l_s2
  try (have h_cmd : s.Keeps l_cmd := by (repeat' first | intro _ | (with_reducible first | assumption | apply State.wrF_keeps | apply State.ringDone_keeps | refine State.Keeps.fst_of ?_ (by assumption)) | split | extract_lets | dsimp -zeta only | (with_reducible refine State.Keeps.upd ?_)))
  try clear_value l_cmd
  try (have h_s1 : s.Keeps l_s1 := by (repeat' first | intro _ | (with_reducible first | assumption | apply State.wrF_keeps | apply State.ringDone_keeps | refine State.Keeps.fst_of ?_ (by assumption)) | split | extract_lets | dsimp -zeta only | (with_reducible refine State.Keeps.upd ?_)))
  try clear_value l_s1
  try (have h_s2 : s.Keeps l_s2 := by (repeat' first | intro _ | (with_reducible first | assumption | apply State.wrF_keeps | apply State.ringDone_keeps | refine State.Keeps.fst_of ?_ (by assumption)) | split | extract_lets | dsimp -zeta only | (with_reducible refine State.Keeps.upd ?_)))
  try clear_value l_s2
  repeat' first | intro _ | (with_reducible first | assumption | apply State.wrF_keeps | apply State.ringDone_keeps | refine State.Keeps.fst_of ?_ (by assumption)) | split | extract_lets | dsimp -zeta only | (with_reducible refine State.Keeps.upd ?_)

theorem State.dmaStart_keeps {s t0 : State} {a1 a2 a3} (h0 : s.Keeps t0) :
    s.Keeps (State.dmaStart t0 a1 a2 a3) := by
  unfold State.dmaStart
  repeat' first | intro _ | (with_reducible first | assumption | apply State.wr_keeps | apply State.wrF_keeps | apply State.fenceHit_keeps | apply State.dmaFinish_keeps | refine State.Keeps.fst_of ?_ (by assumption)) | split | extract_lets | dsimp -zeta only | (with_reducible refine State.Keeps.upd ?_)

theorem State.dmaLoad_keeps {s t0 : State} {a1 a2} (h0 : s.Keeps t0) :
    s.Keeps (State.dmaLoad t0 a1 a2) := by
  unfold State.dmaLoad
  repeat' first | intro _ | (with_reducible first | assumption | apply State.wr_keeps | refine State.Keeps.foldl _ ?_ (fun _ _ hv => ?_) | refine State.Keeps.foldl_fst _ ?_ (fun _ _ hv => ?_) | refine State.Keeps.fst_of ?_ (by assumption)) | split | extract_lets | dsimp -zeta only

theorem State.accessNow_keeps {s t0 : State} {a1 a2} (h0 : s.Keeps t0) :
    s.Keeps (State.accessNow t0 a1 a2).1 := by
  unfold State.accessNow
  repeat' first | intro _ | (with_reducible first | assumption | apply State.applyAt_keeps | apply State.applyHome_keeps | apply State.cacheNow_keeps | refine State.Keeps.ite ?_ ?_ | refine State.Keeps.ite_fst ?_ ?_ | refine State.Keeps.fst_of ?_ (by assumption)) | split | dsimp -zeta only

theorem State.readUnits_keeps {s t0 : State} {a1 a2 a3 a4 a5 a6} (h0 : s.Keeps t0) :
    s.Keeps (State.readUnits t0 a1 a2 a3 a4 a5 a6).1 := by
  induction a5 generalizing t0 a6 with
  | zero => exact h0
  | succ n ih =>
    rw [State.readUnits]
    exact ih (State.accessNow_keeps h0)

theorem State.writeUnits_keeps {s t0 : State} {a1 a2 a3 a4 a5 a6 a7} (h0 : s.Keeps t0) :
    s.Keeps (State.writeUnits t0 a1 a2 a3 a4 a5 a6 a7).1 := by
  induction a5 generalizing t0 a6 a7 with
  | zero => exact h0
  | succ n ih =>
    rw [State.writeUnits]
    refine State.Keeps.ite_fst h0 ?_
    extract_lets x
    split
    rename_i v r he
    have hv : s.Keeps v := State.Keeps.fst_of (State.accessNow_keeps h0) he
    exact State.Keeps.ite_fst (ih hv) hv

theorem State.dmaWrote_keeps {s t0 : State} {a1 a2 a3} (h0 : s.Keeps t0) :
    s.Keeps (State.dmaWrote t0 a1 a2 a3).1 := by
  unfold State.dmaWrote
  repeat' first | intro _ | (with_reducible first | assumption | apply State.wr_keeps) | extract_lets | dsimp -zeta only | (with_reducible refine State.Keeps.upd ?_)

theorem State.putXfer_keeps {s t0 : State} {a1 a2} (h0 : s.Keeps t0) :
    s.Keeps (State.putXfer t0 a1 a2) := by
  unfold State.putXfer
  repeat' first | intro _ | (with_reducible first | assumption) | dsimp -zeta only | (with_reducible refine State.Keeps.upd ?_)

theorem State.openOp_keeps {s t0 : State} {a1 a2 a3 a4 a5 a6} (h0 : s.Keeps t0) :
    s.Keeps (State.openOp t0 a1 a2 a3 a4 a5 a6).2 := State.Keeps.upd (State.newTag_keeps h0)

theorem State.sendOp_keeps {s t0 : State} {a1 a2 a3 a4 a5 a6 a7} (h0 : s.Keeps t0) :
    s.Keeps (State.sendOp t0 a1 a2 a3 a4 a5 a6 a7) :=
  State.sendFlit_keeps (State.openOp_keeps (a1 := a1) (a2 := a2) (a3 := a3) (a4 := a4) (a5 := a6) (a6 := a7) h0)

theorem State.askReadBack_keeps {s t0 : State} {a1 a2} (h0 : s.Keeps t0) :
    s.Keeps (State.askReadBack t0 a1 a2) := by
  unfold State.askReadBack
  repeat' first | intro _ | (with_reducible first | assumption | apply State.emit_keeps | apply State.putXfer_keeps | apply State.sendOp_keeps | refine State.Keeps.ite ?_ ?_ | refine State.Keeps.ite_fst ?_ ?_ | refine State.Keeps.fst_of ?_ (by assumption)) | split | extract_lets | dsimp -zeta only | (with_reducible refine State.Keeps.upd ?_)

theorem State.dmaSettle_keeps {s t0 : State} {a1} (h0 : s.Keeps t0) :
    s.Keeps (State.dmaSettle t0 a1) := by
  unfold State.dmaSettle
  repeat' first | intro _ | (with_reducible first | assumption | apply State.dmaFinish_keeps | apply State.askReadBack_keeps | refine State.Keeps.ite ?_ ?_ | refine State.Keeps.ite_fst ?_ ?_ | refine State.Keeps.fst_of ?_ (by assumption)) | split | dsimp -zeta only

theorem State.dmaWrite_keeps {s t0 : State} {a1 a2 a3 a4 a5 a6 a7 a8} (h0 : s.Keeps t0) :
    s.Keeps (State.dmaWrite t0 a1 a2 a3 a4 a5 a6 a7 a8) := by
  unfold State.dmaWrite
  refine State.Keeps.ite ?_ (State.Keeps.ite ?_ (State.Keeps.ite ?_ ?_))
  · exact State.dmaSettle_keeps (State.putXfer_keeps (State.dmaWrote_keeps (State.emit_keeps h0)))
  · extract_lets fabric o w m step
    have hs (q : State × Nat × Status) (sh : Int) (hq : s.Keeps q.1) : s.Keeps (step q sh).1 := by
      obtain ⟨v, n, st⟩ := q
      dsimp only [step]
      exact State.Keeps.ite_fst hq (State.Keeps.ite_fst (State.writeUnits_keeps hq)
        (State.Keeps.ite_fst (State.writeUnits_keeps hq) (State.writeUnits_keeps (State.writeUnits_keeps hq))))
    exact State.dmaSettle_keeps (State.putXfer_keeps (State.dmaWrote_keeps (State.Keeps.foldl_fst _ h0 hs)))
  · exact State.dmaSettle_keeps (State.putXfer_keeps h0)
  · exact State.sendOp_keeps (State.putXfer_keeps h0)

theorem State.dmaData_keeps {s t0 : State} {a1 a2 a3 a4 a5 a6 a7} (h0 : s.Keeps t0) :
    s.Keeps (State.dmaData t0 a1 a2 a3 a4 a5 a6 a7) := by
  unfold State.dmaData
  repeat' first | intro _ | (with_reducible first | assumption | apply State.writeUnits_keeps | apply State.putXfer_keeps | apply State.dmaSettle_keeps | apply State.dmaWrite_keeps | refine State.Keeps.ite ?_ ?_ | refine State.Keeps.ite_fst ?_ ?_ | refine State.Keeps.fst_of ?_ (by assumption)) | split | extract_lets | dsimp -zeta only | (with_reducible refine State.Keeps.upd ?_)

theorem State.readPacked_keeps {s t0 : State} {a1 a2 a3 a4 a5 a6} (h0 : s.Keeps t0) :
    s.Keeps (State.readPacked t0 a1 a2 a3 a4 a5 a6).1 := by
  induction a5 generalizing t0 a6 with
  | zero => exact h0
  | succ n ih =>
    rw [State.readPacked]
    refine State.Keeps.ite_fst h0 ?_
    split
    rename_i v hd ms he
    have hv : s.Keeps v := State.Keeps.fst_of (State.readUnits_keeps h0) he
    refine State.Keeps.ite_fst hv (State.Keeps.ite_fst hv (State.Keeps.ite_fst hv ?_))
    split
    rename_i w tl ms2 he2
    have hw : s.Keeps w := State.Keeps.fst_of (State.readUnits_keeps hv) he2
    exact State.Keeps.ite_fst hw (ih hw)

theorem State.dmaRead_keeps {s t0 : State} {a1 a2 a3 a4 a5 a6 a7 a8 a9 a10} (h0 : s.Keeps t0) :
    s.Keeps (State.dmaRead t0 a1 a2 a3 a4 a5 a6 a7 a8 a9 a10) := by
  unfold State.dmaRead
  repeat' first | intro _ | (with_reducible first | assumption | apply State.emit_keeps | apply State.readUnits_keeps | apply State.putXfer_keeps | apply State.sendOp_keeps | apply State.dmaSettle_keeps | apply State.dmaData_keeps | refine State.Keeps.ite ?_ ?_ | refine State.Keeps.ite_fst ?_ ?_ | refine State.Keeps.foldl _ ?_ (fun _ _ hv => ?_) | refine State.Keeps.foldl_fst _ ?_ (fun _ _ hv => ?_) | refine State.Keeps.fst_of ?_ (by assumption)) | split | extract_lets | dsimp -zeta only | (with_reducible refine State.Keeps.upd ?_)

theorem State.dmaBeat_keeps {s t0 : State} {a1 a2} (h0 : s.Keeps t0) :
    s.Keeps (State.dmaBeat t0 a1 a2) := by
  unfold State.dmaBeat
  repeat' first | intro _ | (with_reducible first | assumption | apply State.accessNow_keeps | apply State.putXfer_keeps | apply State.dmaSettle_keeps | apply State.dmaWrite_keeps | apply State.dmaData_keeps | apply State.readPacked_keeps | apply State.dmaRead_keeps | refine State.Keeps.ite ?_ ?_ | refine State.Keeps.ite_fst ?_ ?_ | refine State.Keeps.foldl _ ?_ (fun _ _ hv => ?_) | refine State.Keeps.foldl_fst _ ?_ (fun _ _ hv => ?_) | refine State.Keeps.fst_of ?_ (by assumption)) | split | extract_lets | dsimp -zeta only

theorem State.readBackDone_keeps {s t0 : State} {a1 a2 a3} (h0 : s.Keeps t0) :
    s.Keeps (State.readBackDone t0 a1 a2 a3) := by
  unfold State.readBackDone
  repeat' first | intro _ | (with_reducible first | assumption | apply State.dmaFinish_keeps | apply State.accessNow_keeps | refine State.Keeps.ite ?_ ?_ | refine State.Keeps.ite_fst ?_ ?_ | refine State.Keeps.foldl _ ?_ (fun _ _ hv => ?_) | refine State.Keeps.foldl_fst _ ?_ (fun _ _ hv => ?_) | refine State.Keeps.fst_of ?_ (by assumption)) | split | extract_lets | dsimp -zeta only

theorem State.dmaArrive_keeps {s t0 : State} {a1 a2 a3 a4 a5 a6 a7} (h0 : s.Keeps t0) :
    s.Keeps (State.dmaArrive t0 a1 a2 a3 a4 a5 a6 a7) := by
  unfold State.dmaArrive
  repeat' first | intro _ | (with_reducible first | assumption | apply State.putXfer_keeps | apply State.dmaSettle_keeps | apply State.dmaData_keeps | refine State.Keeps.ite ?_ ?_ | refine State.Keeps.ite_fst ?_ ?_ | refine State.Keeps.fst_of ?_ (by assumption)) | split | extract_lets | dsimp -zeta only | (with_reducible refine State.Keeps.upd ?_)

theorem State.dmaAck_keeps {s t0 : State} {a1 a2 a3} (h0 : s.Keeps t0) :
    s.Keeps (State.dmaAck t0 a1 a2 a3) := by
  unfold State.dmaAck
  repeat' first | intro _ | (with_reducible first | assumption | apply State.dmaWrote_keeps | apply State.putXfer_keeps | apply State.dmaSettle_keeps | refine State.Keeps.ite ?_ ?_ | refine State.Keeps.ite_fst ?_ ?_ | refine State.Keeps.fst_of ?_ (by assumption)) | split | extract_lets | dsimp -zeta only | (with_reducible refine State.Keeps.upd ?_)

theorem State.setG_keeps {s t0 : State} {a1 a2 a3 a4} (h0 : s.Keeps t0) :
    s.Keeps (State.setG t0 a1 a2 a3 a4) := by
  unfold State.setG
  repeat' first | intro _ | (with_reducible first | assumption) | dsimp -zeta only | (with_reducible refine State.Keeps.upd ?_)

theorem State.setP_keeps {s t0 : State} {a1 a2 a3 a4} (h0 : s.Keeps t0) :
    s.Keeps (State.setP t0 a1 a2 a3 a4) := by
  unfold State.setP
  repeat' first | intro _ | (with_reducible first | assumption | refine State.Keeps.ite ?_ ?_) | split | dsimp -zeta only | (with_reducible refine State.Keeps.upd ?_)

theorem State.putRotor_keeps {s t0 : State} {a1 a2} (h0 : s.Keeps t0) :
    s.Keeps (State.putRotor t0 a1 a2) := by
  unfold State.putRotor
  repeat' first | intro _ | (with_reducible first | assumption) | dsimp -zeta only | (with_reducible refine State.Keeps.upd ?_)

theorem State.putPipe_keeps {s t0 : State} {a1 a2} (h0 : s.Keeps t0) :
    s.Keeps (State.putPipe t0 a1 a2) := by
  unfold State.putPipe
  repeat' first | intro _ | (with_reducible first | assumption | apply State.putRotor_keeps) | dsimp -zeta only | (with_reducible refine State.Keeps.upd ?_)

theorem State.mapEntries_keeps {s t0 : State} {a1 a2} (h0 : s.Keeps t0) :
    s.Keeps (State.mapEntries t0 a1 a2) := by
  unfold State.mapEntries
  repeat' first | intro _ | (with_reducible first | assumption | apply State.putRotor_keeps | refine State.Keeps.ite ?_ ?_ | refine State.Keeps.ite_fst ?_ ?_) | split | extract_lets | dsimp -zeta only | (with_reducible refine State.Keeps.upd ?_)

theorem State.spliceEntry_keeps {s t0 : State} {a1 a2 a3} (h0 : s.Keeps t0) :
    s.Keeps (State.spliceEntry t0 a1 a2 a3) := by
  unfold State.spliceEntry
  repeat' first | intro _ | (with_reducible first | assumption | apply State.mapEntries_keeps | refine State.Keeps.ite ?_ ?_) | split | dsimp -zeta only

theorem State.captureFault_keeps {s t0 : State} {a1 a2 a3 a4 a5 a6} (h0 : s.Keeps t0) :
    s.Keeps (State.captureFault t0 a1 a2 a3 a4 a5 a6) := by
  unfold State.captureFault
  repeat' first | intro _ | (with_reducible first | assumption | apply State.wr_keeps | apply State.bump_keeps | refine State.Keeps.ite ?_ ?_) | split | extract_lets | dsimp -zeta only

theorem State.dropGroup_keeps {s t0 : State} {a1 a2} (h0 : s.Keeps t0) :
    s.Keeps (State.dropGroup t0 a1 a2) := by
  unfold State.dropGroup
  repeat' first | intro _ | (with_reducible first | assumption | apply State.mapEntries_keeps | refine State.Keeps.ite ?_ ?_) | split | extract_lets | dsimp -zeta only | (with_reducible refine State.Keeps.upd ?_)

theorem State.purgeGroup_keeps {s t0 : State} {a1 a2} (h0 : s.Keeps t0) :
    s.Keeps (State.purgeGroup t0 a1 a2) := by
  unfold State.purgeGroup
  repeat' first | intro _ | (with_reducible first | assumption | apply State.putPipe_keeps | apply State.mapEntries_keeps | refine State.Keeps.ite ?_ ?_) | split | extract_lets | dsimp -zeta only | (with_reducible refine State.Keeps.upd ?_)

theorem State.halt_keeps {s t0 : State} {a1 a2 a3 a4 a5 a6} (h0 : s.Keeps t0) :
    s.Keeps (State.halt t0 a1 a2 a3 a4 a5 a6) := by
  unfold State.halt
  repeat' first | intro _ | (with_reducible first | assumption | apply State.putGroup_keeps | apply State.raisePart_keeps | apply State.captureFault_keeps | apply State.dropGroup_keeps | refine State.Keeps.ite ?_ ?_ | refine State.Keeps.ite_fst ?_ ?_) | split | extract_lets | dsimp -zeta only | (with_reducible refine State.Keeps.upd ?_)

theorem State.haltLanes_keeps {s t0 : State} {a1 a2 a3 a4 a5} (h0 : s.Keeps t0) :
    s.Keeps (State.haltLanes t0 a1 a2 a3 a4 a5) := by
  unfold State.haltLanes
  repeat' first | intro _ | (with_reducible first | assumption | apply State.halt_keeps | refine State.Keeps.foldl _ ?_ (fun _ _ hv => ?_)) | split | extract_lets | dsimp -zeta only

theorem State.fetchCount_keeps {s t0 : State} {a1 a2 a3} (h0 : s.Keeps t0) :
    s.Keeps (State.fetchCount t0 a1 a2 a3) := by
  unfold State.fetchCount
  repeat' first | intro _ | (with_reducible first | assumption | apply State.countCorrected_keeps | refine State.Keeps.fst_of ?_ (by assumption)) | split | dsimp -zeta only

theorem State.issue_keeps {s t0 : State} {a1 a2 a3} (h0 : s.Keeps t0) (h3 : ∀ x0 x1, s.Keeps x0 → s.Keeps (a3 x0 x1)) :
    s.Keeps (State.issue t0 a1 a2 a3) := by
  unfold State.issue
  repeat' first | intro _ | (with_reducible first | assumption | apply h3 | apply State.putRotor_keeps | apply State.haltLanes_keeps | apply State.fetchCount_keeps | refine State.Keeps.ite ?_ ?_ | refine State.Keeps.ite_fst ?_ ?_ | refine State.Keeps.fst_of ?_ (by assumption)) | split | extract_lets | dsimp -zeta only | (with_reducible refine State.Keeps.upd ?_)

theorem State.advance_keeps {s t0 : State} {a1 a2} (h0 : s.Keeps t0) :
    s.Keeps (State.advance t0 a1 a2) := by
  unfold State.advance
  repeat' first | intro _ | (with_reducible first | assumption | apply State.spliceEntry_keeps) | dsimp -zeta only | (with_reducible refine State.Keeps.upd ?_)

theorem State.perLane_keeps {s t0 : State} {a1 a2 a3} (h0 : s.Keeps t0) (h3 : ∀ x0 x1 x2, s.Keeps x0 → s.Keeps x1 → s.Keeps (a3 x0 x1 x2)) :
    s.Keeps (State.perLane t0 a1 a2 a3) := by
  unfold State.perLane
  repeat' first | intro _ | (with_reducible first | assumption | apply h3 | apply State.issue_keeps | apply State.advance_keeps | refine State.Keeps.foldl _ ?_ (fun _ _ hv => ?_)) | split | dsimp -zeta only

theorem State.settleGroup_keeps {s t0 : State} {a1 a2} (h0 : s.Keeps t0) :
    s.Keeps (State.settleGroup t0 a1 a2) := by
  unfold State.settleGroup
  repeat' first | intro _ | (with_reducible first | assumption | apply State.putGroup_keeps | refine State.Keeps.ite ?_ ?_) | split | extract_lets | dsimp -zeta only

theorem State.writeOnes_keeps {s t0 : State} {a1 a2 a3 a4} (h0 : s.Keeps t0) :
    s.Keeps (State.writeOnes t0 a1 a2 a3 a4) := by
  unfold State.writeOnes
  repeat' first | intro _ | (with_reducible first | assumption | apply State.setG_keeps | refine State.Keeps.fst_of ?_ (by assumption)) | split | dsimp -zeta only

theorem State.writeLoad_keeps {s t0 : State} {a1 a2 a3 a4 a5 a6} (h0 : s.Keeps t0) :
    s.Keeps (State.writeLoad t0 a1 a2 a3 a4 a5 a6) := by
  unfold State.writeLoad
  repeat' first | intro _ | (with_reducible first | assumption | apply State.setG_keeps | refine State.Keeps.fst_of ?_ (by assumption)) | split | dsimp -zeta only

theorem State.haltFaults_keeps {s t0 : State} {a1 a2 a3} (h0 : s.Keeps t0) :
    s.Keeps (State.haltFaults t0 a1 a2 a3) := by
  unfold State.haltFaults
  repeat' first | intro _ | (with_reducible first | assumption | apply State.fenceHit_keeps | apply State.halt_keeps | refine State.Keeps.ite ?_ ?_ | refine State.Keeps.ite_fst ?_ ?_ | refine State.Keeps.foldl _ ?_ (fun _ _ hv => ?_) | refine State.Keeps.foldl_fst _ ?_ (fun _ _ hv => ?_) | refine State.Keeps.fst_of ?_ (by assumption)) | split | extract_lets | dsimp -zeta only

theorem State.tileLoad_keeps {s t0 : State} {a1 a2 a3 a4 a5 a6} (h0 : s.Keeps t0) :
    s.Keeps (State.tileLoad t0 a1 a2 a3 a4 a5 a6).1 := by
  unfold State.tileLoad
  repeat' first | intro _ | (with_reducible first | assumption | apply State.senseCw_keeps | apply State.writeLoad_keeps | refine State.Keeps.foldl _ ?_ (fun _ _ hv => ?_) | refine State.Keeps.foldl_fst _ ?_ (fun _ _ hv => ?_)) | split | extract_lets | dsimp -zeta only

theorem State.tileStore_keeps {s t0 : State} {a1 a2 a3} (h0 : s.Keeps t0) :
    s.Keeps (State.tileStore t0 a1 a2 a3).1 := by
  unfold State.tileStore
  repeat' first | intro _ | (with_reducible first | assumption | apply State.store_keeps | apply State.putPoison_keeps | apply State.mendCw_keeps | refine State.Keeps.foldl _ ?_ (fun _ _ hv => ?_) | refine State.Keeps.foldl_fst _ ?_ (fun _ _ hv => ?_)) | split | extract_lets | dsimp -zeta only

theorem State.tileAtomWord_keeps {s t0 : State} {a1 a2 a3 a4 a5 a6} (h0 : s.Keeps t0) :
    s.Keeps (State.tileAtomWord t0 a1 a2 a3 a4 a5 a6).1 := by
  unfold State.tileAtomWord
  extract_lets l_o l_ls
  try (have h_o : s.Keeps l_o := by (repeat' first | intro _ | (with_reducible first | assumption | apply State.store_keeps | apply State.mendCw_keeps | apply State.setG_keeps | refine State.Keeps.ite ?_ ?_ | refine State.Keeps.ite_fst ?_ ?_ | refine State.Keeps.foldl _ ?_ (fun _ _ hv => ?_) | refine State.Keeps.foldl_fst _ ?_ (fun _ _ hv => ?_) | refine State.Keeps.fst_of ?_ (by assumption)) | split | extract_lets | dsimp -zeta only))
  try clear_value l_o
  try (have h_ls : s.Keeps l_ls := by (repeat' first | intro _ | (with_reducible first | assumption | apply State.store_keeps | apply State.mendCw_keeps | apply State.setG_keeps | refine State.Keeps.ite ?_ ?_ | refine State.Keeps.ite_fst ?_ ?_ | refine State.Keeps.foldl _ ?_ (fun _ _ hv => ?_) | refine State.Keeps.foldl_fst _ ?_ (fun _ _ hv => ?_) | refine State.Keeps.fst_of ?_ (by assumption)) | split | extract_lets | dsimp -zeta only))
  try clear_value l_ls
  repeat' first | intro _ | (with_reducible first | assumption | apply State.store_keeps | apply State.mendCw_keeps | apply State.setG_keeps | refine State.Keeps.ite ?_ ?_ | refine State.Keeps.ite_fst ?_ ?_ | refine State.Keeps.foldl _ ?_ (fun _ _ hv => ?_) | refine State.Keeps.foldl_fst _ ?_ (fun _ _ hv => ?_) | refine State.Keeps.fst_of ?_ (by assumption)) | split | extract_lets | dsimp -zeta only

theorem State.tileAtomic_keeps {s t0 : State} {a1 a2 a3 a4 a5} (h0 : s.Keeps t0) :
    s.Keeps (State.tileAtomic t0 a1 a2 a3 a4 a5).1 := by
  unfold State.tileAtomic
  repeat' first | intro _ | (with_reducible first | assumption | apply State.tileAtomWord_keeps | refine State.Keeps.foldl _ ?_ (fun _ _ hv => ?_) | refine State.Keeps.foldl_fst _ ?_ (fun _ _ hv => ?_) | refine State.Keeps.fst_of ?_ (by assumption)) | split | extract_lets | dsimp -zeta only

theorem State.sendAccess_keeps {s t0 : State} {a1 a2 a3 a4 a5 a6} (h0 : s.Keeps t0) :
    s.Keeps (State.sendAccess t0 a1 a2 a3 a4 a5 a6) :=
  State.Keeps.ite (State.sendHome_keeps h0)
    (State.Keeps.foldl _ (State.openOp_keeps (a1 := a1) (a2 := a3) (a3 := a2) (a4 := false) (a5 := a4) (a6 := a5) h0)
      (fun _ _ hv => State.sendLink_keeps hv))

theorem State.globalAccess_keeps {s t0 : State} {a1 a2 a3 a4 a5 a6 a7} (h0 : s.Keeps t0) :
    s.Keeps (State.globalAccess t0 a1 a2 a3 a4 a5 a6 a7).1 := by
  unfold State.globalAccess
  repeat' first | intro _ | (with_reducible first | assumption | apply State.sendAccess_keeps | refine State.Keeps.foldl _ ?_ (fun _ _ hv => ?_) | refine State.Keeps.foldl_fst _ ?_ (fun _ _ hv => ?_) | refine State.Keeps.fst_of ?_ (by assumption)) | split | extract_lets | dsimp -zeta only

theorem State.globalAtomic_keeps {s t0 : State} {a1 a2 a3 a4 a5} (h0 : s.Keeps t0) :
    s.Keeps (State.globalAtomic t0 a1 a2 a3 a4 a5).1 := by
  unfold State.globalAtomic
  repeat' first | intro _ | (with_reducible first | assumption | apply State.sendAccess_keeps | refine State.Keeps.foldl _ ?_ (fun _ _ hv => ?_) | refine State.Keeps.foldl_fst _ ?_ (fun _ _ hv => ?_) | refine State.Keeps.fst_of ?_ (by assumption)) | split | extract_lets | dsimp -zeta only

theorem State.pipeAccess_keeps {s t0 : State} {a1 a2} (h0 : s.Keeps t0) :
    s.Keeps (State.pipeAccess t0 a1 a2).1 := by
  unfold State.pipeAccess
  repeat' first | intro _ | (with_reducible first | assumption | apply State.tileLoad_keeps | apply State.tileStore_keeps | apply State.tileAtomic_keeps | apply State.globalAccess_keeps | apply State.globalAtomic_keeps | refine State.Keeps.fst_of ?_ (by assumption)) | split | dsimp -zeta only

theorem State.drainOne_keeps {s t0 u : State} {a1} (h0 : s.Keeps t0) (e : State.drainOne t0 a1 = some u) : s.Keeps u := by
  unfold State.drainOne at e
  split at e
  · cases e
  · dsimp only at e
    split at e
    · cases e
      exact State.haltFaults_keeps (State.pipeAccess_keeps (State.putPipe_keeps h0))
    · split at e
      · cases e
      · cases e
        exact State.haltFaults_keeps (State.usePort_keeps (State.pipeAccess_keeps (State.putPipe_keeps h0)))

theorem State.drain_keeps {s t0 : State} {a1 a2} (h0 : s.Keeps t0) : s.Keeps (State.drain t0 a1 a2) := by
  induction a2 generalizing t0 with
  | zero => exact h0
  | succ n ih =>
    rw [State.drain]
    split
    · exact ih (State.drainOne_keeps h0 (by assumption))
    · exact h0

theorem State.drainPipe_keeps {s t0 : State} {a1} (h0 : s.Keeps t0) : s.Keeps (State.drainPipe t0 a1) := State.drain_keeps h0

theorem State.enterPipe_keeps {s t0 : State} {a1 a2 a3 a4} (h0 : s.Keeps t0) :
    s.Keeps (State.enterPipe t0 a1 a2 a3 a4) := by
  unfold State.enterPipe
  repeat' first | intro _ | (with_reducible first | assumption | apply State.putPipe_keeps | apply State.drainPipe_keeps) | dsimp -zeta only

theorem State.setAll_keeps {s t0 : State} {a1 a2 a3 a4} (h0 : s.Keeps t0) :
    s.Keeps (State.setAll t0 a1 a2 a3 a4) := by
  unfold State.setAll
  repeat' first | intro _ | (with_reducible first | assumption | apply State.setG_keeps | refine State.Keeps.foldl _ ?_ (fun _ _ hv => ?_)) | split | dsimp -zeta only

theorem State.dmakStart_keeps {s t0 : State} {a1 a2 a3 a4} (h0 : s.Keeps t0) :
    s.Keeps (State.dmakStart t0 a1 a2 a3 a4) := by
  unfold State.dmakStart
  repeat' first | intro _ | (with_reducible first | assumption | apply State.wr_keeps | apply State.dmaFinish_keeps | apply State.dmaStart_keeps | apply State.dmaLoad_keeps | refine State.Keeps.ite ?_ ?_) | split | extract_lets | dsimp -zeta only | (with_reducible refine State.Keeps.upd ?_)

theorem State.wakeEntry_keeps {s t0 : State} {a1 a2} (h0 : s.Keeps t0) :
    s.Keeps (State.wakeEntry t0 a1 a2).1 := by
  unfold State.wakeEntry
  repeat' first | intro _ | (with_reducible first | assumption | apply State.putGroup_keeps | apply State.putCell_keeps | apply State.addCell_keeps | apply State.spliceEntry_keeps | apply State.halt_keeps | apply State.sendAccess_keeps | apply State.setAll_keeps | apply State.dmakStart_keeps | refine State.Keeps.ite ?_ ?_ | refine State.Keeps.ite_fst ?_ ?_ | refine State.Keeps.fst_of ?_ (by assumption)) | split | extract_lets | dsimp -zeta only | (with_reducible refine State.Keeps.upd ?_)

theorem State.wakeFrom_keeps {s t0 : State} {a1 a2 a3} (h0 : s.Keeps t0) : s.Keeps (State.wakeFrom t0 a1 a2 a3) := by
  induction a2 generalizing t0 a3 with
  | zero => exact h0
  | succ n ih =>
    rw [State.wakeFrom]
    refine State.Keeps.ite h0 (State.Keeps.ite (ih (State.wakeEntry_keeps h0)) (ih h0))

theorem State.wakeTile_keeps {s t0 : State} {a1} (h0 : s.Keeps t0) : s.Keeps (State.wakeTile t0 a1) :=
  State.Keeps.foldl _ (State.wakeFrom_keeps (State.drainPipe_keeps h0)) (fun _ _ hv => State.settleGroup_keeps hv)

theorem State.wakeAll_keeps {s t0 : State} (h0 : s.Keeps t0) :
    s.Keeps (State.wakeAll t0) := by
  unfold State.wakeAll
  repeat' first | intro _ | (with_reducible first | assumption | apply State.wakeTile_keeps | refine State.Keeps.foldl _ ?_ (fun _ _ hv => ?_) | refine State.Keeps.foldl_fst _ ?_ (fun _ _ hv => ?_)) | split | extract_lets | dsimp -zeta only

theorem State.finishThread_keeps {s t0 : State} {a1 a2} (h0 : s.Keeps t0) :
    s.Keeps (State.finishThread t0 a1 a2) := by
  unfold State.finishThread
  repeat' first | intro _ | (with_reducible first | assumption | apply State.setG_keeps | apply State.halt_keeps | apply State.haltLanes_keeps | apply State.writeOnes_keeps | apply State.writeLoad_keeps | apply State.wakeTile_keeps | refine State.Keeps.ite ?_ ?_ | refine State.Keeps.ite_fst ?_ ?_ | refine State.Keeps.foldl _ ?_ (fun _ _ hv => ?_) | refine State.Keeps.foldl_fst _ ?_ (fun _ _ hv => ?_) | refine State.Keeps.fst_of ?_ (by assumption)) | split | extract_lets | dsimp -zeta only

theorem State.alu2_keeps {s t0 : State} {a1 a2 a3 a4 a5} (h0 : s.Keeps t0) :
    s.Keeps (State.alu2 t0 a1 a2 a3 a4 a5) := by
  unfold State.alu2
  repeat' first | intro _ | (with_reducible first | assumption | apply State.setG_keeps | apply State.perLane_keeps) | split | dsimp -zeta only

theorem State.alu2Free_keeps {s t0 : State} {a1 a2 a3 a4 a5 a6} (h0 : s.Keeps t0) :
    s.Keeps (State.alu2Free t0 a1 a2 a3 a4 a5 a6) := by
  unfold State.alu2Free
  repeat' first | intro _ | (with_reducible first | assumption | apply State.tock_keeps | apply State.setG_keeps | apply State.perLane_keeps) | split | dsimp -zeta only

theorem State.fpu2_keeps {s t0 : State} {a1 a2 a3 a4 a5} (h0 : s.Keeps t0) :
    s.Keeps (State.fpu2 t0 a1 a2 a3 a4 a5) := by
  unfold State.fpu2
  repeat' first | intro _ | (with_reducible first | assumption | apply State.setG_keeps | apply State.perLane_keeps) | split | dsimp -zeta only

theorem State.cvtDst_keeps {s t0 : State} {a1 a2 a3 a4 a5} (h0 : s.Keeps t0) :
    s.Keeps (State.cvtDst t0 a1 a2 a3 a4 a5) := by
  unfold State.cvtDst
  repeat' first | intro _ | (with_reducible first | assumption | apply State.setG_keeps | refine State.Keeps.fst_of ?_ (by assumption)) | split | dsimp -zeta only

theorem State.joinArrived_keeps {s t0 : State} {a1 a2 a3 a4} (h0 : s.Keeps t0) :
    s.Keeps (State.joinArrived t0 a1 a2 a3 a4) := by
  unfold State.joinArrived
  repeat' first | intro _ | (with_reducible first | assumption | apply State.mapEntries_keeps | refine State.Keeps.ite ?_ ?_) | split | extract_lets | dsimp -zeta only

theorem State.cvtBlkLanes_keeps {s t0 : State} {a1 a2 a3 a4 a5 a6 a7 a8} (h0 : s.Keeps t0) :
    s.Keeps (State.cvtBlkLanes t0 a1 a2 a3 a4 a5 a6 a7 a8) := by
  unfold State.cvtBlkLanes
  repeat' first | intro _ | (with_reducible first | assumption | apply State.setG_keeps | apply State.cvtDst_keeps | refine State.Keeps.ite ?_ ?_ | refine State.Keeps.ite_fst ?_ ?_ | refine State.Keeps.foldl _ ?_ (fun _ _ hv => ?_) | refine State.Keeps.foldl_fst _ ?_ (fun _ _ hv => ?_) | refine State.Keeps.fst_of ?_ (by assumption)) | split | extract_lets | dsimp -zeta only

theorem State.execGroup_keeps {s t0 : State} {a1 a2 a3 a4 a5 a6 a7} (h0 : s.Keeps t0) :
    s.Keeps (State.execGroup t0 a1 a2 a3 a4 a5 a6 a7) := by
  unfold State.execGroup
  extract_lets g stay next fail onLanes mixed
  have hf (st : Status) : s.Keeps (fail st) := State.halt_keeps h0
  have hj {pc : Pc} {e : Entry} : s.Keeps (((t0.joinArrived a1 a2 pc e).wakeTile a1).tock) :=
    State.tock_keeps (State.wakeTile_keeps (State.joinArrived_keeps h0))
  refine State.Keeps.ite (hf _) (State.Keeps.ite (State.joinArrived_keeps h0) ?_)
  split
  · exact State.joinArrived_keeps (State.Keeps.foldl _ h0 (fun _ _ hv => State.setG_keeps hv))
  · refine State.joinArrived_keeps ?_
    split
    · exact State.Keeps.foldl _ h0 (fun _ _ hv => State.setP_keeps hv)
    · exact State.Keeps.foldl _ h0 (fun _ _ hv => State.setP_keeps hv)
    · exact State.Keeps.foldl _ h0 (fun _ _ hv => State.setG_keeps hv)
  · exact State.tock_keeps (State.joinArrived_keeps (State.cvtBlkLanes_keeps h0))
  · exact State.enterPipe_keeps (State.joinArrived_keeps h0)
  · exact State.enterPipe_keeps (State.joinArrived_keeps h0)
  · exact State.Keeps.ite (State.tock_keeps (hf _)) hj
  · exact State.Keeps.ite (State.tock_keeps (hf _)) hj
  · split
    · exact hf _
    · extract_lets off v w x y
      have hv : s.Keeps v := State.Keeps.ite (State.sense_keeps h0) h0
      have hw : s.Keeps w := State.setAll_keeps hv
      refine State.tock_keeps (State.joinArrived_keeps ?_)
      subst y
      split
      · exact State.putMx_keeps (State.putGroup_keeps hw)
      · exact State.bumpWrap_keeps (State.putGroup_keeps hw)
  · exact hj
  · exact State.joinArrived_keeps (State.putMx_keeps h0)
  · exact State.Keeps.ite (State.tock_keeps (hf _)) hj
  · exact State.Keeps.ite (State.tock_keeps (hf _)) hj

theorem State.tryEntry_keeps {s t0 : State} {a1 a2 a3} (h0 : s.Keeps t0) :
    s.Keeps (State.tryEntry t0 a1 a2 a3) := by
  unfold State.tryEntry
  repeat' first | intro _ | (with_reducible first | assumption | apply State.halt_keeps | apply State.execGroup_keeps | refine State.Keeps.ite ?_ ?_ | refine State.Keeps.ite_fst ?_ ?_ | refine State.Keeps.fst_of ?_ (by assumption)) | split | extract_lets | dsimp -zeta only

theorem State.tryGroup_keeps {s t0 : State} {a1 a2 a3} (h0 : s.Keeps t0) :
    s.Keeps (State.tryGroup t0 a1 a2 a3) := by
  unfold State.tryGroup
  repeat' first | intro _ | (with_reducible first | assumption | apply State.tryEntry_keeps | refine State.Keeps.ite ?_ ?_ | refine State.Keeps.foldl _ ?_ (fun _ _ hv => ?_)) | split | dsimp -zeta only

theorem State.arrive_keeps {s t0 : State} {a1 a2 a3} (h0 : s.Keeps t0) :
    s.Keeps (State.arrive t0 a1 a2 a3) := by
  unfold State.arrive
  repeat' first | intro _ | (with_reducible first | assumption | apply State.spliceEntry_keeps | apply State.haltLanes_keeps | apply State.issue_keeps | apply State.tryGroup_keeps | refine State.Keeps.foldl _ ?_ (fun _ _ hv => ?_) | refine State.Keeps.foldl_fst _ ?_ (fun _ _ hv => ?_) | refine State.Keeps.fst_of ?_ (by assumption)) | split | extract_lets | dsimp -zeta only

theorem State.branch_keeps {s t0 : State} {a1 a2 a3 a4} (h0 : s.Keeps t0) (h3 : ∀ x0 x1 x2, s.Keeps x0 → s.Keeps (a3 x0 x1 x2)) :
    s.Keeps (State.branch t0 a1 a2 a3 a4) := by
  unfold State.branch
  repeat' first | intro _ | (with_reducible first | assumption | apply h3 | apply State.spliceEntry_keeps | apply State.issue_keeps | refine State.Keeps.ite ?_ ?_ | refine State.Keeps.ite_fst ?_ ?_ | refine State.Keeps.foldl _ ?_ (fun _ _ hv => ?_) | refine State.Keeps.foldl_fst _ ?_ (fun _ _ hv => ?_)) | split | extract_lets | dsimp -zeta only

theorem State.exitLane_keeps {s t0 : State} {a1 a2} (h0 : s.Keeps t0) :
    s.Keeps (State.exitLane t0 a1 a2) := by
  unfold State.exitLane
  repeat' first | intro _ | (with_reducible first | assumption | apply State.putGroup_keeps) | extract_lets | dsimp -zeta only | (with_reducible refine State.Keeps.upd ?_)

theorem State.memory_keeps {s t0 : State} {a1 a2 a3} (h0 : s.Keeps t0) :
    s.Keeps (State.memory t0 a1 a2 a3) := by
  unfold State.memory
  repeat' first | intro _ | (with_reducible first | assumption | apply State.issue_keeps | apply State.advance_keeps | apply State.enterPipe_keeps) | split | dsimp -zeta only

theorem State.mergeEntries_keeps {s t0 : State} {a1 a2 a3 a4 a5} (h0 : s.Keeps t0) :
    s.Keeps (State.mergeEntries t0 a1 a2 a3 a4 a5) := by
  unfold State.mergeEntries
  repeat' first | intro _ | (with_reducible first | assumption | apply State.mapEntries_keeps | refine State.Keeps.ite ?_ ?_ | refine State.Keeps.foldl _ ?_ (fun _ _ hv => ?_)) | split | extract_lets | dsimp -zeta only

theorem State.repeatStall_keeps {s t0 : State} {a1} (h0 : s.Keeps t0) :
    s.Keeps (State.repeatStall t0 a1) := by
  unfold State.repeatStall
  repeat' first | intro _ | (with_reducible first | assumption | refine State.Keeps.ite ?_ ?_ | refine State.Keeps.ite_fst ?_ ?_ | refine State.Keeps.fst_of ?_ (by assumption)) | split | extract_lets | dsimp -zeta only | (with_reducible refine State.Keeps.upd ?_)

theorem State.groupStall_keeps {s t0 : State} {a1 a2} (h0 : s.Keeps t0) :
    s.Keeps (State.groupStall t0 a1 a2) := by
  unfold State.groupStall
  repeat' first | intro _ | (with_reducible first | assumption | apply State.raisePart_keeps | apply State.mapEntries_keeps | apply State.repeatStall_keeps | refine State.Keeps.ite ?_ ?_ | refine State.Keeps.foldl _ ?_ (fun _ _ hv => ?_)) | split | extract_lets | dsimp -zeta only | (with_reducible refine State.Keeps.upd ?_)

theorem State.putAcc_keeps {s t0 : State} {a1 a2 a3 a4 a5} (h0 : s.Keeps t0) :
    s.Keeps (State.putAcc t0 a1 a2 a3 a4 a5) := by
  unfold State.putAcc
  repeat' first | intro _ | (with_reducible first | assumption) | dsimp -zeta only | (with_reducible refine State.Keeps.upd ?_)

theorem State.accHit_keeps {s t0 : State} {a1 a2 a3 a4} (h0 : s.Keeps t0) :
    s.Keeps (State.accHit t0 a1 a2 a3 a4) := by
  unfold State.accHit
  repeat' first | intro _ | (with_reducible first | assumption | refine State.Keeps.ite ?_ ?_ | refine State.Keeps.ite_fst ?_ ?_ | refine State.Keeps.foldl _ ?_ (fun _ _ hv => ?_) | refine State.Keeps.foldl_fst _ ?_ (fun _ _ hv => ?_) | refine State.Keeps.fst_of ?_ (by assumption)) | split | extract_lets | dsimp -zeta only | (with_reducible refine State.Keeps.upd ?_)

theorem State.senseAccCw_keeps {s t0 : State} {a1 a2} (h0 : s.Keeps t0) :
    s.Keeps (State.senseAccCw t0 a1 a2) := by
  unfold State.senseAccCw
  repeat' first | intro _ | (with_reducible first | assumption | apply State.raise_keeps | apply State.countCorrected_keeps | apply State.accHit_keeps | refine State.Keeps.fst_of ?_ (by assumption)) | split | dsimp -zeta only

theorem State.senseAcc_keeps {s t0 : State} {a1 a2 a3} (h0 : s.Keeps t0) :
    s.Keeps (State.senseAcc t0 a1 a2 a3) := by
  unfold State.senseAcc
  repeat' first | intro _ | (with_reducible first | assumption | apply State.senseAccCw_keeps | refine State.Keeps.ite ?_ ?_ | refine State.Keeps.ite_fst ?_ ?_ | refine State.Keeps.foldl _ ?_ (fun _ _ hv => ?_) | refine State.Keeps.foldl_fst _ ?_ (fun _ _ hv => ?_) | refine State.Keeps.fst_of ?_ (by assumption)) | split | extract_lets | dsimp -zeta only

theorem State.accSeen_keeps {s t0 : State} {a1 a2 a3} (h0 : s.Keeps t0) :
    s.Keeps (State.accSeen t0 a1 a2 a3) := by
  unfold State.accSeen
  repeat' first | intro _ | (with_reducible first | assumption | apply State.accHit_keeps | refine State.Keeps.ite ?_ ?_ | refine State.Keeps.ite_fst ?_ ?_ | refine State.Keeps.foldl _ ?_ (fun _ _ hv => ?_) | refine State.Keeps.foldl_fst _ ?_ (fun _ _ hv => ?_) | refine State.Keeps.fst_of ?_ (by assumption)) | split | extract_lets | dsimp -zeta only

theorem State.feedGemm_keeps {s t0 : State} {a1 a2 a3 a4 a5 a6} (h0 : s.Keeps t0) :
    s.Keeps (State.feedGemm t0 a1 a2 a3 a4 a5 a6).1 := by
  unfold State.feedGemm
  repeat' first | intro _ | (with_reducible first | assumption | apply State.putAcc_keeps | refine State.Keeps.foldl _ ?_ (fun _ _ hv => ?_) | refine State.Keeps.foldl_fst _ ?_ (fun _ _ hv => ?_) | refine State.Keeps.fst_of ?_ (by assumption)) | split | extract_lets | dsimp -zeta only

theorem State.feedDual_keeps {s t0 : State} {a1 a2 a3 a4 a5 a6} (h0 : s.Keeps t0) :
    s.Keeps (State.feedDual t0 a1 a2 a3 a4 a5 a6).1 := by
  unfold State.feedDual
  extract_lets rows dy w x p dx
  have hd : s.Keeps dx.1 := State.Keeps.foldl_fst _ h0 (fun _ _ hv =>
    State.Keeps.foldl_fst _ hv (fun _ _ hw => State.putAcc_keeps hw))
  exact State.Keeps.foldl_fst _ hd (fun _ _ hv => State.Keeps.foldl_fst _ hv (fun _ _ hw => State.putAcc_keeps hw))

theorem State.feedReq_keeps {s t0 : State} {a1 a2 a3 a4 a5 a6} (h0 : s.Keeps t0) :
    s.Keeps (State.feedReq t0 a1 a2 a3 a4 a5 a6).1 := by
  unfold State.feedReq
  repeat' first | intro _ | (with_reducible first | assumption | apply State.senseAcc_keeps | apply State.accSeen_keeps | apply State.feedGemm_keeps | apply State.feedDual_keeps | refine State.Keeps.ite ?_ ?_ | refine State.Keeps.ite_fst ?_ ?_) | split | extract_lets | dsimp -zeta only

theorem State.poisonSpan_keeps {s t0 : State} {a1 a2} (h0 : s.Keeps t0) :
    s.Keeps (State.poisonSpan t0 a1 a2) := by
  unfold State.poisonSpan
  repeat' first | intro _ | (with_reducible first | assumption | apply State.putPoison_keeps | refine State.Keeps.foldl _ ?_ (fun _ _ hv => ?_)) | split | dsimp -zeta only

theorem State.exportRow_keeps {s t0 : State} {a1 a2 a3 a4 a5} (h0 : s.Keeps t0) :
    s.Keeps (State.exportRow t0 a1 a2 a3 a4 a5).1 := by
  unfold State.exportRow
  repeat' first | intro _ | (with_reducible first | assumption | apply State.merge_keeps | apply State.poisonSpan_keeps | refine State.Keeps.ite ?_ ?_ | refine State.Keeps.ite_fst ?_ ?_ | refine State.Keeps.foldl _ ?_ (fun _ _ hv => ?_) | refine State.Keeps.foldl_fst _ ?_ (fun _ _ hv => ?_) | refine State.Keeps.fst_of ?_ (by assumption)) | split | extract_lets | dsimp -zeta only

theorem State.exportTop_keeps {s t0 : State} {a1 a2 a3 a4 a5} (h0 : s.Keeps t0) :
    s.Keeps (State.exportTop t0 a1 a2 a3 a4 a5).1 := by
  unfold State.exportTop
  repeat' first | intro _ | (with_reducible first | assumption | apply State.merge_keeps | apply State.poisonSpan_keeps | refine State.Keeps.ite ?_ ?_ | refine State.Keeps.ite_fst ?_ ?_ | refine State.Keeps.fst_of ?_ (by assumption)) | split | extract_lets | dsimp -zeta only

theorem State.exportReq_keeps {s t0 : State} {a1 a2 a3 a4} (h0 : s.Keeps t0) :
    s.Keeps (State.exportReq t0 a1 a2 a3 a4).1 := by
  unfold State.exportReq
  repeat' first | intro _ | (with_reducible first | assumption | apply State.senseAcc_keeps | apply State.accSeen_keeps | apply State.exportRow_keeps | apply State.exportTop_keeps | refine State.Keeps.ite ?_ ?_ | refine State.Keeps.ite_fst ?_ ?_ | refine State.Keeps.foldl _ ?_ (fun _ _ hv => ?_) | refine State.Keeps.foldl_fst _ ?_ (fun _ _ hv => ?_) | refine State.Keeps.fst_of ?_ (by assumption)) | split | extract_lets | dsimp -zeta only

theorem State.tornReq_keeps {s t0 : State} {a1 a2} (h0 : s.Keeps t0) : s.Keeps (State.tornReq t0 a1 a2) := by
  unfold State.tornReq
  extract_lets d wipe fed v ex
  have hw (v : State) (a rows n : Nat) (f : Nat → Bool) (hv : s.Keeps v) : s.Keeps (wipe v a rows n f) :=
    State.Keeps.foldl _ hv (fun _ _ h => State.Keeps.foldl _ h (fun _ _ h' => State.putAcc_keeps h'))
  refine State.Keeps.ite h0 ?_
  have hv : s.Keeps v := State.Keeps.ite (hw _ _ _ _ _ (hw _ _ _ _ _ h0)) (hw _ _ _ _ _ h0)
  exact State.Keeps.foldl _ hv (fun _ _ h => State.Keeps.foldl _ h (fun _ _ h' => State.Keeps.ite (State.store_keeps h') h'))

theorem State.tokenDone_keeps {s t0 : State} {a1 a2 a3 a4 a5} (h0 : s.Keeps t0) :
    s.Keeps (State.tokenDone t0 a1 a2 a3 a4 a5) := by
  unfold State.tokenDone
  repeat' first | intro _ | (with_reducible first | assumption | apply State.bumpWrap_keeps | apply State.putGroup_keeps | refine State.Keeps.ite ?_ ?_) | split | extract_lets | dsimp -zeta only | (with_reducible refine State.Keeps.upd ?_)

theorem State.takeMxd_keeps {s t0 u : State} {a1 a2 a3 a4 a5} (h0 : s.Keeps t0) (e : State.takeMxd t0 a1 a2 a3 a4 a5 = some u) :
    s.Keeps u := by
  unfold State.takeMxd at e
  extract_lets d x spars v at e
  have hv : s.Keeps v := State.Keeps.ite (State.sense_keeps h0) h0
  clear_value d x spars v
  split at e
  · obtain rfl := Option.some.inj e
    exact State.wakeTile_keeps (State.tokenDone_keeps h0)
  split at e
  · obtain ⟨y, _, rfl⟩ := Option.map_eq_some_iff.mp e
    exact State.wakeTile_keeps (State.tokenDone_keeps (State.fenceHit_keeps (State.putMx_keeps h0)))
  split at e
  split at e
  · obtain ⟨y, _, rfl⟩ := Option.map_eq_some_iff.mp e
    exact State.wakeTile_keeps (State.tokenDone_keeps (State.putMx_keeps hv))
  split at e
  · obtain ⟨y, _, rfl⟩ := Option.map_eq_some_iff.mp e
    exact State.putMx_keeps hv
  split at e
  · cases e
  · split at e
    · obtain rfl := Option.some.inj e
      exact State.putMx_keeps hv
    · cases e

theorem State.serveMatrix_keeps {s t0 : State} {a1 a2} (h0 : s.Keeps t0) : s.Keeps (State.serveMatrix t0 a1 a2) := by
  unfold State.serveMatrix
  extract_lets a
  split
  · exact h0
  refine State.Keeps.ite h0 ?_
  extract_lets x
  split
  · exact State.Keeps.ite h0 (State.putAol_keeps h0)
  extract_lets rest more v out
  have hv : s.Keeps v := State.putMx_keeps h0
  have ho (u : State) (e : out = some u) : s.Keeps u := by
    dsimp only [out] at e
    split at e
    · exact State.takeMxd_keeps hv e
    · obtain ⟨y, _, rfl⟩ := Option.map_eq_some_iff.mp e
      exact State.putMx_keeps hv
    · cases e
  clear_value out
  split
  · exact State.putAol_keeps (ho _ rfl)
  · exact h0

theorem State.useBanks_keeps {s t0 : State} {a1} (h0 : s.Keeps t0) :
    s.Keeps (State.useBanks t0 a1) := by
  unfold State.useBanks
  repeat' first | intro _ | (with_reducible first | assumption | apply State.usePort_keeps) | dsimp -zeta only

theorem State.startJob_keeps {s t0 : State} {a1 a2 a3 a4} (h0 : s.Keeps t0) :
    s.Keeps (State.startJob t0 a1 a2 a3 a4) := by
  unfold State.startJob
  repeat' first | intro _ | (with_reducible first | assumption | apply State.putMx_keeps | apply State.senseCw_keeps | apply State.feedReq_keeps | apply State.useBanks_keeps | refine State.Keeps.ite ?_ ?_ | refine State.Keeps.ite_fst ?_ ?_ | refine State.Keeps.foldl _ ?_ (fun _ _ hv => ?_) | refine State.Keeps.foldl_fst _ ?_ (fun _ _ hv => ?_) | refine State.Keeps.fst_of ?_ (by assumption)) | split | extract_lets | dsimp -zeta only | (with_reducible refine State.Keeps.upd ?_)

theorem State.loadTile_keeps {s t0 : State} {a1 a2 a3} (h0 : s.Keeps t0) :
    s.Keeps (State.loadTile t0 a1 a2 a3) := by
  unfold State.loadTile
  repeat' first | intro _ | (with_reducible first | assumption | apply State.putMx_keeps | apply State.senseCw_keeps | apply State.useBanks_keeps | refine State.Keeps.ite ?_ ?_ | refine State.Keeps.foldl _ ?_ (fun _ _ hv => ?_)) | split | extract_lets | dsimp -zeta only | (with_reducible refine State.Keeps.upd ?_)

theorem State.finishReq_keeps {s t0 : State} {a1 a2 a3 a4 a5 a6} (h0 : s.Keeps t0) :
    s.Keeps (State.finishReq t0 a1 a2 a3 a4 a5 a6) := by
  unfold State.finishReq
  repeat' first | intro _ | (with_reducible first | assumption | apply State.exportReq_keeps | apply State.tornReq_keeps | apply State.tokenDone_keeps | refine State.Keeps.ite ?_ ?_ | refine State.Keeps.ite_fst ?_ ?_ | refine State.Keeps.fst_of ?_ (by assumption)) | split | extract_lets | dsimp -zeta only

theorem State.finishJob_keeps {s t0 : State} {a1 a2 a3 a4} (h0 : s.Keeps t0) :
    s.Keeps (State.finishJob t0 a1 a2 a3 a4) := by
  unfold State.finishJob
  repeat' first | intro _ | (with_reducible first | assumption | apply State.tock_keeps | apply State.putMx_keeps | apply State.wakeTile_keeps | apply State.finishReq_keeps | refine State.Keeps.ite ?_ ?_ | refine State.Keeps.ite_fst ?_ ?_ | refine State.Keeps.foldl _ ?_ (fun _ _ hv => ?_) | refine State.Keeps.foldl_fst _ ?_ (fun _ _ hv => ?_)) | split | extract_lets | dsimp -zeta only | (with_reducible refine State.Keeps.upd ?_)

theorem State.flushSlots_keeps {s t0 : State} {a1 a2} (h0 : s.Keeps t0) :
    s.Keeps (State.flushSlots t0 a1 a2) := by
  unfold State.flushSlots
  repeat' first | intro _ | (with_reducible first | assumption | apply State.putMx_keeps | refine State.Keeps.ite ?_ ?_ | refine State.Keeps.foldl _ ?_ (fun _ _ hv => ?_)) | split | dsimp -zeta only

theorem State.tieSpan_keeps {s t0 : State} {a1 a2 a3 a4 a5} (h0 : s.Keeps t0) :
    s.Keeps (State.tieSpan t0 a1 a2 a3 a4 a5) := by
  unfold State.tieSpan
  repeat' first | intro _ | (with_reducible first | assumption | apply State.bumpWrap_keeps | apply State.senseCw_keeps | apply State.merge_keeps | apply State.senseAcc_keeps | apply State.accSeen_keeps | apply State.feedGemm_keeps | apply State.poisonSpan_keeps | refine State.Keeps.ite ?_ ?_ | refine State.Keeps.ite_fst ?_ ?_ | refine State.Keeps.foldl _ ?_ (fun _ _ hv => ?_) | refine State.Keeps.foldl_fst _ ?_ (fun _ _ hv => ?_) | refine State.Keeps.fst_of ?_ (by assumption)) | split | extract_lets | dsimp -zeta only

theorem State.tieOne_keeps {s t0 : State} {a1 a2 a3} (h0 : s.Keeps t0) :
    s.Keeps (State.tieOne t0 a1 a2 a3) := by
  unfold State.tieOne
  repeat' first | intro _ | (with_reducible first | assumption | apply State.merge_keeps | apply State.fenceHit_keeps | apply State.tieSpan_keeps | refine State.Keeps.foldl _ ?_ (fun _ _ hv => ?_) | refine State.Keeps.foldl_fst _ ?_ (fun _ _ hv => ?_) | refine State.Keeps.fst_of ?_ (by assumption)) | split | extract_lets | dsimp -zeta only

theorem State.dmaServe_keeps {s t0 : State} {a1 a2} (h0 : s.Keeps t0) : s.Keeps (State.dmaServe t0 a1 a2) :=
  State.Keeps.foldl _ (State.dmaBeat_keeps h0) (fun _ _ hv => State.usePort_keeps hv)

theorem State.dmaBeats_keeps {s t0 : State} {a1 a2 a3} (h0 : s.Keeps t0) : s.Keeps (State.dmaBeats t0 a1 a2 a3).1 := by
  induction a3 generalizing t0 with
  | zero => exact h0
  | succ n ih =>
    rw [State.dmaBeats]
    exact State.Keeps.ite_fst (ih (State.dmaServe_keeps h0)) h0

theorem State.serveDma_keeps {s t0 : State} {a1 a2 a3} (h0 : s.Keeps t0) : s.Keeps (State.serveDma t0 a1 a2 a3) := by
  unfold State.serveDma
  dsimp only
  split
  · exact h0
  · exact State.putAol_keeps (State.dmaBeats_keeps h0)

theorem State.serveEntry_keeps {s t0 : State} {a1 a2 a3} (h0 : s.Keeps t0) : s.Keeps (State.serveEntry t0 a1 a2 a3) := by
  induction a3 generalizing t0 with
  | zero => exact h0
  | succ n ih =>
    rw [State.serveEntry]
    exact State.Keeps.ite (State.serveMatrix_keeps h0) (ih (State.serveMatrix_keeps h0))

theorem State.passIdle_keeps {s t0 : State} {a1} (h0 : s.Keeps t0) :
    s.Keeps (State.passIdle t0 a1) := by
  unfold State.passIdle
  repeat' first | intro _ | (with_reducible first | assumption | apply State.passEntry_keeps | refine State.Keeps.ite ?_ ?_ | refine State.Keeps.ite_fst ?_ ?_ | refine State.Keeps.fst_of ?_ (by assumption)) | split | dsimp -zeta only

theorem State.serveList_keeps {s t0 : State} {a1 a2} (h0 : s.Keeps t0) : s.Keeps (State.serveList t0 a1 a2) := by
  unfold State.serveList
  split
  · exact State.serveDma_keeps h0
  · exact State.serveDma_keeps h0
  · exact State.serveEntry_keeps h0
  · exact State.Keeps.ite (State.passIdle_keeps h0) (State.drainPipe_keeps h0)
  · exact State.passIdle_keeps h0

theorem State.setLevel_keeps {s t0 : State} {a1 a2 a3} (h0 : s.Keeps t0) :
    s.Keeps (State.setLevel t0 a1 a2 a3) := by
  unfold State.setLevel
  repeat' first | intro _ | (with_reducible first | assumption | apply State.wrF_keeps | apply State.bump_keeps | apply State.raiseOwner_keeps | refine State.Keeps.ite ?_ ?_) | split | extract_lets | dsimp -zeta only

theorem State.putHold_keeps {s t0 : State} {a1 a2} (h0 : s.Keeps t0) :
    s.Keeps (State.putHold t0 a1 a2) := by
  unfold State.putHold
  repeat' first | intro _ | (with_reducible first | assumption | apply State.wrF_keeps | refine State.Keeps.ite ?_ ?_) | split | dsimp -zeta only

theorem State.enterHold_keeps {s t0 : State} {a1} (h0 : s.Keeps t0) :
    s.Keeps (State.enterHold t0 a1) := by
  unfold State.enterHold
  repeat' first | intro _ | (with_reducible first | assumption | apply State.raise_keeps | apply State.putHold_keeps | refine State.Keeps.ite ?_ ?_) | split | dsimp -zeta only

theorem State.holdVault_keeps {s t0 : State} {a1 a2} (h0 : s.Keeps t0) :
    s.Keeps (State.holdVault t0 a1 a2) := by
  unfold State.holdVault
  repeat' first | intro _ | (with_reducible first | assumption | apply State.wrF_keeps | apply State.putVault_keeps | apply State.enterHold_keeps) | extract_lets | dsimp -zeta only | (with_reducible refine State.Keeps.upd ?_)

theorem State.leaveHold_keeps {s t0 : State} {a1} (h0 : s.Keeps t0) :
    s.Keeps (State.leaveHold t0 a1) := by
  unfold State.leaveHold
  repeat' first | intro _ | (with_reducible first | assumption | apply State.wrF_keeps | apply State.putVault_keeps | apply State.raise_keeps | apply State.setLevel_keeps | apply State.putHold_keeps | refine State.Keeps.ite ?_ ?_ | refine State.Keeps.foldl _ ?_ (fun _ _ hv => ?_)) | split | extract_lets | dsimp -zeta only | (with_reducible refine State.Keeps.upd ?_)

theorem State.noteJunction_keeps {s t0 : State} {a1 a2 a3} (h0 : s.Keeps t0) :
    s.Keeps (State.noteJunction t0 a1 a2 a3) := by
  unfold State.noteJunction
  repeat' first | intro _ | (with_reducible first | assumption | apply State.wrF_keeps | refine State.Keeps.foldl _ ?_ (fun _ _ hv => ?_)) | split | extract_lets | dsimp -zeta only | (with_reducible refine State.Keeps.upd ?_)

theorem State.mendFrameCw_keeps {s t0 : State} {a1 a2 a3 a4 a5 a6} (h0 : s.Keeps t0) :
    s.Keeps (State.mendFrameCw t0 a1 a2 a3 a4 a5 a6) := by
  unfold State.mendFrameCw
  repeat' first | intro _ | (with_reducible first | assumption | apply State.putPoison_keeps | apply State.wrF_keeps | apply State.bump_keeps | apply State.putVault_keeps | apply State.raiseOwner_keeps | apply State.countCorrected_keeps | refine State.Keeps.fst_of ?_ (by assumption)) | split | extract_lets | dsimp -zeta only

theorem State.mendSector_keeps {s t0 : State} {a1 a2 a3 a4 a5} (h0 : s.Keeps t0) :
    s.Keeps (State.mendSector t0 a1 a2 a3 a4 a5) := by
  unfold State.mendSector
  repeat' first | intro _ | (with_reducible first | assumption | apply State.mendCw_keeps | apply State.mendFrameCw_keeps | refine State.Keeps.ite ?_ ?_ | refine State.Keeps.foldl _ ?_ (fun _ _ hv => ?_)) | split | dsimp -zeta only

theorem State.scrubSector_keeps {s t0 : State} {a1 a2 a3 a4 a5} (h0 : s.Keeps t0) :
    s.Keeps (State.scrubSector t0 a1 a2 a3 a4 a5) := by
  unfold State.scrubSector
  repeat' first | intro _ | (with_reducible first | assumption | apply State.putVault_keeps | apply State.mendSector_keeps | refine State.Keeps.ite ?_ ?_ | refine State.Keeps.ite_fst ?_ ?_ | refine State.Keeps.fst_of ?_ (by assumption)) | split | extract_lets | dsimp -zeta only | (with_reducible refine State.Keeps.upd ?_)

theorem State.scrubStep_keeps {s t0 : State} {a1 a2 a3 a4} (h0 : s.Keeps t0) :
    s.Keeps (State.scrubStep t0 a1 a2 a3 a4) := by
  unfold State.scrubStep
  repeat' first | intro _ | (with_reducible first | assumption | apply State.wrF_keeps | apply State.putVault_keeps | apply State.scrubSector_keeps | refine State.Keeps.ite ?_ ?_ | refine State.Keeps.ite_fst ?_ ?_ | refine State.Keeps.foldl _ ?_ (fun _ _ hv => ?_) | refine State.Keeps.foldl_fst _ ?_ (fun _ _ hv => ?_)) | split | extract_lets | dsimp -zeta only | (with_reducible refine State.Keeps.upd ?_)

theorem State.refresh_keeps {s t0 : State} {a1 a2 a3 a4} (h0 : s.Keeps t0) :
    s.Keeps (State.refresh t0 a1 a2 a3 a4) := by
  unfold State.refresh
  repeat' first | intro _ | (with_reducible first | assumption | apply State.wrF_keeps | apply State.setLevel_keeps | apply State.holdVault_keeps | apply State.scrubStep_keeps | refine State.Keeps.ite ?_ ?_ | refine State.Keeps.ite_fst ?_ ?_ | refine State.Keeps.foldl _ ?_ (fun _ _ hv => ?_) | refine State.Keeps.foldl_fst _ ?_ (fun _ _ hv => ?_)) | split | extract_lets | dsimp -zeta only

theorem State.scrubStore_keeps {s t0 : State} {a1 a2 a3} (h0 : s.Keeps t0) :
    s.Keeps (State.scrubStore t0 a1 a2 a3) := by
  unfold State.scrubStore
  repeat' first | intro _ | (with_reducible first | assumption | apply State.wrF_keeps | apply State.mendCw_keeps | refine State.Keeps.ite ?_ ?_ | refine State.Keeps.foldl _ ?_ (fun _ _ hv => ?_)) | split | extract_lets | dsimp -zeta only | (with_reducible refine State.Keeps.upd ?_)

theorem State.startShort_keeps {s t0 : State} {a1 a2 a3} (h0 : s.Keeps t0) :
    s.Keeps (State.startShort t0 a1 a2 a3) := by
  unfold State.startShort
  repeat' first | intro _ | (with_reducible first | assumption | apply State.wrF_keeps | apply State.putVault_keeps | apply State.raiseOwner_keeps) | extract_lets | dsimp -zeta only | (with_reducible refine State.Keeps.upd ?_)

theorem State.needsLong_keeps {s t0 : State} {a1 a2 a3} (h0 : s.Keeps t0) :
    s.Keeps (State.needsLong t0 a1 a2 a3) := by
  unfold State.needsLong
  repeat' first | intro _ | (with_reducible first | assumption | apply State.wrF_keeps | apply State.raiseOwner_keeps) | dsimp -zeta only

theorem State.copyRow_keeps {s t0 : State} {a1 a2 a3 a4 a5 a6} (h0 : s.Keeps t0) :
    s.Keeps (State.copyRow t0 a1 a2 a3 a4 a5 a6) := by
  unfold State.copyRow
  repeat' first | intro _ | (with_reducible first | assumption | apply State.mendSector_keeps | refine State.Keeps.foldl _ ?_ (fun _ _ hv => ?_)) | split | dsimp -zeta only

theorem State.showSlots_keeps {s t0 : State} {a1 a2} (h0 : s.Keeps t0) :
    s.Keeps (State.showSlots t0 a1 a2) := by
  unfold State.showSlots
  repeat' first | intro _ | (with_reducible first | assumption | apply State.wrF_keeps | refine State.Keeps.ite ?_ ?_ | refine State.Keeps.foldl _ ?_ (fun _ _ hv => ?_)) | split | extract_lets | dsimp -zeta only

theorem State.switchSlot_keeps {s t0 : State} {a1 a2 a3 a4} (h0 : s.Keeps t0) :
    s.Keeps (State.switchSlot t0 a1 a2 a3 a4) := by
  unfold State.switchSlot
  repeat' first | intro _ | (with_reducible first | assumption | apply State.putSlot_keeps | apply State.raiseOwner_keeps | apply State.showSlots_keeps | refine State.Keeps.ite ?_ ?_ | refine State.Keeps.foldl _ ?_ (fun _ _ hv => ?_)) | split | extract_lets | dsimp -zeta only | (with_reducible refine State.Keeps.upd ?_)

theorem State.poisonSlot_keeps {s t0 : State} {a1 a2 a3} (h0 : s.Keeps t0) :
    s.Keeps (State.poisonSlot t0 a1 a2 a3) := by
  unfold State.poisonSlot
  repeat' first | intro _ | (with_reducible first | assumption | apply State.putPoison_keeps | refine State.Keeps.foldl _ ?_ (fun _ _ hv => ?_) | refine State.Keeps.foldl_fst _ ?_ (fun _ _ hv => ?_) | refine State.Keeps.fst_of ?_ (by assumption)) | split | dsimp -zeta only

theorem State.slotPair_keeps {s t0 : State} {a1 a2 a3} (h0 : s.Keeps t0) :
    s.Keeps (State.slotPair t0 a1 a2 a3) := by
  unfold State.slotPair
  repeat' first | intro _ | (with_reducible first | assumption | apply State.wrF_keeps | apply State.putVault_keeps | apply State.raiseOwner_keeps | apply State.switchSlot_keeps | apply State.poisonSlot_keeps | refine State.Keeps.ite ?_ ?_ | refine State.Keeps.ite_fst ?_ ?_ | refine State.Keeps.fst_of ?_ (by assumption)) | split | extract_lets | dsimp -zeta only | (with_reducible refine State.Keeps.upd ?_)

theorem State.copySlot_keeps {s t0 : State} {a1 a2 a3 a4} (h0 : s.Keeps t0) :
    s.Keeps (State.copySlot t0 a1 a2 a3 a4) := by
  unfold State.copySlot
  repeat' first | intro _ | (with_reducible first | assumption | apply State.mendCw_keeps | refine State.Keeps.ite ?_ ?_ | refine State.Keeps.ite_fst ?_ ?_ | refine State.Keeps.foldl _ ?_ (fun _ _ hv => ?_) | refine State.Keeps.foldl_fst _ ?_ (fun _ _ hv => ?_)) | split | dsimp -zeta only

theorem State.stopCopies_keeps {s t0 : State} (h0 : s.Keeps t0) :
    s.Keeps (State.stopCopies t0) := by
  unfold State.stopCopies
  repeat' first | intro _ | (with_reducible first | assumption | refine State.Keeps.foldl _ ?_ (fun _ _ hv => ?_) | refine State.Keeps.foldl_fst _ ?_ (fun _ _ hv => ?_)) | split | dsimp -zeta only | (with_reducible refine State.Keeps.upd ?_)

theorem State.respond_keeps {s t0 : State} {a1 a2 a3 a4} (h0 : s.Keeps t0) :
    s.Keeps (State.respond t0 a1 a2 a3 a4) := by
  unfold State.respond
  repeat' first | intro _ | (with_reducible first | assumption | apply State.sendLink_keeps | refine State.Keeps.fst_of ?_ (by assumption)) | split | extract_lets | dsimp -zeta only

theorem State.replyTo_keeps {s t0 : State} {a1 a2 a3} (h0 : s.Keeps t0) :
    s.Keeps (State.replyTo t0 a1 a2 a3) := by
  unfold State.replyTo
  repeat' first | intro _ | (with_reducible first | assumption | apply State.depart_keeps | apply State.finishThread_keeps | refine State.Keeps.ite ?_ ?_) | split | dsimp -zeta only

theorem State.completeAccess_keeps {s t0 : State} {a1 a2 a3} (h0 : s.Keeps t0) :
    s.Keeps (State.completeAccess t0 a1 a2 a3) := by
  unfold State.completeAccess
  repeat' first | intro _ | (with_reducible first | assumption | apply State.respond_keeps | apply State.replyTo_keeps | refine State.Keeps.fst_of ?_ (by assumption)) | split | dsimp -zeta only

theorem State.applyNow_keeps {s t0 : State} {a1 a2} (h0 : s.Keeps t0) : s.Keeps (State.applyNow t0 a1 a2) := by
  unfold State.applyNow
  split
  rename_i v r he
  have hv : s.Keeps v := State.Keeps.fst_of (State.applyHome_keeps h0) he
  extract_lets w x
  have hw : s.Keeps w := State.Keeps.ite (State.retireLine_keeps hv) hv
  refine State.completeAccess_keeps ?_
  dsimp only [x]
  split
  · exact State.wakeTile_keeps hw
  · exact hw

theorem State.serveHome_keeps {s t0 : State} {a1 a2} (h0 : s.Keeps t0) :
    s.Keeps (State.serveHome t0 a1 a2) := by
  unfold State.serveHome
  repeat' first | intro _ | (with_reducible first | assumption | apply State.usePort_keeps | apply State.applyNow_keeps | refine State.Keeps.ite ?_ ?_ | refine State.Keeps.ite_fst ?_ ?_ | refine State.Keeps.fst_of ?_ (by assumption)) | split | extract_lets | dsimp -zeta only | (with_reducible refine State.Keeps.upd ?_)

theorem State.wayFor_keeps {s t0 : State} {a1 a2} (h0 : s.Keeps t0) :
    s.Keeps (State.wayFor t0 a1 a2).1 := by
  unfold State.wayFor
  repeat' first | intro _ | (with_reducible first | assumption | apply State.allocate_keeps | apply State.touchLine_keeps | refine State.Keeps.ite ?_ ?_ | refine State.Keeps.ite_fst ?_ ?_ | refine State.Keeps.fst_of ?_ (by assumption)) | split | dsimp -zeta only

theorem State.serveSlice_keeps {s t0 : State} {a1 a2 a3} (h0 : s.Keeps t0) :
    s.Keeps (State.serveSlice t0 a1 a2 a3) := by
  unfold State.serveSlice
  repeat' first | intro _ | (with_reducible first | assumption | apply State.retireLine_keeps | apply State.lineApply_keeps | apply State.completeAccess_keeps | apply State.wayFor_keeps | refine State.Keeps.ite ?_ ?_ | refine State.Keeps.ite_fst ?_ ?_ | refine State.Keeps.fst_of ?_ (by assumption)) | split | extract_lets | dsimp -zeta only | (with_reducible refine State.Keeps.upd ?_)

theorem State.fillAccess_keeps {s t0 : State} {a1 a2 a3} (h0 : s.Keeps t0) :
    s.Keeps (State.fillAccess t0 a1 a2 a3) := by
  unfold State.fillAccess
  repeat' first | intro _ | (with_reducible first | assumption | apply State.usePort_keeps | apply State.fillFor_keeps | apply State.wayFor_keeps | refine State.Keeps.ite ?_ ?_ | refine State.Keeps.ite_fst ?_ ?_ | refine State.Keeps.fst_of ?_ (by assumption)) | split | extract_lets | dsimp -zeta only

theorem State.putPin_keeps {s t0 : State} {a1 a2 a3} (h0 : s.Keeps t0) :
    s.Keeps (State.putPin t0 a1 a2 a3) := by
  unfold State.putPin
  repeat' first | intro _ | (with_reducible first | assumption | apply State.putHalf_keeps) | extract_lets | dsimp -zeta only | (with_reducible refine State.Keeps.upd ?_)

theorem State.releaseRange_keeps {s t0 : State} {a1 a2 a3 a4} (h0 : s.Keeps t0) :
    s.Keeps (State.releaseRange t0 a1 a2 a3 a4) := by
  unfold State.releaseRange
  repeat' first | intro _ | (with_reducible first | assumption | apply State.evict_keeps | refine State.Keeps.foldl _ ?_ (fun _ _ hv => ?_)) | split | dsimp -zeta only

theorem State.reserveWays_keeps {s t0 : State} {a1 a2} (h0 : s.Keeps t0) :
    s.Keeps (State.reserveWays t0 a1 a2) := by
  unfold State.reserveWays
  repeat' first | intro _ | (with_reducible first | assumption | apply State.putLine_keeps | apply State.evict_keeps | refine State.Keeps.foldl _ ?_ (fun _ _ hv => ?_) | refine State.Keeps.foldl_fst _ ?_ (fun _ _ hv => ?_) | refine State.Keeps.fst_of ?_ (by assumption)) | split | extract_lets | dsimp -zeta only | (with_reducible refine State.Keeps.upd ?_)

theorem State.pinWrite_keeps {s t0 : State} {a1 a2 a3 a4 a5 a6} (h0 : s.Keeps t0) :
    s.Keeps (State.pinWrite t0 a1 a2 a3 a4 a5 a6).1 := by
  unfold State.pinWrite
  repeat' first | intro _ | (with_reducible first | assumption | apply State.putPin_keeps | apply State.releaseRange_keeps | apply State.reserveWays_keeps | refine State.Keeps.ite ?_ ?_ | refine State.Keeps.ite_fst ?_ ?_ | refine State.Keeps.fst_of ?_ (by assumption)) | split | extract_lets | dsimp -zeta only | (with_reducible refine State.Keeps.upd ?_)

theorem State.fillRange_keeps {s t0 : State} {a1 a2 a3 a4} (h0 : s.Keeps t0) :
    s.Keeps (State.fillRange t0 a1 a2 a3 a4) := by
  unfold State.fillRange
  repeat' first | intro _ | (with_reducible first | assumption | apply State.fillFor_keeps | apply State.allocate_keeps | refine State.Keeps.foldl _ ?_ (fun _ _ hv => ?_) | refine State.Keeps.foldl_fst _ ?_ (fun _ _ hv => ?_) | refine State.Keeps.fst_of ?_ (by assumption)) | split | extract_lets | dsimp -zeta only

theorem State.startCacheOp_keeps {s t0 : State} {a1 a2 a3 a4 a5} (h0 : s.Keeps t0) :
    s.Keeps (State.startCacheOp t0 a1 a2 a3 a4 a5).1 := by
  unfold State.startCacheOp
  repeat' first | intro _ | (with_reducible first | assumption | apply State.wrF_keeps | apply State.putHalf_keeps | refine State.Keeps.ite ?_ ?_ | refine State.Keeps.ite_fst ?_ ?_) | split | dsimp -zeta only | (with_reducible refine State.Keeps.upd ?_)

theorem State.startBothOps_keeps {s t0 : State} {a1 a2 a3 a4} (h0 : s.Keeps t0) :
    s.Keeps (State.startBothOps t0 a1 a2 a3 a4).1 :=
  State.Keeps.ite_fst (State.putHalf_keeps (State.putHalf_keeps (State.startCacheOp_keeps (State.startCacheOp_keeps h0))))
    (State.startCacheOp_keeps (State.startCacheOp_keeps h0))

theorem State.cleanLine_keeps {s t0 : State} {a1 a2 a3} (h0 : s.Keeps t0) :
    s.Keeps (State.cleanLine t0 a1 a2 a3) := by
  unfold State.cleanLine
  repeat' first | intro _ | (with_reducible first | assumption | apply State.putLine_keeps | apply State.writeBack_keeps | refine State.Keeps.ite ?_ ?_ | refine State.Keeps.ite_fst ?_ ?_ | refine State.Keeps.fst_of ?_ (by assumption)) | split | extract_lets | dsimp -zeta only | (with_reducible refine State.Keeps.upd ?_)

theorem State.rgnResult_keeps {s t0 : State} {a1} (h0 : s.Keeps t0) :
    s.Keeps (State.rgnResult t0 a1) := by
  unfold State.rgnResult
  repeat' first | intro _ | (with_reducible first | assumption | apply State.wrF_keeps) | dsimp -zeta only

theorem State.commitRegion_keeps {s t0 : State} {a1 a2} (h0 : s.Keeps t0) :
    s.Keeps (State.commitRegion t0 a1 a2).1 := by
  unfold State.commitRegion
  repeat' first | intro _ | (with_reducible first | assumption | apply State.putRegion_keeps | apply State.rgnResult_keeps | refine State.Keeps.fst_of ?_ (by assumption)) | split | dsimp -zeta only

theorem State.rgnPair_keeps {s t0 : State} {a1} (h0 : s.Keeps t0) :
    s.Keeps (State.rgnPair t0 a1) := by
  unfold State.rgnPair
  repeat' first | intro _ | (with_reducible first | assumption | apply State.wr_keeps | apply State.commitRegion_keeps | refine State.Keeps.fst_of ?_ (by assumption)) | split | extract_lets | dsimp -zeta only

theorem State.flipPair_keeps {s t0 : State} {a1} (h0 : s.Keeps t0) :
    s.Keeps (State.flipPair t0 a1) := by
  unfold State.flipPair
  repeat' first | intro _ | (with_reducible first | assumption | apply State.wr_keeps | apply State.putRegion_keeps | apply State.rgnResult_keeps | refine State.Keeps.ite ?_ ?_) | split | extract_lets | dsimp -zeta only | (with_reducible refine State.Keeps.upd ?_)

theorem State.kmapPair_keeps {s t0 : State} {a1} (h0 : s.Keeps t0) :
    s.Keeps (State.kmapPair t0 a1) := by
  unfold State.kmapPair
  repeat' first | intro _ | (with_reducible first | assumption | apply State.wr_keeps | apply State.putKmap_keeps) | extract_lets | dsimp -zeta only

theorem State.routePair_keeps {s t0 : State} {a1} (h0 : s.Keeps t0) :
    s.Keeps (State.routePair t0 a1) := by
  unfold State.routePair
  repeat' first | intro _ | (with_reducible first | assumption) | dsimp -zeta only | (with_reducible refine State.Keeps.upd ?_)

theorem State.moveFlits_keeps {s t0 : State} {a1 a2 a3} (h0 : s.Keeps t0) :
    s.Keeps (State.moveFlits t0 a1 a2 a3) := by
  unfold State.moveFlits
  repeat' first | intro _ | (with_reducible first | assumption | apply State.putLink_keeps) | split | extract_lets | dsimp -zeta only | (with_reducible refine State.Keeps.upd ?_)

theorem State.remapPair_keeps {s t0 : State} {a1 a2} (h0 : s.Keeps t0) :
    s.Keeps (State.remapPair t0 a1 a2) := by
  unfold State.remapPair
  repeat' first | intro _ | (with_reducible first | assumption | apply State.wrF_keeps | apply State.moveFlits_keeps | refine State.Keeps.ite ?_ ?_ | refine State.Keeps.foldl _ ?_ (fun _ _ hv => ?_)) | split | extract_lets | dsimp -zeta only

theorem State.stopGroups_keeps {s t0 : State} {a1} (h0 : s.Keeps t0) :
    s.Keeps (State.stopGroups t0 a1) := by
  unfold State.stopGroups
  repeat' first | intro _ | (with_reducible first | assumption | apply State.putGroup_keeps | apply State.dropGroup_keeps | refine State.Keeps.foldl _ ?_ (fun _ _ hv => ?_)) | split | extract_lets | dsimp -zeta only

theorem State.flushKernel_keeps {s t0 : State} {a1} (h0 : s.Keeps t0) :
    s.Keeps (State.flushKernel t0 a1) := by
  unfold State.flushKernel
  repeat' first | intro _ | (with_reducible first | assumption | apply State.flushSlots_keeps | refine State.Keeps.foldl _ ?_ (fun _ _ hv => ?_)) | split | dsimp -zeta only

theorem State.abortKernel_keeps {s t0 : State} {a1} (h0 : s.Keeps t0) :
    s.Keeps (State.abortKernel t0 a1) := by
  unfold State.abortKernel
  repeat' first | intro _ | (with_reducible first | assumption | apply State.stopGroups_keeps | apply State.flushKernel_keeps | refine State.Keeps.fst_of ?_ (by assumption)) | split | extract_lets | dsimp -zeta only | (with_reducible refine State.Keeps.upd ?_)

theorem State.endKernel_keeps {s t0 : State} {a1 a2 a3} (h0 : s.Keeps t0) :
    s.Keeps (State.endKernel t0 a1 a2 a3) := by
  unfold State.endKernel
  repeat' first | intro _ | (with_reducible first | assumption | apply State.putGroup_keeps | apply State.ringDoneOp_keeps | apply State.purgeGroup_keeps | refine State.Keeps.foldl _ ?_ (fun _ _ hv => ?_)) | split | extract_lets | dsimp -zeta only | (with_reducible refine State.Keeps.upd ?_)

theorem State.tearDma_keeps {s t0 : State} {a1} (h0 : s.Keeps t0) :
    s.Keeps (State.tearDma t0 a1) := by
  unfold State.tearDma
  repeat' first | intro _ | (with_reducible first | assumption | apply State.dmaFinish_keeps | refine State.Keeps.fst_of ?_ (by assumption)) | split | extract_lets | dsimp -zeta only | (with_reducible refine State.Keeps.upd ?_)

theorem State.tearMatrix_keeps {s t0 : State} {a1} (h0 : s.Keeps t0) :
    s.Keeps (State.tearMatrix t0 a1) := by
  unfold State.tearMatrix
  repeat' first | intro _ | (with_reducible first | assumption | apply State.tock_keeps | apply State.putMx_keeps | apply State.issue_keeps | apply State.tornReq_keeps | apply State.tokenDone_keeps | refine State.Keeps.ite ?_ ?_ | refine State.Keeps.ite_fst ?_ ?_ | refine State.Keeps.foldl _ ?_ (fun _ _ hv => ?_) | refine State.Keeps.foldl_fst _ ?_ (fun _ _ hv => ?_) | refine State.Keeps.fst_of ?_ (by assumption)) | split | extract_lets | dsimp -zeta only | (with_reducible refine State.Keeps.upd ?_)

theorem State.tearAccesses_keeps {s t0 : State} {a1} (h0 : s.Keeps t0) :
    s.Keeps (State.tearAccesses t0 a1) := by
  unfold State.tearAccesses
  repeat' first | intro _ | (with_reducible first | assumption | apply State.finishThread_keeps | refine State.Keeps.ite ?_ ?_ | refine State.Keeps.foldl _ ?_ (fun _ _ hv => ?_)) | split | extract_lets | dsimp -zeta only | (with_reducible refine State.Keeps.upd ?_)

theorem State.tearPart_keeps {s t0 : State} {a1} (h0 : s.Keeps t0) :
    s.Keeps (State.tearPart t0 a1) := by
  unfold State.tearPart
  repeat' first | intro _ | (with_reducible first | assumption | apply State.stopGroups_keeps | apply State.endKernel_keeps | apply State.tearDma_keeps | apply State.tearMatrix_keeps | apply State.tearAccesses_keeps | refine State.Keeps.foldl _ ?_ (fun _ _ hv => ?_) | refine State.Keeps.foldl_fst _ ?_ (fun _ _ hv => ?_)) | split | extract_lets | dsimp -zeta only

theorem State.putChan_keeps {s t0 : State} {a1 a2 a3} (h0 : s.Keeps t0) :
    s.Keeps (State.putChan t0 a1 a2 a3) := by
  unfold State.putChan
  repeat' first | intro _ | (with_reducible first | assumption) | dsimp -zeta only | (with_reducible refine State.Keeps.upd ?_)

theorem State.resetChans_keeps {s t0 : State} {a1} (h0 : s.Keeps t0) :
    s.Keeps (State.resetChans t0 a1) := by
  unfold State.resetChans
  repeat' first | intro _ | (with_reducible first | assumption | apply State.wr_keeps | apply State.wrF_keeps | apply State.putChan_keeps | refine State.Keeps.foldl _ ?_ (fun _ _ hv => ?_)) | split | dsimp -zeta only | (with_reducible refine State.Keeps.upd ?_)

theorem State.chanStore_keeps {s t0 : State} {a1 a2 a3 a4} (h0 : s.Keeps t0) :
    s.Keeps (State.chanStore t0 a1 a2 a3 a4) := by
  unfold State.chanStore
  repeat' first | intro _ | (with_reducible first | assumption | apply State.store_keeps | apply State.accessNow_keeps | refine State.Keeps.ite ?_ ?_ | refine State.Keeps.ite_fst ?_ ?_) | split | extract_lets | dsimp -zeta only

theorem State.chanLoad_keeps {s t0 : State} {a1 a2 a3} (h0 : s.Keeps t0) :
    s.Keeps (State.chanLoad t0 a1 a2 a3).1 := by
  unfold State.chanLoad
  split
  rename_i v l x he
  exact State.Keeps.fst_of (State.readUnits_keeps h0) he

theorem State.contribute_keeps {s t0 : State} {a1 a2 a3 a4 a5 a6} (h0 : s.Keeps t0) :
    s.Keeps (State.contribute t0 a1 a2 a3 a4 a5 a6).1 := by
  unfold State.contribute
  split
  rename_i l_s1 l_gs he_1
  try have h_s1 : s.Keeps l_s1 := State.Keeps.fst_of (by (repeat' first | intro _ | (with_reducible first | assumption | apply State.tock_keeps | apply State.chanStore_keeps | apply State.chanLoad_keeps | refine State.Keeps.ite ?_ ?_ | refine State.Keeps.ite_fst ?_ ?_ | refine State.Keeps.fst_of ?_ (by assumption)) | split | extract_lets | dsimp -zeta only)) he_1
  split
  rename_i l_s2 l_es he_3
  try have h_s2 : s.Keeps l_s2 := State.Keeps.fst_of (by (repeat' first | intro _ | (with_reducible first | assumption | apply State.tock_keeps | apply State.chanStore_keeps | apply State.chanLoad_keeps | refine State.Keeps.ite ?_ ?_ | refine State.Keeps.ite_fst ?_ ?_ | refine State.Keeps.fst_of ?_ (by assumption)) | split | extract_lets | dsimp -zeta only)) he_3
  extract_lets l_sh
  try (have h_sh : s.Keeps l_sh := by (repeat' first | intro _ | (with_reducible first | assumption | apply State.tock_keeps | apply State.chanStore_keeps | apply State.chanLoad_keeps | refine State.Keeps.ite ?_ ?_ | refine State.Keeps.ite_fst ?_ ?_ | refine State.Keeps.fst_of ?_ (by assumption)) | split | extract_lets | dsimp -zeta only))
  try clear_value l_sh
  split
  rename_i l_seed l_epoch he_5
  try have h_seed : s.Keeps l_seed := State.Keeps.fst_of (by (repeat' first | intro _ | (with_reducible first | assumption | apply State.tock_keeps | apply State.chanStore_keeps | apply State.chanLoad_keeps | refine State.Keeps.ite ?_ ?_ | refine State.Keeps.ite_fst ?_ ?_ | refine State.Keeps.fst_of ?_ (by assumption)) | split | extract_lets | dsimp -zeta only)) he_5
  extract_lets l_vs l_qs l_bad l_sums l_w1 l_e'
  try (have h_vs : s.Keeps l_vs := by (repeat' first | intro _ | (with_reducible first | assumption | apply State.tock_keeps | apply State.chanStore_keeps | apply State.chanLoad_keeps | refine State.Keeps.ite ?_ ?_ | refine State.Keeps.ite_fst ?_ ?_ | refine State.Keeps.fst_of ?_ (by assumption)) | split | extract_lets | dsimp -zeta only))
  try clear_value l_vs
  try (have h_qs : s.Keeps l_qs := by (repeat' first | intro _ | (with_reducible first | assumption | apply State.tock_keeps | apply State.chanStore_keeps | apply State.chanLoad_keeps | refine State.Keeps.ite ?_ ?_ | refine State.Keeps.ite_fst ?_ ?_ | refine State.Keeps.fst_of ?_ (by assumption)) | split | extract_lets | dsimp -zeta only))
  try clear_value l_qs
  try (have h_bad : s.Keeps l_bad := by (repeat' first | intro _ | (with_reducible first | assumption | apply State.tock_keeps | apply State.chanStore_keeps | apply State.chanLoad_keeps | refine State.Keeps.ite ?_ ?_ | refine State.Keeps.ite_fst ?_ ?_ | refine State.Keeps.fst_of ?_ (by assumption)) | split | extract_lets | dsimp -zeta only))
  try clear_value l_bad
  try (have h_sums : s.Keeps l_sums := by (repeat' first | intro _ | (with_reducible first | assumption | apply State.tock_keeps | apply State.chanStore_keeps | apply State.chanLoad_keeps | refine State.Keeps.ite ?_ ?_ | refine State.Keeps.ite_fst ?_ ?_ | refine State.Keeps.fst_of ?_ (by assumption)) | split | extract_lets | dsimp -zeta only))
  try clear_value l_sums
  try (have h_w1 : s.Keeps l_w1 := by (repeat' first | intro _ | (with_reducible first | assumption | apply State.tock_keeps | apply State.chanStore_keeps | apply State.chanLoad_keeps | refine State.Keeps.ite ?_ ?_ | refine State.Keeps.ite_fst ?_ ?_ | refine State.Keeps.fst_of ?_ (by assumption)) | split | extract_lets | dsimp -zeta only))
  try clear_value l_w1
  try (have h_e' : s.Keeps l_e' := by (repeat' first | intro _ | (with_reducible first | assumption | apply State.tock_keeps | apply State.chanStore_keeps | apply State.chanLoad_keeps | refine State.Keeps.ite ?_ ?_ | refine State.Keeps.ite_fst ?_ ?_ | refine State.Keeps.fst_of ?_ (by assumption)) | split | extract_lets | dsimp -zeta only))
  try clear_value l_e'
  repeat' first | intro _ | (with_reducible first | assumption | apply State.tock_keeps | apply State.chanStore_keeps | apply State.chanLoad_keeps | refine State.Keeps.ite ?_ ?_ | refine State.Keeps.ite_fst ?_ ?_ | refine State.Keeps.fst_of ?_ (by assumption)) | split | extract_lets | dsimp -zeta only

theorem State.countAdd_keeps {s t0 : State} {a1 a2} (h0 : s.Keeps t0) :
    s.Keeps (State.countAdd t0 a1 a2) := by
  unfold State.countAdd
  repeat' first | intro _ | (with_reducible first | assumption | apply State.bump_keeps | apply State.bumpWrap_keeps | apply State.putLink_keeps | refine State.Keeps.ite ?_ ?_) | split | extract_lets | dsimp -zeta only | (with_reducible refine State.Keeps.upd ?_)

theorem State.sendRing_keeps {s t0 : State} {a1 a2 a3 a4} (h0 : s.Keeps t0) :
    s.Keeps (State.sendRing t0 a1 a2 a3 a4) := by
  unfold State.sendRing
  repeat' first | intro _ | (with_reducible first | assumption | apply State.enqueue_keeps) | dsimp -zeta only

theorem State.writeOut_keeps {s t0 : State} {a1 a2 a3 a4 a5} (h0 : s.Keeps t0) :
    s.Keeps (State.writeOut t0 a1 a2 a3 a4 a5) := by
  unfold State.writeOut
  extract_lets cs v
  have hv : s.Keeps v := State.chanStore_keeps h0
  refine State.Keeps.ite ?_ hv
  extract_lets sh
  split
  rename_i w l x he
  exact State.chanStore_keeps (State.Keeps.fst_of (State.readUnits_keeps hv) he)

theorem State.chanComplete_keeps {s t0 : State} {a1 a2 a3 a4} (h0 : s.Keeps t0) :
    s.Keeps (State.chanComplete t0 a1 a2 a3 a4) := by
  unfold State.chanComplete
  repeat' first | intro _ | (with_reducible first | assumption | apply State.tock_keeps | apply State.wrF_keeps | apply State.sendEvent_keeps | apply State.putChan_keeps | apply State.chanStore_keeps | refine State.Keeps.ite ?_ ?_) | split | extract_lets | dsimp -zeta only | (with_reducible refine State.Keeps.upd ?_)

theorem State.chanEnd_keeps {s t0 : State} {a1 a2 a3} (h0 : s.Keeps t0) :
    s.Keeps (State.chanEnd t0 a1 a2 a3) := by
  unfold State.chanEnd
  repeat' first | intro _ | (with_reducible first | assumption | apply State.chanComplete_keeps | refine State.Keeps.ite ?_ ?_) | split | extract_lets | dsimp -zeta only

theorem State.blocksDone_keeps {s t0 : State} {a1 a2 a3 a4} (h0 : s.Keeps t0) :
    s.Keeps (State.blocksDone t0 a1 a2 a3 a4) := by
  unfold State.blocksDone
  repeat' first | intro _ | (with_reducible first | assumption | apply State.bump_keeps | apply State.putChan_keeps | apply State.chanEnd_keeps | refine State.Keeps.ite ?_ ?_) | split | extract_lets | dsimp -zeta only | (with_reducible refine State.Keeps.upd ?_)

theorem State.finalBlocks_keeps {s t0 : State} {a1 a2 a3 a4 a5} (h0 : s.Keeps t0) :
    s.Keeps (State.finalBlocks t0 a1 a2 a3 a4 a5) := by
  unfold State.finalBlocks
  repeat' first | intro _ | (with_reducible first | assumption | apply State.wrF_keeps | apply State.putChan_keeps | apply State.writeOut_keeps | apply State.blocksDone_keeps | refine State.Keeps.foldl _ ?_ (fun _ _ hv => ?_) | refine State.Keeps.foldl_fst _ ?_ (fun _ _ hv => ?_)) | split | extract_lets | dsimp -zeta only | (with_reducible refine State.Keeps.upd ?_)

theorem State.sendAll_keeps {s t0 : State} {a1 a2 a3} (h0 : s.Keeps t0) :
    s.Keeps (State.sendAll t0 a1 a2 a3) := by
  unfold State.sendAll
  repeat' first | intro _ | (with_reducible first | assumption | apply State.sendRing_keeps | refine State.Keeps.foldl _ ?_ (fun _ _ hv => ?_)) | split | dsimp -zeta only

theorem State.ownBlocks_keeps {s t0 : State} {a1 a2 a3 a4 a5} (h0 : s.Keeps t0) :
    s.Keeps (State.ownBlocks t0 a1 a2 a3 a4 a5) := by
  unfold State.ownBlocks
  repeat' first | intro _ | (with_reducible first | assumption | apply State.wrF_keeps | apply State.bump_keeps | apply State.putChan_keeps | apply State.sendRing_keeps | apply State.finalBlocks_keeps | apply State.sendAll_keeps | refine State.Keeps.ite ?_ ?_ | refine State.Keeps.ite_fst ?_ ?_ | refine State.Keeps.foldl _ ?_ (fun _ _ hv => ?_) | refine State.Keeps.foldl_fst _ ?_ (fun _ _ hv => ?_)) | split | extract_lets | dsimp -zeta only | (with_reducible refine State.Keeps.upd ?_)

theorem State.addBlock_keeps {s : State} {a0 a1 a2 a3 a4 a6} {q : State × List (Nat × WireBlock)} (h : s.Keeps q.1) :
    s.Keeps (State.addBlock a0 a1 a2 a3 a4 q a6).1 := by
  unfold State.addBlock
  exact State.Keeps.ite_fst (State.Keeps.mk_fst h) (State.Keeps.mk_fst (State.countAdd_keeps (State.contribute_keeps h)))

theorem State.addFlit_keeps {s t0 : State} {a1 a2 a3 a4} (h0 : s.Keeps t0) :
    s.Keeps (State.addFlit t0 a1 a2 a3 a4) := by
  unfold State.addFlit
  extract_lets x d rerun k q v out sel y fresh w
  have hv : s.Keeps v := State.Keeps.foldl_fst _ h0 (fun _ _ hv => State.addBlock_keeps hv)
  have hw : s.Keeps w := State.Keeps.ite (State.wrF_keeps (State.bump_keeps (State.putChan_keeps hv))) hv
  exact State.Keeps.ite (State.ownBlocks_keeps hw) (State.sendRing_keeps hw)

theorem State.holdBody_keeps {s t0 : State} {a1 a2 a3} (h0 : s.Keeps t0) :
    s.Keeps (State.holdBody t0 a1 a2 a3) := by
  unfold State.holdBody
  repeat' first | intro _ | (with_reducible first | assumption | apply State.putChan_keeps) | dsimp -zeta only | (with_reducible refine State.Keeps.upd ?_)

theorem State.reduceAt_keeps {s t0 : State} {a1 a2 a3 a4} (h0 : s.Keeps t0) :
    s.Keeps (State.reduceAt t0 a1 a2 a3 a4) := by
  unfold State.reduceAt
  repeat' first | intro _ | (with_reducible first | assumption | apply State.sendRing_keeps | apply State.finalBlocks_keeps | apply State.addFlit_keeps | apply State.holdBody_keeps | refine State.Keeps.ite ?_ ?_ | refine State.Keeps.ite_fst ?_ ?_) | split | extract_lets | dsimp -zeta only

theorem State.retryReduce_keeps {s t0 : State} {a1 a2 a3} (h0 : s.Keeps t0) :
    s.Keeps (State.retryReduce t0 a1 a2 a3) := by
  unfold State.retryReduce
  repeat' first | intro _ | (with_reducible first | assumption | apply State.putChan_keeps | apply State.reduceAt_keeps | refine State.Keeps.foldl _ ?_ (fun _ _ hv => ?_) | refine State.Keeps.foldl_fst _ ?_ (fun _ _ hv => ?_) | refine State.Keeps.fst_of ?_ (by assumption)) | split | extract_lets | dsimp -zeta only | (with_reducible refine State.Keeps.upd ?_)

theorem State.trailer_keeps {s t0 : State} {a1 a2} (h0 : s.Keeps t0) :
    s.Keeps (State.trailer t0 a1 a2).1 := by
  unfold State.trailer
  split
  rename_i v l x he
  exact State.Keeps.fst_of (State.readUnits_keeps h0) he

theorem State.startBucket_keeps {s t0 : State} {a1 a2 a3} (h0 : s.Keeps t0) :
    s.Keeps (State.startBucket t0 a1 a2 a3) := by
  unfold State.startBucket
  repeat' first | intro _ | (with_reducible first | assumption | apply State.wrF_keeps | apply State.putChan_keeps | apply State.reduceAt_keeps | apply State.retryReduce_keeps | apply State.trailer_keeps | refine State.Keeps.ite ?_ ?_ | refine State.Keeps.ite_fst ?_ ?_ | refine State.Keeps.foldl _ ?_ (fun _ _ hv => ?_) | refine State.Keeps.foldl_fst _ ?_ (fun _ _ hv => ?_) | refine State.Keeps.fst_of ?_ (by assumption)) | split | extract_lets | dsimp -zeta only | (with_reducible refine State.Keeps.upd ?_)

theorem State.bucketStart_keeps {s t0 : State} {a1 a2 a3} (h0 : s.Keeps t0) :
    s.Keeps (State.bucketStart t0 a1 a2 a3) := by
  unfold State.bucketStart
  repeat' first | intro _ | (with_reducible first | assumption | apply State.putCell_keeps | apply State.putChan_keeps | apply State.startBucket_keeps | refine State.Keeps.ite ?_ ?_) | split | extract_lets | dsimp -zeta only | (with_reducible refine State.Keeps.upd ?_)

theorem State.normTable_keeps {s t0 : State} {a1 a2 a3} (h0 : s.Keeps t0) :
    s.Keeps (State.normTable t0 a1 a2 a3).1 :=
  State.Keeps.foldl_fst _ h0 (fun _ _ hv =>
    State.Keeps.ite (State.tock_keeps (State.readUnits_keeps hv)) (State.readUnits_keeps hv))

theorem State.ownTotals_keeps {s t0 : State} {a1 a2} (h0 : s.Keeps t0) :
    s.Keeps (State.ownTotals t0 a1 a2).1 := by
  refine State.Keeps.foldl_fst _ h0 (fun v e hv => ?_)
  dsimp only
  split
  · exact State.readUnits_keeps hv
  · exact State.readUnits_keeps hv

theorem State.normSettle_keeps {s t0 : State} {a1 a2 a3} (h0 : s.Keeps t0) :
    s.Keeps (State.normSettle t0 a1 a2 a3) := by
  unfold State.normSettle
  repeat' first | intro _ | (with_reducible first | assumption | apply State.wr_keeps | apply State.wrF_keeps | apply State.putPart_keeps | apply State.setPhase_keeps | apply State.chanStore_keeps | apply State.chanComplete_keeps | refine State.Keeps.ite ?_ ?_ | refine State.Keeps.ite_fst ?_ ?_ | refine State.Keeps.foldl _ ?_ (fun _ _ hv => ?_) | refine State.Keeps.foldl_fst _ ?_ (fun _ _ hv => ?_) | refine State.Keeps.fst_of ?_ (by assumption)) | split | extract_lets | dsimp -zeta only | (with_reducible refine State.Keeps.upd ?_)

theorem State.writeTotal_keeps {s t0 : State} {a1 a2 a3 a4 a5 a6} (h0 : s.Keeps t0) :
    s.Keeps (State.writeTotal t0 a1 a2 a3 a4 a5 a6) := by
  unfold State.writeTotal
  repeat' first | intro _ | (with_reducible first | assumption | apply State.wrF_keeps | apply State.putChan_keeps | apply State.chanStore_keeps) | extract_lets | dsimp -zeta only | (with_reducible refine State.Keeps.upd ?_)

theorem State.normSum_keeps {s t0 : State} {a1 a2 a3 a4 a5 a6} (h0 : s.Keeps t0) :
    s.Keeps (State.normSum t0 a1 a2 a3 a4 a5 a6) := by
  unfold State.normSum
  repeat' first | intro _ | (with_reducible first | assumption | apply State.sendRing_keeps | apply State.writeTotal_keeps | refine State.Keeps.ite ?_ ?_ | refine State.Keeps.ite_fst ?_ ?_ | refine State.Keeps.fst_of ?_ (by assumption)) | split | extract_lets | dsimp -zeta only

theorem State.normAt_keeps {s t0 : State} {a1 a2 a3 a4} (h0 : s.Keeps t0) :
    s.Keeps (State.normAt t0 a1 a2 a3 a4) := by
  unfold State.normAt
  repeat' first | intro _ | (with_reducible first | assumption | apply State.holdBody_keeps | apply State.normSettle_keeps | apply State.normSum_keeps | refine State.Keeps.ite ?_ ?_ | refine State.Keeps.ite_fst ?_ ?_ | refine State.Keeps.foldl _ ?_ (fun _ _ hv => ?_) | refine State.Keeps.foldl_fst _ ?_ (fun _ _ hv => ?_)) | split | extract_lets | dsimp -zeta only

theorem State.normResultAt_keeps {s t0 : State} {a1 a2 a3 a4} (h0 : s.Keeps t0) :
    s.Keeps (State.normResultAt t0 a1 a2 a3 a4) := by
  unfold State.normResultAt
  repeat' first | intro _ | (with_reducible first | assumption | apply State.sendRing_keeps | apply State.holdBody_keeps | apply State.normSettle_keeps | apply State.writeTotal_keeps | refine State.Keeps.ite ?_ ?_ | refine State.Keeps.ite_fst ?_ ?_ | refine State.Keeps.foldl _ ?_ (fun _ _ hv => ?_) | refine State.Keeps.foldl_fst _ ?_ (fun _ _ hv => ?_)) | split | extract_lets | dsimp -zeta only

theorem State.ringAt_keeps {s t0 : State} {a1 a2 a3 a4} (h0 : s.Keeps t0) : s.Keeps (State.ringAt t0 a1 a2 a3 a4) := by
  unfold State.ringAt
  split
  · exact State.reduceAt_keeps h0
  · exact State.normAt_keeps h0
  · exact State.normResultAt_keeps h0
  · exact h0

theorem State.startNorm_keeps {s t0 : State} {a1 a2 a3} (h0 : s.Keeps t0) :
    s.Keeps (State.startNorm t0 a1 a2 a3) := by
  unfold State.startNorm
  refine State.Keeps.ite h0 (State.normSettle_keeps (State.Keeps.foldl _ (State.Keeps.foldl _ (State.wrF_keeps (State.putChan_keeps
    (State.ownTotals_keeps (State.normTable_keeps h0)))) (fun _ _ hv => ?_)) (fun _ _ hv => State.ringAt_keeps hv)))
  exact State.Keeps.ite (State.sendRing_keeps hv) hv

theorem State.wakeChan_keeps {s t0 : State} {a1 a2 a3} (h0 : s.Keeps t0) :
    s.Keeps (State.wakeChan t0 a1 a2 a3) :=
  State.Keeps.ite h0 (State.Keeps.ite (State.Keeps.ite h0 (State.chanEnd_keeps (State.retryReduce_keeps h0)))
    (State.Keeps.ite (State.startNorm_keeps h0)
      (State.normSettle_keeps (State.Keeps.foldl _ (State.putChan_keeps h0) (fun _ _ hv => State.ringAt_keeps hv)))))

theorem State.wakeChans_keeps {s t0 : State} {a1} (h0 : s.Keeps t0) :
    s.Keeps (State.wakeChans t0 a1) := by
  unfold State.wakeChans
  repeat' first | intro _ | (with_reducible first | assumption | apply State.wakeChan_keeps | refine State.Keeps.foldl _ ?_ (fun _ _ hv => ?_)) | split | dsimp -zeta only

theorem State.adderStall_keeps {s t0 : State} {a1 a2} (h0 : s.Keeps t0) :
    s.Keeps (State.adderStall t0 a1 a2) := by
  unfold State.adderStall
  repeat' first | intro _ | (with_reducible first | assumption | apply State.raisePart_keeps | apply State.repeatStall_keeps | apply State.putChan_keeps | refine State.Keeps.ite ?_ ?_ | refine State.Keeps.ite_fst ?_ ?_ | refine State.Keeps.fst_of ?_ (by assumption)) | split | extract_lets | dsimp -zeta only | (with_reducible refine State.Keeps.upd ?_)

theorem State.ownStore_keeps {s t0 : State} {a1 a2 a3 a4} (h0 : s.Keeps t0) :
    s.Keeps (State.ownStore t0 a1 a2 a3 a4) := by
  have put (v : State) (a : Nat) (x : List Nib) (hv : s.Keeps v) : s.Keeps (if v.cachedOff a then
      (v.cacheNow a1 (.store x) (v.physAt a) a4).1 else (v.applyAt a1 (.store x) (v.physAt a) a4).1) :=
    State.Keeps.ite (State.cacheNow_keeps hv) (State.applyAt_keeps hv)
  exact State.Keeps.ite (put _ _ _ h0) (put _ _ _ (put _ _ _ h0))

theorem State.ownLoad_keeps {s t0 : State} {a1 a2 a3} (h0 : s.Keeps t0) : s.Keeps (State.ownLoad t0 a1 a2 a3).1 := by
  induction a2 generalizing t0 a3 with
  | zero => exact h0
  | succ n ih =>
    rw [State.ownLoad]
    exact ih (State.Keeps.ite_fst (State.cacheNow_keeps h0) (State.applyAt_keeps h0))

theorem State.tearChan_keeps {s t0 : State} {a1 a2} (h0 : s.Keeps t0) :
    s.Keeps (State.tearChan t0 a1 a2) := by
  unfold State.tearChan
  repeat' first | intro _ | (with_reducible first | assumption | apply State.tock_keeps | apply State.putChan_keeps | apply State.chanComplete_keeps | apply State.ownStore_keeps | refine State.Keeps.ite ?_ ?_ | refine State.Keeps.foldl _ ?_ (fun _ _ hv => ?_)) | split | extract_lets | dsimp -zeta only | (with_reducible refine State.Keeps.upd ?_)

theorem State.tearChans_keeps {s t0 : State} {a1} (h0 : s.Keeps t0) :
    s.Keeps (State.tearChans t0 a1) := by
  unfold State.tearChans
  repeat' first | intro _ | (with_reducible first | assumption | apply State.putChan_keeps | apply State.tearChan_keeps | refine State.Keeps.foldl _ ?_ (fun _ _ hv => ?_)) | split | extract_lets | dsimp -zeta only | (with_reducible refine State.Keeps.upd ?_)

theorem State.storeOn_keeps {s t0 : State} {a1 a2 a3} (h0 : s.Keeps t0) :
    s.Keeps (State.storeOn t0 a1 a2 a3) := by
  unfold State.storeOn
  repeat' first | intro _ | (with_reducible first | assumption | apply State.store_keeps | apply State.merge_keeps | apply State.sendOp_keeps | refine State.Keeps.ite ?_ ?_) | split | dsimp -zeta only

theorem State.pairOn_keeps {s t0 : State} {a1 a2 a3} (h0 : s.Keeps t0) :
    s.Keeps (State.pairOn t0 a1 a2 a3) := by
  unfold State.pairOn
  repeat' first | intro _ | (with_reducible first | assumption | apply State.store_keeps | apply State.sendOp_keeps | refine State.Keeps.ite ?_ ?_) | split | dsimp -zeta only

theorem State.failTask_keeps {s t0 : State} {a1 a2 a3} (h0 : s.Keeps t0) :
    s.Keeps (State.failTask t0 a1 a2 a3) := by
  unfold State.failTask
  repeat' first | intro _ | (with_reducible first | assumption | apply State.ringDoneOp_keeps | refine State.Keeps.fst_of ?_ (by assumption)) | split | dsimp -zeta only

theorem State.runTask_keeps {s t0 : State} {a0 a1 a2 a3} (h : ∀ x0 x1 x2, s.Keeps x0 → s.Keeps (a0 x0 x1 x2)) (h0 : s.Keeps t0) :
    s.Keeps (State.runTask a0 a1 a2 a3 t0) := by
  induction a3 generalizing t0 with
  | nil => exact h _ _ _ h0
  | cons x r ih =>
    rw [State.runTask]
    exact State.Keeps.ite (ih (State.merge_keeps h0)) (State.Keeps.ite (State.failTask_keeps h0)
      (State.sendOp_keeps (State.Keeps.upd h0)))

theorem State.startTask_keeps {s t0 : State} {a1 a2 a3} (h : ∀ x0 x1 x2, s.Keeps x0 → s.Keeps (a1 x0 x1 x2)) (h0 : s.Keeps t0) :
    s.Keeps (State.startTask t0 a1 a2 a3) := State.runTask_keeps h (State.Keeps.upd h0)

theorem State.inTurn_keeps {s t0 : State} {a1} (h0 : s.Keeps t0) : s.Keeps (State.inTurn t0 a1) :=
  State.startTask_keeps (fun _ _ _ h => h) h0

theorem State.reportStep_keeps {s t0 : State} {a1 a2} (h0 : s.Keeps t0) :
    s.Keeps (State.reportStep t0 a1 a2) := by
  unfold State.reportStep
  repeat' first | intro _ | (with_reducible first | assumption | apply State.storeOn_keeps | refine State.Keeps.fst_of ?_ (by assumption)) | split | dsimp -zeta only

theorem State.holdPart_keeps {s t0 : State} {a1} (h0 : s.Keeps t0) :
    s.Keeps (State.holdPart t0 a1) := by
  unfold State.holdPart
  repeat' first | intro _ | (with_reducible first | assumption | apply State.putPart_keeps | apply State.setPhase_keeps | apply State.consume_keeps | apply State.ringDoneOp_keeps | apply State.reportStep_keeps | refine State.Keeps.ite ?_ ?_ | refine State.Keeps.ite_fst ?_ ?_ | refine State.Keeps.foldl _ ?_ (fun _ _ hv => ?_) | refine State.Keeps.foldl_fst _ ?_ (fun _ _ hv => ?_) | refine State.Keeps.fst_of ?_ (by assumption)) | split | extract_lets | dsimp -zeta only | (with_reducible refine State.Keeps.upd ?_)

theorem State.tearJob_keeps {s t0 : State} {a1} (h0 : s.Keeps t0) :
    s.Keeps (State.tearJob t0 a1) := by
  unfold State.tearJob
  repeat' first | intro _ | (with_reducible first | assumption | apply State.wrF_keeps | apply State.bump_keeps | apply State.putRegion_keeps | apply State.raise_keeps | apply State.tearPart_keeps | apply State.tearChans_keeps | apply State.holdPart_keeps | refine State.Keeps.ite ?_ ?_ | refine State.Keeps.foldl _ ?_ (fun _ _ hv => ?_)) | split | extract_lets | dsimp -zeta only | (with_reducible refine State.Keeps.upd ?_)

theorem State.tearPair_keeps {s t0 : State} {a1} (h0 : s.Keeps t0) :
    s.Keeps (State.tearPair t0 a1) := by
  unfold State.tearPair
  repeat' first | intro _ | (with_reducible first | assumption | apply State.wr_keeps | apply State.tearJob_keeps) | dsimp -zeta only

theorem State.forget_keeps {s t0 : State} {a1 a2} (h0 : s.Keeps t0) :
    s.Keeps (State.forget t0 a1 a2) := by
  unfold State.forget
  repeat' first | intro _ | (with_reducible first | assumption) | split | dsimp -zeta only | (with_reducible refine State.Keeps.upd ?_)

theorem State.noteDecision_keeps {s t0 : State} {a1 a2 a3} (h0 : s.Keeps t0) :
    s.Keeps (State.noteDecision t0 a1 a2 a3) := by
  unfold State.noteDecision
  repeat' first | intro _ | (with_reducible first | assumption | apply State.forget_keeps) | extract_lets | dsimp -zeta only | (with_reducible refine State.Keeps.upd ?_)

theorem State.commitOn_keeps {s t0 : State} {a1 a2 a3 a4} (h0 : s.Keeps t0) :
    s.Keeps (State.commitOn t0 a1 a2 a3 a4) := by
  unfold State.commitOn
  repeat' first | intro _ | (with_reducible first | assumption | apply State.inTurn_keeps | refine State.Keeps.ite ?_ ?_ | refine State.Keeps.ite_fst ?_ ?_ | refine State.Keeps.foldl _ ?_ (fun _ _ hv => ?_) | refine State.Keeps.foldl_fst _ ?_ (fun _ _ hv => ?_) | refine State.Keeps.fst_of ?_ (by assumption)) | split | extract_lets | dsimp -zeta only

theorem State.writeCommit_keeps {s t0 : State} {a1 a2 a3 a4} (h0 : s.Keeps t0) : s.Keeps (State.writeCommit t0 a1 a2 a3 a4) :=
  State.Keeps.ite (State.startTask_keeps (fun _ _ _ h => State.commitOn_keeps h) (State.noteDecision_keeps h0))
    (State.commitOn_keeps (State.noteDecision_keeps h0))

theorem State.sendOrder_keeps {s t0 : State} {a1 a2 a3 a4} (h0 : s.Keeps t0) :
    s.Keeps (State.sendOrder t0 a1 a2 a3 a4) := by
  unfold State.sendOrder
  repeat' first | intro _ | (with_reducible first | assumption | apply State.storeOn_keeps | refine State.Keeps.foldl _ ?_ (fun _ _ hv => ?_)) | split | dsimp -zeta only

theorem State.dropReports_keeps {s t0 : State} {a1 a2 a3} (h0 : s.Keeps t0) :
    s.Keeps (State.dropReports t0 a1 a2 a3) := by
  unfold State.dropReports
  repeat' first | intro _ | (with_reducible first | assumption | apply State.merge_keeps | refine State.Keeps.ite ?_ ?_ | refine State.Keeps.ite_fst ?_ ?_ | refine State.Keeps.foldl _ ?_ (fun _ _ hv => ?_) | refine State.Keeps.foldl_fst _ ?_ (fun _ _ hv => ?_) | refine State.Keeps.fst_of ?_ (by assumption)) | split | dsimp -zeta only

theorem State.discardStep_keeps {s t0 : State} {a1 a2 a3} (h0 : s.Keeps t0) :
    s.Keeps (State.discardStep t0 a1 a2 a3) := by
  unfold State.discardStep
  repeat' first | intro _ | (with_reducible first | assumption | apply State.forget_keeps | apply State.sendOrder_keeps | apply State.dropReports_keeps) | split | extract_lets | dsimp -zeta only

theorem State.decideTorn_keeps {s t0 : State} {a1 a2 a3 a4} (h0 : s.Keeps t0) :
    s.Keeps (State.decideTorn t0 a1 a2 a3 a4) := by
  unfold State.decideTorn
  repeat' first | intro _ | (with_reducible first | assumption | apply State.raiseOwner_keeps | apply State.forget_keeps | apply State.writeCommit_keeps | apply State.sendOrder_keeps | apply State.discardStep_keeps | refine State.Keeps.ite ?_ ?_ | refine State.Keeps.ite_fst ?_ ?_ | refine State.Keeps.foldl _ ?_ (fun _ _ hv => ?_) | refine State.Keeps.foldl_fst _ ?_ (fun _ _ hv => ?_) | refine State.Keeps.fst_of ?_ (by assumption)) | split | extract_lets | dsimp -zeta only | (with_reducible refine State.Keeps.upd ?_)

theorem State.settleOpen_keeps {s t0 : State} {a1 a2 a3 a4} (h0 : s.Keeps t0) :
    s.Keeps (State.settleOpen t0 a1 a2 a3 a4) := by
  unfold State.settleOpen
  repeat' first | intro _ | (with_reducible first | assumption | apply State.inTurn_keeps | apply State.sendOrder_keeps | apply State.dropReports_keeps | refine State.Keeps.fst_of ?_ (by assumption)) | split | extract_lets | dsimp -zeta only | (with_reducible refine State.Keeps.upd ?_)

theorem State.actReport_keeps {s t0 : State} {a1 a2 a3 a4 a5} (h0 : s.Keeps t0) :
    s.Keeps (State.actReport t0 a1 a2 a3 a4 a5) := by
  unfold State.actReport
  repeat' first | intro _ | (with_reducible first | assumption | apply State.writeCommit_keeps | apply State.discardStep_keeps | apply State.decideTorn_keeps | apply State.settleOpen_keeps | refine State.Keeps.ite ?_ ?_ | refine State.Keeps.ite_fst ?_ ?_ | refine State.Keeps.fst_of ?_ (by assumption)) | split | extract_lets | dsimp -zeta only

theorem State.takeReport_keeps {s t0 : State} {a1 a2 a3 a4} (h0 : s.Keeps t0) :
    s.Keeps (State.takeReport t0 a1 a2 a3 a4) := by
  unfold State.takeReport
  repeat' first | intro _ | (with_reducible first | assumption | apply State.forget_keeps | apply State.actReport_keeps | refine State.Keeps.ite ?_ ?_ | refine State.Keeps.ite_fst ?_ ?_ | refine State.Keeps.foldl _ ?_ (fun _ _ hv => ?_) | refine State.Keeps.foldl_fst _ ?_ (fun _ _ hv => ?_) | refine State.Keeps.fst_of ?_ (by assumption)) | split | extract_lets | dsimp -zeta only | (with_reducible refine State.Keeps.upd ?_)

theorem State.tableInForce_keeps {s t0 : State} {a1 a2} (h0 : s.Keeps t0) :
    s.Keeps (State.tableInForce t0 a1 a2) := by
  unfold State.tableInForce
  repeat' first | intro _ | (with_reducible first | assumption | apply State.putPart_keeps | refine State.Keeps.ite ?_ ?_) | split | dsimp -zeta only | (with_reducible refine State.Keeps.upd ?_)

theorem State.copyDir_keeps {s t0 : State} {a1 a2} (h0 : s.Keeps t0) :
    s.Keeps (State.copyDir t0 a1 a2) := by
  unfold State.copyDir
  repeat' first | intro _ | (with_reducible first | assumption | apply State.inTurn_keeps) | dsimp -zeta only

theorem State.copyDirs_keeps {s t0 : State} (h0 : s.Keeps t0) :
    s.Keeps (State.copyDirs t0) := by
  unfold State.copyDirs
  repeat' first | intro _ | (with_reducible first | assumption | apply State.copyDir_keeps | refine State.Keeps.ite ?_ ?_ | refine State.Keeps.foldl _ ?_ (fun _ _ hv => ?_)) | split | dsimp -zeta only

theorem State.taskEnd_keeps {s t0 : State} {a1 a2} (h0 : s.Keeps t0) : s.Keeps (State.taskEnd t0 a1 a2) := by
  unfold State.taskEnd
  split
  · exact h0
  · exact h0
  · have h1 {p t i} : s.Keeps ((t0.tableInForce p t).ringDoneOp p (.table i) .ok 0 0) :=
      State.ringDoneOp_keeps (State.tableInForce_keeps h0)
    exact State.Keeps.ite (State.copyDir_keeps h1) h1
  · split
    · exact State.commitOn_keeps h0
    · exact h0

theorem State.taskDone_keeps {s t0 : State} {a1 a2} (h0 : s.Keeps t0) : s.Keeps (State.taskDone t0 a1 a2) := by
  unfold State.taskDone
  split
  · exact h0
  · have h1 {k : Keeper} : s.Keeps ({ t0 with keeper := k } : State) := State.Keeps.upd h0
    refine State.Keeps.ite (State.failTask_keeps h1) ?_
    split
    · exact State.Keeps.ite (State.failTask_keeps h1) (State.runTask_keeps (fun _ _ _ h => State.taskEnd_keeps h) h1)
    · exact State.runTask_keeps (fun _ _ _ h => State.taskEnd_keeps h) h1

theorem State.orderTeardown_keeps {s t0 : State} {a1 a2} (h0 : s.Keeps t0) :
    s.Keeps (State.orderTeardown t0 a1 a2) := by
  unfold State.orderTeardown
  repeat' first | intro _ | (with_reducible first | assumption | apply State.pairOn_keeps | apply State.tearPair_keeps | refine State.Keeps.ite ?_ ?_ | refine State.Keeps.ite_fst ?_ ?_ | refine State.Keeps.foldl _ ?_ (fun _ _ hv => ?_) | refine State.Keeps.foldl_fst _ ?_ (fun _ _ hv => ?_)) | split | extract_lets | dsimp -zeta only | (with_reducible refine State.Keeps.upd ?_)

theorem State.tearWhere_keeps {s t0 : State} {a1} (h0 : s.Keeps t0) :
    s.Keeps (State.tearWhere t0 a1) := by
  unfold State.tearWhere
  repeat' first | intro _ | (with_reducible first | assumption | apply State.orderTeardown_keeps | refine State.Keeps.ite ?_ ?_ | refine State.Keeps.ite_fst ?_ ?_ | refine State.Keeps.foldl _ ?_ (fun _ _ hv => ?_) | refine State.Keeps.foldl_fst _ ?_ (fun _ _ hv => ?_)) | split | dsimp -zeta only

theorem State.declareLost_keeps {s t0 : State} {a1} (h0 : s.Keeps t0) :
    s.Keeps (State.declareLost t0 a1) := by
  unfold State.declareLost
  repeat' first | intro _ | (with_reducible first | assumption | apply State.tearWhere_keeps) | split | dsimp -zeta only | (with_reducible refine State.Keeps.upd ?_)

theorem State.liveRead_keeps {s t0 : State} {a1 a2} (h0 : s.Keeps t0) :
    s.Keeps (State.liveRead t0 a1 a2) := by
  unfold State.liveRead
  repeat' first | intro _ | (with_reducible first | assumption | refine State.Keeps.ite ?_ ?_ | refine State.Keeps.ite_fst ?_ ?_ | refine State.Keeps.fst_of ?_ (by assumption)) | split | extract_lets | dsimp -zeta only | (with_reducible refine State.Keeps.upd ?_)

theorem State.runtimeDone_keeps {s t0 : State} {a1 a2} (h0 : s.Keeps t0) :
    s.Keeps (State.runtimeDone t0 a1 a2) := by
  unfold State.runtimeDone
  repeat' first | intro _ | (with_reducible first | assumption | apply State.taskDone_keeps | apply State.liveRead_keeps | refine State.Keeps.ite ?_ ?_ | refine State.Keeps.ite_fst ?_ ?_ | refine State.Keeps.fst_of ?_ (by assumption)) | split | dsimp -zeta only | (with_reducible refine State.Keeps.upd ?_)

theorem State.keeperNamed_keeps {s t0 : State} {a1} (h0 : s.Keeps t0) :
    s.Keeps (State.keeperNamed t0 a1) := by
  unfold State.keeperNamed
  repeat' first | intro _ | (with_reducible first | assumption | apply State.wr_keeps | apply State.reportStep_keeps | apply State.copyDirs_keeps | refine State.Keeps.ite ?_ ?_ | refine State.Keeps.ite_fst ?_ ?_ | refine State.Keeps.foldl _ ?_ (fun _ _ hv => ?_) | refine State.Keeps.foldl_fst _ ?_ (fun _ _ hv => ?_) | refine State.Keeps.fst_of ?_ (by assumption)) | split | extract_lets | dsimp -zeta only | (with_reducible refine State.Keeps.upd ?_)

theorem State.completeOpen_keeps {s t0 : State} (h0 : s.Keeps t0) :
    s.Keeps (State.completeOpen t0) := by
  unfold State.completeOpen
  repeat' first | intro _ | (with_reducible first | assumption | apply State.sendOrder_keeps | refine State.Keeps.ite ?_ ?_ | refine State.Keeps.ite_fst ?_ ?_ | refine State.Keeps.foldl _ ?_ (fun _ _ hv => ?_) | refine State.Keeps.foldl_fst _ ?_ (fun _ _ hv => ?_)) | split | extract_lets | dsimp -zeta only | (with_reducible refine State.Keeps.upd ?_)

theorem State.takeOver_keeps {s t0 : State} {a1} (h0 : s.Keeps t0) :
    s.Keeps (State.takeOver t0 a1) := by
  unfold State.takeOver
  repeat' first | intro _ | (with_reducible first | assumption | apply State.tock_keeps | apply State.merge_keeps | apply State.storeOn_keeps | apply State.pairOn_keeps | apply State.keeperNamed_keeps | apply State.completeOpen_keeps | refine State.Keeps.foldl _ ?_ (fun _ _ hv => ?_)) | split | extract_lets | dsimp -zeta only

theorem State.setLinkState_keeps {s t0 : State} {a1 a2} (h0 : s.Keeps t0) :
    s.Keeps (State.setLinkState t0 a1 a2) := by
  unfold State.setLinkState
  repeat' first | intro _ | (with_reducible first | assumption | apply State.wrF_keeps | apply State.raiseOwner_keeps | refine State.Keeps.ite ?_ ?_) | split | dsimp -zeta only

theorem State.enterRetrain_keeps {s t0 : State} {a1} (h0 : s.Keeps t0) :
    s.Keeps (State.enterRetrain t0 a1) := by
  unfold State.enterRetrain
  repeat' first | intro _ | (with_reducible first | assumption | apply State.wrF_keeps | apply State.bump_keeps | apply State.putLink_keeps | apply State.setLinkState_keeps | refine State.Keeps.ite ?_ ?_) | split | extract_lets | dsimp -zeta only | (with_reducible refine State.Keeps.upd ?_)

theorem State.linkCtrl_keeps {s t0 : State} {a1 a2} (h0 : s.Keeps t0) :
    s.Keeps (State.linkCtrl t0 a1 a2) := by
  unfold State.linkCtrl
  repeat' first | intro _ | (with_reducible first | assumption | apply State.putLink_keeps | apply State.setLinkState_keeps | apply State.enterRetrain_keeps | refine State.Keeps.ite ?_ ?_) | split | extract_lets | dsimp -zeta only | (with_reducible refine State.Keeps.upd ?_)

theorem State.disableRing_keeps {s t0 : State} {a1} (h0 : s.Keeps t0) :
    s.Keeps (State.disableRing t0 a1) := by
  unfold State.disableRing
  repeat' first | intro _ | (with_reducible first | assumption | apply State.wr_keeps | apply State.wrF_keeps | apply State.putRing_keeps) | extract_lets | dsimp -zeta only | (with_reducible refine State.Keeps.upd ?_)

theorem State.releaseRecords_keeps {s t0 : State} {a1} (h0 : s.Keeps t0) :
    s.Keeps (State.releaseRecords t0 a1) := by
  unfold State.releaseRecords
  repeat' first | intro _ | (with_reducible first | assumption | apply State.wr_keeps) | extract_lets | dsimp -zeta only | (with_reducible refine State.Keeps.upd ?_)

theorem State.repPair_keeps {s t0 : State} {a1} (h0 : s.Keeps t0) :
    s.Keeps (State.repPair t0 a1) := by
  unfold State.repPair
  repeat' first | intro _ | (with_reducible first | assumption | apply State.wr_keeps | refine State.Keeps.ite ?_ ?_) | split | extract_lets | dsimp -zeta only | (with_reducible refine State.Keeps.upd ?_)

theorem State.clearW1c_keeps {s t0 : State} {a1 a2 a3} (h0 : s.Keeps t0) :
    s.Keeps (State.clearW1c t0 a1 a2 a3) := by
  unfold State.clearW1c
  repeat' first | intro _ | (with_reducible first | assumption | apply State.wr_keeps | apply State.wrF_keeps | refine State.Keeps.ite ?_ ?_ | refine State.Keeps.ite_fst ?_ ?_ | refine State.Keeps.foldl _ ?_ (fun _ _ hv => ?_) | refine State.Keeps.foldl_fst _ ?_ (fun _ _ hv => ?_)) | split | dsimp -zeta only

theorem State.updateWrite_keeps {s t0 : State} {a1} (h0 : s.Keeps t0) :
    s.Keeps (State.updateWrite t0 a1) := by
  unfold State.updateWrite
  repeat' first | intro _ | (with_reducible first | assumption | apply State.bumpWrap_keeps | refine State.Keeps.foldl _ ?_ (fun _ _ hv => ?_) | refine State.Keeps.foldl_fst _ ?_ (fun _ _ hv => ?_)) | split | extract_lets | dsimp -zeta only | (with_reducible refine State.Keeps.upd ?_)

theorem State.applyBlock_keeps {s t0 : State} {a1} (h0 : s.Keeps t0) :
    s.Keeps (State.applyBlock t0 a1) := by
  unfold State.applyBlock
  repeat' first | intro _ | (with_reducible first | assumption | apply State.wr_keeps | refine State.Keeps.foldl _ ?_ (fun _ _ hv => ?_) | refine State.Keeps.foldl_fst _ ?_ (fun _ _ hv => ?_) | refine State.Keeps.fst_of ?_ (by assumption)) | split | extract_lets | dsimp -zeta only | (with_reducible refine State.Keeps.upd ?_)

theorem State.storeFields_keeps {s t0 : State} {a1 a2 a3 a4} (h0 : s.Keeps t0) :
    s.Keeps (State.storeFields t0 a1 a2 a3 a4) := by
  unfold State.storeFields
  repeat' first | intro _ | (with_reducible first | assumption | apply State.wr_keeps | apply State.clearW1c_keeps | refine State.Keeps.ite ?_ ?_) | split | extract_lets | dsimp -zeta only | (with_reducible refine State.Keeps.upd ?_)

theorem State.writeHook_keeps {s t0 : State} {a1 a2 a3 a4} (h0 : s.Keeps t0) :
    s.Keeps (State.writeHook t0 a1 a2 a3 a4) := by
  unfold State.writeHook
  repeat' first | intro _ | (with_reducible first | assumption | apply State.dmaStart_keeps | apply State.startCacheOp_keeps | apply State.linkCtrl_keeps | apply State.disableRing_keeps | apply State.updateWrite_keeps | refine State.Keeps.ite ?_ ?_ | refine State.Keeps.ite_fst ?_ ?_ | refine State.Keeps.fst_of ?_ (by assumption)) | split | extract_lets | dsimp -zeta only | (with_reducible refine State.Keeps.upd ?_)

theorem State.plainWrite_keeps {s t0 : State} {a1 a2 a3 a4} (h0 : s.Keeps t0) :
    s.Keeps (State.plainWrite t0 a1 a2 a3 a4) := by
  unfold State.plainWrite
  repeat' first | intro _ | (with_reducible first | assumption | apply State.storeFields_keeps | apply State.writeHook_keeps | refine State.Keeps.ite ?_ ?_) | split | extract_lets | dsimp -zeta only

theorem State.guardFault_keeps {s t0 : State} {a1 a2} (h0 : s.Keeps t0) :
    s.Keeps (State.guardFault t0 a1 a2) := by
  unfold State.guardFault
  repeat' first | intro _ | (with_reducible first | assumption | apply State.wr_keeps | apply State.wrF_keeps | apply State.bump_keeps | apply State.raiseOwner_keeps) | dsimp -zeta only

theorem State.dropPair_keeps {s t0 : State} {a1} (h0 : s.Keeps t0) :
    s.Keeps (State.dropPair t0 a1) := by
  unfold State.dropPair
  repeat' first | intro _ | (with_reducible first | assumption) | split | dsimp -zeta only | (with_reducible refine State.Keeps.upd ?_)

theorem State.breakPair_keeps {s t0 : State} {a1 a2} (h0 : s.Keeps t0) :
    s.Keeps (State.breakPair t0 a1 a2) := by
  unfold State.breakPair
  repeat' first | intro _ | (with_reducible first | assumption | apply State.guardFault_keeps | apply State.dropPair_keeps | refine State.Keeps.fst_of ?_ (by assumption)) | split | dsimp -zeta only

theorem State.storeGuarded_keeps {s t0 : State} {a1 a2 a3} (h0 : s.Keeps t0) :
    s.Keeps (State.storeGuarded t0 a1 a2 a3) := by
  unfold State.storeGuarded
  repeat' first | intro _ | (with_reducible first | assumption | apply State.wr_keeps) | dsimp -zeta only

theorem State.pinPair_keeps {s t0 : State} {a1 a2 a3} (h0 : s.Keeps t0) :
    s.Keeps (State.pinPair t0 a1 a2 a3) := by
  unfold State.pinPair
  repeat' first | intro _ | (with_reducible first | assumption | apply State.putPin_keeps | apply State.pinWrite_keeps | refine State.Keeps.ite ?_ ?_ | refine State.Keeps.ite_fst ?_ ?_) | split | extract_lets | dsimp -zeta only | (with_reducible refine State.Keeps.upd ?_)

theorem State.guardedApply_keeps {s t0 : State} {a1 a2 a3 a4 a5} (h0 : s.Keeps t0) :
    s.Keeps (State.guardedApply t0 a1 a2 a3 a4 a5) := by
  unfold State.guardedApply
  repeat' first | intro _ | (with_reducible first | assumption | apply State.raiseOwner_keeps | apply State.slotPair_keeps | apply State.rgnPair_keeps | apply State.flipPair_keeps | apply State.kmapPair_keeps | apply State.routePair_keeps | apply State.remapPair_keeps | apply State.tearPair_keeps | apply State.keeperNamed_keeps | apply State.releaseRecords_keeps | apply State.repPair_keeps | apply State.storeGuarded_keeps | apply State.pinPair_keeps | refine State.Keeps.ite ?_ ?_ | refine State.Keeps.ite_fst ?_ ?_ | refine State.Keeps.fst_of ?_ (by assumption)) | split | dsimp -zeta only

theorem State.checked_keeps {s t0 : State} {a1 a2 a3} (h0 : s.Keeps t0) (h3 : ∀ x0 x1 x2, s.Keeps (a3 x0 x1 x2)) :
    s.Keeps (State.checked t0 a1 a2 a3) := by
  unfold State.checked
  repeat' first | intro _ | (with_reducible first | assumption | apply h3 | apply State.raiseOwner_keeps | refine State.Keeps.fst_of ?_ (by assumption)) | split | dsimp -zeta only

theorem State.blockWrite_keeps {s t0 : State} {a1 a2 a3} (h0 : s.Keeps t0) :
    s.Keeps (State.blockWrite t0 a1 a2 a3) := by
  unfold State.blockWrite
  repeat' first | intro _ | (with_reducible first | assumption | apply State.plainWrite_keeps | apply State.checked_keeps | refine State.Keeps.ite ?_ ?_) | split | dsimp -zeta only | (with_reducible refine State.Keeps.upd ?_)

theorem State.pairDone_keeps {s t0 : State} {a1 a2 a3} (h0 : s.Keeps t0) :
    s.Keeps (State.pairDone t0 a1 a2 a3) := by
  unfold State.pairDone
  repeat' first | intro _ | (with_reducible first | assumption | apply State.guardedApply_keeps | apply State.checked_keeps) | split | dsimp -zeta only

theorem State.twinWrite_keeps {s t0 : State} {a1 a2 a3 a4} (h0 : s.Keeps t0) :
    s.Keeps (State.twinWrite t0 a1 a2 a3 a4) := by
  unfold State.twinWrite
  repeat' first | intro _ | (with_reducible first | assumption | apply State.guardFault_keeps | apply State.dropPair_keeps | apply State.pairDone_keeps | refine State.Keeps.ite ?_ ?_ | refine State.Keeps.ite_fst ?_ ?_ | refine State.Keeps.fst_of ?_ (by assumption)) | split | dsimp -zeta only

theorem State.aliasWrite_keeps {s t0 : State} {a1 a2 a3 a4 a5} (h0 : s.Keeps t0) :
    s.Keeps (State.aliasWrite t0 a1 a2 a3 a4 a5) := by
  unfold State.aliasWrite
  repeat' first | intro _ | (with_reducible first | assumption | apply State.clearW1c_keeps | apply State.plainWrite_keeps | apply State.guardFault_keeps | apply State.checked_keeps | refine State.Keeps.ite ?_ ?_ | refine State.Keeps.ite_fst ?_ ?_ | refine State.Keeps.fst_of ?_ (by assumption)) | split | extract_lets | dsimp -zeta only

theorem State.busWrite_keeps {s t0 : State} {a1 a2 a3} (h0 : s.Keeps t0) :
    s.Keeps (State.busWrite t0 a1 a2 a3) := by
  unfold State.busWrite
  repeat' first | intro _ | (with_reducible first | assumption | apply State.breakPair_keeps | apply State.blockWrite_keeps | apply State.twinWrite_keeps | apply State.aliasWrite_keeps | refine State.Keeps.ite ?_ ?_) | split | extract_lets | dsimp -zeta only

theorem State.busPair_keeps {s t0 : State} {a1 a2 a3} (h0 : s.Keeps t0) :
    s.Keeps (State.busPair t0 a1 a2 a3) := by
  unfold State.busPair
  repeat' first | intro _ | (with_reducible first | assumption | apply State.busWrite_keeps) | dsimp -zeta only

theorem State.mctp_keeps {s t0 : State} {a1 a2 a3} (h0 : s.Keeps t0) : s.Keeps (State.mctp t0 a1 a2 a3) :=
  State.Keeps.ite h0 (State.Keeps.ite (State.Keeps.ite (State.Keeps.upd h0) (State.Keeps.upd h0))
    (State.Keeps.ite (State.Keeps.upd (State.busWrite_keeps h0)) (State.tock_keeps (State.Keeps.upd h0))))

theorem State.startWrite_keeps {s t0 : State} {a1 a2 a3 a4} (h0 : s.Keeps t0) :
    s.Keeps (State.startWrite t0 a1 a2 a3 a4) := by
  unfold State.startWrite
  repeat' first | intro _ | (with_reducible first | assumption | apply State.busWrite_keeps) | extract_lets | dsimp -zeta only

theorem State.countLink_keeps {s t0 : State} {a1 a2 a3 a4 a5} (h0 : s.Keeps t0) :
    s.Keeps (State.countLink t0 a1 a2 a3 a4 a5) := by
  unfold State.countLink
  repeat' first | intro _ | (with_reducible first | assumption | apply State.wrF_keeps | apply State.bump_keeps | refine State.Keeps.ite ?_ ?_) | split | dsimp -zeta only

theorem State.linkCorrected_keeps {s t0 : State} {a1 a2} (h0 : s.Keeps t0) :
    s.Keeps (State.linkCorrected t0 a1 a2) := by
  unfold State.linkCorrected
  repeat' first | intro _ | (with_reducible first | assumption | apply State.raiseOwner_keeps | apply State.countLink_keeps | refine State.Keeps.ite ?_ ?_) | split | extract_lets | dsimp -zeta only

theorem State.passWindow_keeps {s t0 : State} {a1 a2} (h0 : s.Keeps t0) :
    s.Keeps (State.passWindow t0 a1 a2) := by
  unfold State.passWindow
  repeat' first | intro _ | (with_reducible first | assumption | apply State.putLink_keeps | refine State.Keeps.ite ?_ ?_) | split | extract_lets | dsimp -zeta only | (with_reducible refine State.Keeps.upd ?_)

theorem State.rxHeader_keeps {s t0 : State} {a1 a2 a3} (h0 : s.Keeps t0) :
    s.Keeps (State.rxHeader t0 a1 a2 a3) := by
  unfold State.rxHeader
  repeat' first | intro _ | (with_reducible first | assumption | apply State.putLink_keeps | apply State.countLink_keeps | apply State.linkCorrected_keeps | apply State.passWindow_keeps | refine State.Keeps.ite ?_ ?_) | split | extract_lets | dsimp -zeta only | (with_reducible refine State.Keeps.upd ?_)

theorem State.rejectFlit_keeps {s t0 : State} {a1} (h0 : s.Keeps t0) :
    s.Keeps (State.rejectFlit t0 a1) := by
  unfold State.rejectFlit
  repeat' first | intro _ | (with_reducible first | assumption | apply State.putLink_keeps | refine State.Keeps.ite ?_ ?_) | split | extract_lets | dsimp -zeta only | (with_reducible refine State.Keeps.upd ?_)

theorem State.receive_keeps {s t0 : State} {a1 a2 a3} (h0 : s.Keeps t0) (h3 : ∀ x0, s.Keeps x0 → s.Keeps (a3 x0)) :
    s.Keeps (State.receive t0 a1 a2 a3) := by
  unfold State.receive
  repeat' first | intro _ | (with_reducible first | assumption | apply h3 | apply State.putLink_keeps | apply State.rxHeader_keeps | apply State.rejectFlit_keeps | refine State.Keeps.ite ?_ ?_) | split | extract_lets | dsimp -zeta only | (with_reducible refine State.Keeps.upd ?_)

theorem State.forward_keeps {s t0 : State} {a1 a2 a3 a4 a5} (h0 : s.Keeps t0) :
    s.Keeps (State.forward t0 a1 a2 a3 a4 a5) := by
  unfold State.forward
  repeat' first | intro _ | (with_reducible first | assumption | apply State.sendLink_keeps) | dsimp -zeta only

theorem State.remoteReg_keeps {s t0 : State} {a1 a2} (h0 : s.Keeps t0) :
    s.Keeps (State.remoteReg t0 a1 a2) := by
  unfold State.remoteReg
  repeat' first | intro _ | (with_reducible first | assumption | apply State.store_keeps | apply State.raiseOwner_keeps | apply State.respond_keeps | apply State.busWrite_keeps | refine State.Keeps.ite ?_ ?_ | refine State.Keeps.ite_fst ?_ ?_ | refine State.Keeps.fst_of ?_ (by assumption)) | split | extract_lets | dsimp -zeta only

theorem State.deliverReq_keeps {s t0 : State} {a1 a2 a3} (h0 : s.Keeps t0) :
    s.Keeps (State.deliverReq t0 a1 a2 a3) := by
  unfold State.deliverReq
  repeat' first | intro _ | (with_reducible first | assumption | apply State.sendHome_keeps | apply State.respond_keeps | apply State.remoteReg_keeps | refine State.Keeps.ite ?_ ?_ | refine State.Keeps.ite_fst ?_ ?_ | refine State.Keeps.fst_of ?_ (by assumption)) | split | extract_lets | dsimp -zeta only

theorem State.takeReq_keeps {s t0 : State} {a1 a2 a3} (h0 : s.Keeps t0) :
    s.Keeps (State.takeReq t0 a1 a2 a3) := by
  unfold State.takeReq
  repeat' first | intro _ | (with_reducible first | assumption | apply State.putLink_keeps | apply State.forward_keeps | apply State.deliverReq_keeps | refine State.Keeps.ite ?_ ?_ | refine State.Keeps.ite_fst ?_ ?_ | refine State.Keeps.fst_of ?_ (by assumption)) | split | extract_lets | dsimp -zeta only | (with_reducible refine State.Keeps.upd ?_)

theorem State.finishOp_keeps {s t0 : State} {a1 a2 a3 a4} (h0 : s.Keeps t0) :
    s.Keeps (State.finishOp t0 a1 a2 a3 a4) := by
  unfold State.finishOp
  repeat' first | intro _ | (with_reducible first | assumption | apply State.dmaArrive_keeps | apply State.dmaAck_keeps | apply State.finishThread_keeps | apply State.runtimeDone_keeps | refine State.Keeps.fst_of ?_ (by assumption)) | split | extract_lets | dsimp -zeta only | (with_reducible refine State.Keeps.upd ?_)

theorem State.takeRsp_keeps {s t0 : State} {a1 a2 a3 a4} (h0 : s.Keeps t0) :
    s.Keeps (State.takeRsp t0 a1 a2 a3 a4) := by
  unfold State.takeRsp
  repeat' first | intro _ | (with_reducible first | assumption | apply State.depart_keeps | apply State.forward_keeps | apply State.finishOp_keeps | refine State.Keeps.ite ?_ ?_ | refine State.Keeps.ite_fst ?_ ?_ | refine State.Keeps.fst_of ?_ (by assumption)) | split | extract_lets | dsimp -zeta only

theorem State.takeRing_keeps {s t0 : State} {a1 a2 a3 a4 a5 a6} (h0 : s.Keeps t0) :
    s.Keeps (State.takeRing t0 a1 a2 a3 a4 a5 a6) :=
  State.Keeps.ite h0 (State.Keeps.ite (State.ringAt_keeps h0) (State.depart_keeps h0))

theorem State.takeNorm_keeps {s t0 : State} {a1 a2 a3 a4 a5} (h0 : s.Keeps t0) :
    s.Keeps (State.takeNorm t0 a1 a2 a3 a4 a5) := by
  unfold State.takeNorm
  repeat' first | intro _ | (with_reducible first | assumption | apply State.takeRing_keeps | refine State.Keeps.fst_of ?_ (by assumption)) | split | dsimp -zeta only

theorem State.resend_keeps {s t0 : State} {a1} (h0 : s.Keeps t0) :
    s.Keeps (State.resend t0 a1) := by
  unfold State.resend
  repeat' first | intro _ | (with_reducible first | assumption | apply State.putLink_keeps) | extract_lets | dsimp -zeta only | (with_reducible refine State.Keeps.upd ?_)

theorem State.trainFailed_keeps {s t0 : State} {a1} (h0 : s.Keeps t0) :
    s.Keeps (State.trainFailed t0 a1) := by
  unfold State.trainFailed
  repeat' first | intro _ | (with_reducible first | assumption | apply State.putLink_keeps | apply State.raiseOwner_keeps | apply State.setLinkState_keeps | refine State.Keeps.ite ?_ ?_) | split | extract_lets | dsimp -zeta only | (with_reducible refine State.Keeps.upd ?_)

theorem State.showPeer_keeps {s t0 : State} {a1 a2} (h0 : s.Keeps t0) :
    s.Keeps (State.showPeer t0 a1 a2) := by
  unfold State.showPeer
  repeat' first | intro _ | (with_reducible first | assumption | apply State.wr_keeps | apply State.wrF_keeps) | dsimp -zeta only

theorem State.linkUp_keeps {s t0 : State} {a1} (h0 : s.Keeps t0) :
    s.Keeps (State.linkUp t0 a1) := by
  unfold State.linkUp
  repeat' first | intro _ | (with_reducible first | assumption | apply State.wrF_keeps | apply State.putLink_keeps | apply State.setLinkState_keeps | apply State.resend_keeps | refine State.Keeps.ite ?_ ?_) | split | extract_lets | dsimp -zeta only | (with_reducible refine State.Keeps.upd ?_)

theorem State.train_keeps {s t0 : State} {a1 a2} (h0 : s.Keeps t0) :
    s.Keeps (State.train t0 a1 a2) := by
  unfold State.train
  repeat' first | intro _ | (with_reducible first | assumption | apply State.wrF_keeps | apply State.raiseOwner_keeps | apply State.setLinkState_keeps | apply State.trainFailed_keeps | apply State.showPeer_keeps | apply State.linkUp_keeps | refine State.Keeps.ite ?_ ?_) | split | extract_lets | dsimp -zeta only

theorem State.treeSlot_keeps {s t0 : State} {a1} (h0 : s.Keeps t0) :
    s.Keeps (State.treeSlot t0 a1) := by
  unfold State.treeSlot
  repeat' first | intro _ | (with_reducible first | assumption | refine State.Keeps.ite ?_ ?_ | refine State.Keeps.ite_fst ?_ ?_ | refine State.Keeps.fst_of ?_ (by assumption)) | split | extract_lets | dsimp -zeta only | (with_reducible refine State.Keeps.upd ?_)

theorem State.lostReports_keeps {s t0 : State} {a1 a2 a3} (h0 : s.Keeps t0) :
    s.Keeps (State.lostReports t0 a1 a2 a3) := by
  unfold State.lostReports
  repeat' first | intro _ | (with_reducible first | assumption | apply State.wrF_keeps | apply State.bump_keeps | refine State.Keeps.ite ?_ ?_) | split | dsimp -zeta only

theorem State.intake_keeps {s t0 : State} {a1} (h0 : s.Keeps t0) :
    s.Keeps (State.intake t0 a1) := by
  unfold State.intake
  repeat' first | intro _ | (with_reducible first | assumption | apply State.lostReports_keeps | refine State.Keeps.ite ?_ ?_ | refine State.Keeps.foldl _ ?_ (fun _ _ hv => ?_)) | split | extract_lets | dsimp -zeta only | (with_reducible refine State.Keeps.upd ?_)

theorem State.recorderSlot_keeps {s t0 : State} (h0 : s.Keeps t0) :
    s.Keeps (State.recorderSlot t0) := by
  unfold State.recorderSlot
  repeat' first | intro _ | (with_reducible first | assumption | apply State.intake_keeps | refine State.Keeps.fst_of ?_ (by assumption)) | split | extract_lets | dsimp -zeta only | (with_reducible refine State.Keeps.upd ?_)

theorem State.ringEvents_keeps {s t0 : State} {a1 a2} (h0 : s.Keeps t0) :
    s.Keeps (State.ringEvents t0 a1 a2) := by
  unfold State.ringEvents
  repeat' first | intro _ | (with_reducible first | assumption | apply State.sendEvent_keeps | refine State.Keeps.ite ?_ ?_ | refine State.Keeps.foldl _ ?_ (fun _ _ hv => ?_)) | split | dsimp -zeta only

theorem State.addRecord_keeps {s t0 : State} {a1} (h0 : s.Keeps t0) :
    s.Keeps (State.addRecord t0 a1) := by
  unfold State.addRecord
  repeat' first | intro _ | (with_reducible first | assumption | apply State.wr_keeps | apply State.ringEvents_keeps) | extract_lets | dsimp -zeta only | (with_reducible refine State.Keeps.upd ?_)

theorem State.record_keeps {s t0 : State} {a1} (h0 : s.Keeps t0) :
    s.Keeps (State.record t0 a1) := by
  unfold State.record
  repeat' first | intro _ | (with_reducible first | assumption | apply State.bump_keeps | apply State.ringEvents_keeps | apply State.addRecord_keeps | refine State.Keeps.ite ?_ ?_ | refine State.Keeps.ite_fst ?_ ?_ | refine State.Keeps.fst_of ?_ (by assumption)) | split | extract_lets | dsimp -zeta only | (with_reducible refine State.Keeps.upd ?_)

theorem State.putRota_keeps {s t0 : State} {a1 a2} (h0 : s.Keeps t0) :
    s.Keeps (State.putRota t0 a1 a2) := by
  unfold State.putRota
  repeat' first | intro _ | (with_reducible first | assumption) | dsimp -zeta only | (with_reducible refine State.Keeps.upd ?_)

theorem State.linkSlot_keeps {s t0 : State} {a1} (h0 : s.Keeps t0) : s.Keeps (State.linkSlot t0 a1) := by
  unfold State.linkSlot
  extract_lets l x v mine
  refine State.Keeps.ite h0 ?_
  clear_value mine
  have hv : s.Keeps v := State.putRota_keeps h0
  split
  · exact State.putLink_keeps hv
  · exact State.putLink_keeps hv

theorem State.deliver_keeps {s t0 : State} {a1 a2} (h0 : s.Keeps t0) : s.Keeps (State.deliver t0 a1 a2) := by
  unfold State.deliver
  split
  · exact State.atHome_keeps h0
  · exact State.enqueue_keeps h0
  · exact State.finishThread_keeps h0
  · exact State.finishOp_keeps h0
  · exact State.ringAt_keeps h0

theorem State.carry_keeps {s t0 : State} {a1 a2 a3} (h0 : s.Keeps t0) : s.Keeps (State.carry t0 a1 a2 a3) := by
  unfold State.carry
  split
  · exact h0
  · split
    · exact h0
    · exact State.Keeps.ite (State.deliver_keeps (State.Keeps.upd h0)) (State.Keeps.upd (State.Keeps.upd h0))

theorem State.meshSlot_keeps {s t0 : State} {a1 a2} (h0 : s.Keeps t0) :
    s.Keeps (State.meshSlot t0 a1 a2) := by
  unfold State.meshSlot
  repeat' first | intro _ | (with_reducible first | assumption | apply State.advance_keeps | apply State.putRota_keeps | apply State.carry_keeps | refine State.Keeps.fst_of ?_ (by assumption)) | split | extract_lets | dsimp -zeta only

theorem State.slotPasses_keeps {s t0 : State} {a1 a2} (h0 : s.Keeps t0) : s.Keeps (State.slotPasses t0 a1 a2) := by
  unfold State.slotPasses
  extract_lets core
  have hc (t : State) (h : s.Keeps t) : s.Keeps (core t) := State.Keeps.ite h h0
  split
  · exact State.linkSlot_keeps h0
  · exact hc _ (State.treeSlot_keeps h0)
  · exact State.Keeps.ite h0 (State.treeSlot_keeps h0)
  · exact hc _ (State.treeSlot_keeps h0)
  · exact State.Keeps.ite h0 (State.recorderSlot_keeps h0)
  · exact State.Keeps.ite h0 (State.putRota_keeps h0)
  · exact hc _ (State.meshSlot_keeps h0)
  · exact hc _ (State.meshSlot_keeps h0)
  · exact hc _ (State.meshSlot_keeps h0)
  · exact hc _ (State.meshSlot_keeps h0)

theorem State.idle_keeps {s t0 : State} (h0 : s.Keeps t0) :
    s.Keeps (State.idle t0) := by
  unfold State.idle
  repeat' first | intro _ | (with_reducible first | assumption | refine State.Keeps.ite ?_ ?_) | split | dsimp -zeta only | (with_reducible refine State.Keeps.upd ?_)

theorem State.dropImage_keeps {s t0 : State} {a1 a2} (h0 : s.Keeps t0) :
    s.Keeps (State.dropImage t0 a1 a2) := by
  unfold State.dropImage
  repeat' first | intro _ | (with_reducible first | assumption | apply State.putAol_keeps | apply State.putChan_keeps | apply State.putRota_keeps | apply State.idle_keeps | refine State.Keeps.ite ?_ ?_ | refine State.Keeps.ite_fst ?_ ?_ | refine State.Keeps.foldl _ ?_ (fun _ _ hv => ?_) | refine State.Keeps.foldl_fst _ ?_ (fun _ _ hv => ?_)) | split | extract_lets | dsimp -zeta only | (with_reducible refine State.Keeps.upd ?_)

theorem State.clearSched_keeps {s t0 : State} {a1} (h0 : s.Keeps t0) :
    s.Keeps (State.clearSched t0 a1) := by
  unfold State.clearSched
  repeat' first | intro _ | (with_reducible first | assumption | apply State.putPart_keeps | apply State.dropImage_keeps | refine State.Keeps.fst_of ?_ (by assumption)) | split | dsimp -zeta only | (with_reducible refine State.Keeps.upd ?_)

theorem State.enforceImage_keeps {s t0 : State} {a1 a2} (h0 : s.Keeps t0) :
    s.Keeps (State.enforceImage t0 a1 a2) := by
  unfold State.enforceImage
  repeat' first | intro _ | (with_reducible first | assumption | apply State.wrF_keeps | apply State.putPart_keeps | apply State.putAol_keeps | apply State.putChan_keeps | apply State.putRota_keeps | apply State.clearSched_keeps | refine State.Keeps.foldl _ ?_ (fun _ _ hv => ?_) | refine State.Keeps.foldl_fst _ ?_ (fun _ _ hv => ?_) | refine State.Keeps.fst_of ?_ (by assumption)) | split | extract_lets | dsimp -zeta only | (with_reducible refine State.Keeps.upd ?_)

theorem State.enforceFrame_keeps {s t0 : State} {a1} (h0 : s.Keeps t0) :
    s.Keeps (State.enforceFrame t0 a1) := by
  unfold State.enforceFrame
  repeat' first | intro _ | (with_reducible first | assumption | apply State.idle_keeps | refine State.Keeps.ite ?_ ?_ | refine State.Keeps.ite_fst ?_ ?_) | split | extract_lets | dsimp -zeta only | (with_reducible refine State.Keeps.upd ?_)

theorem State.checkDone_keeps {s t0 : State} {a1 a2 a3 a4 a5 a6} (h0 : s.Keeps t0) :
    s.Keeps (State.checkDone t0 a1 a2 a3 a4 a5 a6) := by
  unfold State.checkDone
  repeat' first | intro _ | (with_reducible first | assumption | apply State.tock_keeps | apply State.wr_keeps | apply State.bump_keeps | refine State.Keeps.ite ?_ ?_ | refine State.Keeps.ite_fst ?_ ?_ | refine State.Keeps.fst_of ?_ (by assumption)) | split | extract_lets | dsimp -zeta only

theorem State.loadDone_keeps {s t0 : State} {a1 a2 a3} (h0 : s.Keeps t0) :
    s.Keeps (State.loadDone t0 a1 a2 a3) := by
  unfold State.loadDone
  repeat' first | intro _ | (with_reducible first | assumption | apply State.ringDone_keeps | refine State.Keeps.fst_of ?_ (by assumption)) | split | dsimp -zeta only

theorem State.check_keeps {s t0 : State} (h0 : s.Keeps t0) :
    s.Keeps (State.check t0) := by
  unfold State.check
  repeat' first | intro _ | (with_reducible first | assumption | apply State.enforceImage_keeps | apply State.enforceFrame_keeps | apply State.checkDone_keeps | apply State.loadDone_keeps | refine State.Keeps.ite ?_ ?_ | refine State.Keeps.ite_fst ?_ ?_ | refine State.Keeps.fst_of ?_ (by assumption)) | split | extract_lets | dsimp -zeta only | (with_reducible refine State.Keeps.upd ?_)

theorem State.enterFwd_keeps {s t0 : State} {a1} (h0 : s.Keeps t0) :
    s.Keeps (State.enterFwd t0 a1) := by
  unfold State.enterFwd
  repeat' first | intro _ | (with_reducible first | assumption | apply State.putPart_keeps | apply State.setPhase_keeps | apply State.merge_keeps | apply State.consume_keeps) | extract_lets | dsimp -zeta only | (with_reducible refine State.Keeps.upd ?_)

theorem State.armChans_keeps {s t0 : State} {a1 a2} (h0 : s.Keeps t0) :
    s.Keeps (State.armChans t0 a1 a2) := by
  unfold State.armChans
  repeat' first | intro _ | (with_reducible first | assumption | apply State.wrF_keeps | refine State.Keeps.ite ?_ ?_ | refine State.Keeps.foldl _ ?_ (fun _ _ hv => ?_)) | split | extract_lets | dsimp -zeta only

theorem State.reportStaged_keeps {s t0 : State} {a1} (h0 : s.Keeps t0) :
    s.Keeps (State.reportStaged t0 a1) := by
  unfold State.reportStaged
  repeat' first | intro _ | (with_reducible first | assumption | apply State.reportStep_keeps | refine State.Keeps.ite ?_ ?_) | split | extract_lets | dsimp -zeta only

theorem State.setLive_keeps {s t0 : State} {a1 a2} (h0 : s.Keeps t0) :
    s.Keeps (State.setLive t0 a1 a2) := by
  unfold State.setLive
  repeat' first | intro _ | (with_reducible first | assumption | apply State.putRegion_keeps | apply State.flipPair_keeps | refine State.Keeps.ite ?_ ?_) | split | dsimp -zeta only | (with_reducible refine State.Keeps.upd ?_)

theorem State.applyStaged_keeps {s t0 : State} {a1 a2 a3} (h0 : s.Keeps t0) :
    s.Keeps (State.applyStaged t0 a1 a2 a3) := by
  unfold State.applyStaged
  repeat' first | intro _ | (with_reducible first | assumption | apply State.setLive_keeps | refine State.Keeps.ite ?_ ?_ | refine State.Keeps.ite_fst ?_ ?_ | refine State.Keeps.foldl _ ?_ (fun _ _ hv => ?_) | refine State.Keeps.foldl_fst _ ?_ (fun _ _ hv => ?_)) | split | dsimp -zeta only

theorem State.endStep_keeps {s t0 : State} {a1 a2 a3} (h0 : s.Keeps t0) :
    s.Keeps (State.endStep t0 a1 a2 a3) := by
  unfold State.endStep
  repeat' first | intro _ | (with_reducible first | assumption | apply State.putPart_keeps | apply State.setPhase_keeps | apply State.ringDoneOp_keeps) | extract_lets | dsimp -zeta only | (with_reducible refine State.Keeps.upd ?_)

theorem State.applyRecord_keeps {s t0 : State} {a1 a2} (h0 : s.Keeps t0) :
    s.Keeps (State.applyRecord t0 a1 a2) := by
  unfold State.applyRecord
  repeat' first | intro _ | (with_reducible first | assumption | apply State.wr_keeps | apply State.wrF_keeps | apply State.reportStep_keeps | apply State.applyStaged_keeps | apply State.endStep_keeps) | extract_lets | dsimp -zeta only

theorem State.spanStore_keeps {s t0 : State} {a1 a2 a3} (h0 : s.Keeps t0) :
    s.Keeps (State.spanStore t0 a1 a2 a3) := by
  unfold State.spanStore
  repeat' first | intro _ | (with_reducible first | assumption | apply State.ownStore_keeps | refine State.Keeps.foldl _ ?_ (fun _ _ hv => ?_) | refine State.Keeps.foldl_fst _ ?_ (fun _ _ hv => ?_)) | split | extract_lets | dsimp -zeta only

theorem State.spanLoad_keeps {s t0 : State} {a1 a2 a3} (h0 : s.Keeps t0) :
    s.Keeps (State.spanLoad t0 a1 a2 a3).1 := State.ownLoad_keeps h0

theorem State.showCkpt_keeps {s t0 : State} {a1} (h0 : s.Keeps t0) :
    s.Keeps (State.showCkpt t0 a1) := by
  unfold State.showCkpt
  repeat' first | intro _ | (with_reducible first | assumption | apply State.wr_keeps | refine State.Keeps.fst_of ?_ (by assumption)) | split | dsimp -zeta only

theorem State.ckptImage_keeps {s t0 : State} {a1 a2 a3} (h0 : s.Keeps t0) : s.Keeps (State.ckptImage t0 a1 a2 a3).1 := by
  unfold State.ckptImage
  exact State.Keeps.mk_fst (State.Keeps.foldl_fst _ h0 (fun _ _ hv => State.Keeps.mk_fst (State.spanLoad_keeps hv)))

theorem State.putImage_keeps {s t0 : State} {a1 a2 a3 a4} (h0 : s.Keeps t0) :
    s.Keeps (State.putImage t0 a1 a2 a3 a4) := by
  unfold State.putImage
  repeat' first | intro _ | (with_reducible first | assumption | apply State.setLive_keeps | apply State.spanStore_keeps | refine State.Keeps.foldl _ ?_ (fun _ _ hv => ?_) | refine State.Keeps.foldl_fst _ ?_ (fun _ _ hv => ?_) | refine State.Keeps.fst_of ?_ (by assumption)) | split | extract_lets | dsimp -zeta only

theorem State.writeHeader_keeps {s t0 : State} {a1 a2 a3 a4 a5} (h0 : s.Keeps t0) :
    s.Keeps (State.writeHeader t0 a1 a2 a3 a4 a5) := by
  unfold State.writeHeader
  repeat' first | intro _ | (with_reducible first | assumption | apply State.ownStore_keeps | apply State.showCkpt_keeps | refine State.Keeps.fst_of ?_ (by assumption)) | split | extract_lets | dsimp -zeta only

theorem State.clearHeader_keeps {s t0 : State} {a1 a2 a3} (h0 : s.Keeps t0) :
    s.Keeps (State.clearHeader t0 a1 a2 a3) := by
  unfold State.clearHeader
  repeat' first | intro _ | (with_reducible first | assumption | apply State.ownStore_keeps | apply State.showCkpt_keeps) | dsimp -zeta only

theorem State.writeParts_keeps {s t0 : State} {a1 a2 a3 a4 a5 a6 a7} (h0 : s.Keeps t0) :
    s.Keeps (State.writeParts t0 a1 a2 a3 a4 a5 a6 a7) := by
  unfold State.writeParts
  repeat' first | intro _ | (with_reducible first | assumption | apply State.spanStore_keeps) | split | extract_lets | dsimp -zeta only

theorem State.takeCkpt_keeps {s t0 : State} {a1 a2 a3 a4 a5 a6} (h0 : s.Keeps t0) : s.Keeps (State.takeCkpt t0 a1 a2 a3 a4 a5 a6) :=
  State.writeHeader_keeps (State.writeParts_keeps (State.ckptImage_keeps (State.clearHeader_keeps h0)))

theorem State.restoreTo_keeps {s t0 : State} {a1 a2 a3 a4} (h0 : s.Keeps t0) :
    s.Keeps (State.restoreTo t0 a1 a2 a3 a4) := by
  unfold State.restoreTo
  repeat' first | intro _ | (with_reducible first | assumption | apply State.wr_keeps | apply State.endStep_keeps | apply State.putImage_keeps) | dsimp -zeta only

theorem State.rebuild_keeps {s t0 : State} {a1 a2 a3 a4} (h0 : s.Keeps t0) :
    s.Keeps (State.rebuild t0 a1 a2 a3 a4) := by
  unfold State.rebuild
  repeat' first | intro _ | (with_reducible first | assumption | apply State.writeHeader_keeps | apply State.writeParts_keeps | apply State.restoreTo_keeps | refine State.Keeps.ite ?_ ?_ | refine State.Keeps.ite_fst ?_ ?_ | refine State.Keeps.fst_of ?_ (by assumption)) | split | extract_lets | dsimp -zeta only

theorem State.stopRing_keeps {s t0 : State} {a1 a2} (h0 : s.Keeps t0) :
    s.Keeps (State.stopRing t0 a1 a2) := by
  unfold State.stopRing
  repeat' first | intro _ | (with_reducible first | assumption | apply State.wrF_keeps | apply State.raiseOwner_keeps) | dsimp -zeta only

theorem State.startRing_keeps {s t0 : State} {a1 a2 a3} (h0 : s.Keeps t0) :
    s.Keeps (State.startRing t0 a1 a2 a3) := by
  unfold State.startRing
  repeat' first | intro _ | (with_reducible first | assumption | apply State.wrF_keeps | apply State.stopRing_keeps | refine State.Keeps.ite ?_ ?_) | split | dsimp -zeta only

theorem State.doorbell_keeps {s t0 : State} {a1 a2 a3 a4} (h0 : s.Keeps t0) :
    s.Keeps (State.doorbell t0 a1 a2 a3 a4) := by
  unfold State.doorbell
  repeat' first | intro _ | (with_reducible first | assumption | apply State.putRing_keeps | apply State.stopRing_keeps | refine State.Keeps.ite ?_ ?_) | split | dsimp -zeta only | (with_reducible refine State.Keeps.upd ?_)

theorem State.hostAnswer_keeps {s t0 : State} {a1 a2 a3 a4} (h0 : s.Keeps t0) :
    s.Keeps (State.hostAnswer t0 a1 a2 a3 a4) := by
  unfold State.hostAnswer
  repeat' first | intro _ | (with_reducible first | assumption | apply State.dmaArrive_keeps | refine State.Keeps.ite ?_ ?_ | refine State.Keeps.ite_fst ?_ ?_ | refine State.Keeps.fst_of ?_ (by assumption)) | split | extract_lets | dsimp -zeta only | (with_reducible refine State.Keeps.upd ?_)

theorem State.answer_keeps {s t0 : State} {a1 a2 a3 a4} (h0 : s.Keeps t0) (h4 : ∀ x0, s.Keeps x0 → s.Keeps (a4 x0).1) :
    s.Keeps (State.answer t0 a1 a2 a3 a4) := by
  unfold State.answer
  repeat' first | intro _ | (with_reducible first | assumption | apply h4 | apply State.consume_keeps | apply State.writeCpl_keeps | refine State.Keeps.ite ?_ ?_ | refine State.Keeps.ite_fst ?_ ?_ | refine State.Keeps.fst_of ?_ (by assumption)) | split | extract_lets | dsimp -zeta only

theorem State.addLive_keeps {s t0 : State} {a1 a2 a3} (h0 : s.Keeps t0) :
    s.Keeps (State.addLive t0 a1 a2 a3) := by
  unfold State.addLive
  repeat' first | intro _ | (with_reducible first | assumption | apply State.putRing_keeps) | extract_lets | dsimp -zeta only | (with_reducible refine State.Keeps.upd ?_)

theorem State.await_keeps {s t0 : State} {a1 a2 a3 a4 a5 a6} (h0 : s.Keeps t0) (h6 : ∀ x0, s.Keeps x0 → s.Keeps (a6 x0)) :
    s.Keeps (State.await t0 a1 a2 a3 a4 a5 a6) := by
  unfold State.await
  repeat' first | intro _ | (with_reducible first | assumption | apply h6 | apply State.consume_keeps | apply State.writeCpl_keeps | apply State.addLive_keeps | refine State.Keeps.ite ?_ ?_ | refine State.Keeps.ite_fst ?_ ?_ | refine State.Keeps.fst_of ?_ (by assumption)) | split | extract_lets | dsimp -zeta only

theorem State.loadImem_keeps {s t0 : State} {a1 a2 a3} (h0 : s.Keeps t0) :
    s.Keeps (State.loadImem t0 a1 a2 a3) := by
  unfold State.loadImem
  repeat' first | intro _ | (with_reducible first | assumption | refine State.Keeps.foldl _ ?_ (fun _ _ hv => ?_) | refine State.Keeps.foldl_fst _ ?_ (fun _ _ hv => ?_)) | split | extract_lets | dsimp -zeta only | (with_reducible refine State.Keeps.upd ?_)

theorem State.unloadJob_keeps {s t0 : State} {a1} (h0 : s.Keeps t0) :
    s.Keeps (State.unloadJob t0 a1) := by
  unfold State.unloadJob
  repeat' first | intro _ | (with_reducible first | assumption | apply State.wr_keeps | apply State.wrF_keeps | apply State.putPart_keeps | apply State.setPhase_keeps | apply State.putRegion_keeps | apply State.storeOn_keeps | apply State.clearSched_keeps | refine State.Keeps.ite ?_ ?_ | refine State.Keeps.ite_fst ?_ ?_ | refine State.Keeps.foldl _ ?_ (fun _ _ hv => ?_) | refine State.Keeps.foldl_fst _ ?_ (fun _ _ hv => ?_) | refine State.Keeps.fst_of ?_ (by assumption)) | split | extract_lets | dsimp -zeta only | (with_reducible refine State.Keeps.upd ?_)

theorem State.clearLanes_keeps {s t0 : State} {a1 a2} (h0 : s.Keeps t0) :
    s.Keeps (State.clearLanes t0 a1 a2) := by
  unfold State.clearLanes
  repeat' first | intro _ | (with_reducible first | assumption) | split | extract_lets | dsimp -zeta only | (with_reducible refine State.Keeps.upd ?_)

theorem State.startGroup_keeps {s t0 : State} {a1 a2 a3 a4 a5 a6 a7 a8} (h0 : s.Keeps t0) :
    s.Keeps (State.startGroup t0 a1 a2 a3 a4 a5 a6 a7 a8) := by
  unfold State.startGroup
  repeat' first | intro _ | (with_reducible first | assumption | apply State.putGroup_keeps | apply State.putRotor_keeps | apply State.clearLanes_keeps) | split | extract_lets | dsimp -zeta only | (with_reducible refine State.Keeps.upd ?_)

theorem State.seatPtr_keeps {s t0 : State} {a0 a2} (h0 : s.Keeps t0) : s.Keeps (State.seatPtr a0 t0 a2) :=
  State.Keeps.ite (State.putRotor_keeps h0) h0

theorem State.launch_keeps {s t0 : State} {a1 a2 a3 a4 a5 a6 a7 a8 a9} (h0 : s.Keeps t0) :
    s.Keeps (State.launch t0 a1 a2 a3 a4 a5 a6 a7 a8 a9) := by
  unfold State.launch
  repeat' first | intro _ | (with_reducible first | assumption | apply State.putPart_keeps | apply State.startGroup_keeps | apply State.seatPtr_keeps | refine State.Keeps.foldl _ ?_ (fun _ _ hv => ?_) | refine State.Keeps.foldl_fst _ ?_ (fun _ _ hv => ?_) | refine State.Keeps.fst_of ?_ (by assumption)) | split | extract_lets | dsimp -zeta only | (with_reducible refine State.Keeps.upd ?_)

theorem State.strobeEpochs_keeps {s t0 : State} {a1 a2} (h0 : s.Keeps t0) :
    s.Keeps (State.strobeEpochs t0 a1 a2) := by
  unfold State.strobeEpochs
  repeat' first | intro _ | (with_reducible first | assumption | apply State.updateWrite_keeps | refine State.Keeps.ite ?_ ?_ | refine State.Keeps.foldl _ ?_ (fun _ _ hv => ?_)) | split | extract_lets | dsimp -zeta only | (with_reducible refine State.Keeps.upd ?_)

theorem State.beginStep_keeps {s t0 : State} {a1 a2 a3} (h0 : s.Keeps t0) :
    s.Keeps (State.beginStep t0 a1 a2 a3) := by
  unfold State.beginStep
  repeat' first | intro _ | (with_reducible first | assumption | apply State.wr_keeps | apply State.wrF_keeps | apply State.putPart_keeps | apply State.resetChans_keeps | apply State.strobeEpochs_keeps | refine State.Keeps.ite ?_ ?_) | split | extract_lets | dsimp -zeta only | (with_reducible refine State.Keeps.upd ?_)

theorem State.setClip_keeps {s t0 : State} {a1 a2} (h0 : s.Keeps t0) :
    s.Keeps (State.setClip t0 a1 a2) := by
  unfold State.setClip
  repeat' first | intro _ | (with_reducible first | assumption | apply State.wr_keeps | apply State.wrF_keeps | apply State.putPart_keeps | refine State.Keeps.ite ?_ ?_) | split | extract_lets | dsimp -zeta only | (with_reducible refine State.Keeps.upd ?_)

theorem State.claimHere_keeps {s t0 : State} {a1 a2 a3} (h0 : s.Keeps t0) :
    s.Keeps (State.claimHere t0 a1 a2 a3).1 := by
  unfold State.claimHere
  repeat' first | intro _ | (with_reducible first | assumption | apply State.merge_keeps | apply State.sense_keeps | apply State.inTurn_keeps | apply State.tableInForce_keeps | apply State.copyDir_keeps | refine State.Keeps.ite ?_ ?_ | refine State.Keeps.ite_fst ?_ ?_) | split | extract_lets | dsimp -zeta only

theorem State.loadTable_keeps {s t0 : State} {a1 a2 a3} (h0 : s.Keeps t0) :
    s.Keeps (State.loadTable t0 a1 a2 a3).1 := by
  unfold State.loadTable
  repeat' first | intro _ | (with_reducible first | assumption | apply State.tableInForce_keeps | apply State.claimHere_keeps | refine State.Keeps.ite ?_ ?_ | refine State.Keeps.ite_fst ?_ ?_ | refine State.Keeps.fst_of ?_ (by assumption)) | split | extract_lets | dsimp -zeta only

theorem State.claimThere_keeps {s t0 : State} {a1 a2} (h0 : s.Keeps t0) :
    s.Keeps (State.claimThere t0 a1 a2) := by
  unfold State.claimThere
  repeat' first | intro _ | (with_reducible first | assumption | apply State.sendOp_keeps) | extract_lets | dsimp -zeta only | (with_reducible refine State.Keeps.upd ?_)

theorem State.zeroTiles_keeps {s t0 : State} {a1} (h0 : s.Keeps t0) :
    s.Keeps (State.zeroTiles t0 a1) := by
  unfold State.zeroTiles
  repeat' first | intro _ | (with_reducible first | assumption) | split | dsimp -zeta only | (with_reducible refine State.Keeps.upd ?_)

theorem State.zeroFields_keeps {s t0 : State} {a1} (h0 : s.Keeps t0) :
    s.Keeps (State.zeroFields t0 a1) := by
  unfold State.zeroFields
  repeat' first | intro _ | (with_reducible first | assumption | apply State.zeroOffsets_keeps | apply State.zeroTiles_keeps) | split | dsimp -zeta only

theorem State.firstKeys_keeps {s t0 : State} {a1 a2} (h0 : s.Keeps t0) :
    s.Keeps (State.firstKeys t0 a1 a2) := by
  unfold State.firstKeys
  repeat' first | intro _ | (with_reducible first | assumption | apply State.putKmap_keeps | refine State.Keeps.foldl _ ?_ (fun _ _ hv => ?_)) | split | dsimp -zeta only | (with_reducible refine State.Keeps.upd ?_)

theorem State.freeEntries_keeps {s t0 : State} {a1} (h0 : s.Keeps t0) :
    s.Keeps (State.freeEntries t0 a1) := by
  unfold State.freeEntries
  repeat' first | intro _ | (with_reducible first | assumption | apply State.putRegion_keeps | apply State.putKmap_keeps | refine State.Keeps.foldl _ ?_ (fun _ _ hv => ?_) | refine State.Keeps.foldl_fst _ ?_ (fun _ _ hv => ?_)) | split | extract_lets | dsimp -zeta only

theorem State.putLevel_keeps {s t0 : State} {a1} (h0 : s.Keeps t0) :
    s.Keeps (State.putLevel t0 a1) := by
  unfold State.putLevel
  repeat' first | intro _ | (with_reducible first | assumption | apply State.wrF_keeps | apply State.raiseOwner_keeps | refine State.Keeps.ite ?_ ?_) | split | extract_lets | dsimp -zeta only

theorem State.freshStep_keeps {s t0 : State} {a1} (h0 : s.Keeps t0) :
    s.Keeps (State.freshStep t0 a1) := by
  unfold State.freshStep
  repeat' first | intro _ | (with_reducible first | assumption | apply State.wr_keeps) | dsimp -zeta only

theorem State.grantD2_keeps {s t0 : State} (h0 : s.Keeps t0) :
    s.Keeps (State.grantD2 t0) := by
  unfold State.grantD2
  repeat' first | intro _ | (with_reducible first | assumption | apply State.wrF_keeps | apply State.putPart_keeps | apply State.freeEntries_keeps | apply State.putLevel_keeps | apply State.freshStep_keeps | refine State.Keeps.ite ?_ ?_ | refine State.Keeps.foldl _ ?_ (fun _ _ hv => ?_)) | split | dsimp -zeta only

theorem State.finishScrub_keeps {s t0 : State} {a1} (h0 : s.Keeps t0) :
    s.Keeps (State.finishScrub t0 a1) := by
  unfold State.finishScrub
  repeat' first | intro _ | (with_reducible first | assumption | apply State.zeroOffsets_keeps | apply State.putPart_keeps | apply State.ringDone_keeps | apply State.zeroFields_keeps | apply State.firstKeys_keeps | apply State.freeEntries_keeps | apply State.freshStep_keeps | apply State.grantD2_keeps | refine State.Keeps.fst_of ?_ (by assumption)) | split | extract_lets | dsimp -zeta only | (with_reducible refine State.Keeps.upd ?_)

theorem State.tearCmds_keeps {s t0 : State} {a1} (h0 : s.Keeps t0) :
    s.Keeps (State.tearCmds t0 a1) := by
  unfold State.tearCmds
  repeat' first | intro _ | (with_reducible first | assumption | apply State.ringDone_keeps | refine State.Keeps.foldl _ ?_ (fun _ _ hv => ?_)) | split | dsimp -zeta only

theorem State.forceDown_keeps {s t0 : State} {a1} (h0 : s.Keeps t0) :
    s.Keeps (State.forceDown t0 a1) := by
  unfold State.forceDown
  repeat' first | intro _ | (with_reducible first | assumption | apply State.wrF_keeps | apply State.raise_keeps | apply State.tearPart_keeps | apply State.tearChans_keeps | apply State.disableRing_keeps | apply State.tearCmds_keeps | refine State.Keeps.fst_of ?_ (by assumption)) | split | extract_lets | dsimp -zeta only | (with_reducible refine State.Keeps.upd ?_)

theorem State.clearPoisonBit_keeps {s t0 : State} {a1} (h0 : s.Keeps t0) : s.Keeps (State.clearPoisonBit t0 a1) :=
  State.Keeps.updSec (State.wr_keeps h0) rfl rfl rfl rfl

theorem State.copyUnits_keeps {s t0 : State} {a1 a2 a3} (h0 : s.Keeps t0) :
    s.Keeps (State.copyUnits t0 a1 a2 a3) := by
  unfold State.copyUnits
  repeat' first | intro _ | (with_reducible first | assumption | apply State.spanStore_keeps | refine State.Keeps.foldl _ ?_ (fun _ _ hv => ?_)) | split | dsimp -zeta only

theorem State.verifyUnits_keeps {s t0 : State} {a1 a2 a3} (h0 : s.Keeps t0) : s.Keeps (State.verifyUnits t0 a1 a2 a3).1 := by
  unfold State.verifyUnits
  exact State.Keeps.foldl_fst _ h0 (fun _ _ hv => State.Keeps.mk_fst (State.spanLoad_keeps hv))

theorem State.restoreUnits_keeps {s t0 : State} {a1 a2 a3 a4 a5} (h0 : s.Keeps t0) :
    s.Keeps (State.restoreUnits t0 a1 a2 a3 a4 a5).1 := by
  induction a3 generalizing t0 a4 a5 with
  | zero => exact h0
  | succ n ih =>
    rw [State.restoreUnits]
    split
    rename_i v bad he
    have hv : s.Keeps v := State.Keeps.fst_of (State.verifyUnits_keeps (State.copyUnits_keeps h0)) he
    exact State.Keeps.ite_fst hv (ih hv)

theorem State.restoreShared_keeps {s t0 : State} {a1 a2 a3 a4} (h0 : s.Keeps t0) :
    s.Keeps (State.restoreShared t0 a1 a2 a3 a4) := by
  unfold State.restoreShared
  extract_lets r rep fail
  have hf (v : State) (x : Status) (hv : s.Keeps v) : s.Keeps (fail v x) := State.raise_keeps (State.Keeps.updSec hv rfl rfl rfl rfl)
  refine State.Keeps.ite h0 (State.Keeps.ite (hf _ _ h0) (State.Keeps.ite (hf _ _ h0) ?_))
  split
  rename_i v bad he
  have hv : s.Keeps v := State.Keeps.fst_of (State.restoreUnits_keeps h0) he
  exact State.Keeps.ite (hf _ _ hv) (State.raise_keeps (State.clearPoisonBit_keeps hv))

theorem State.readEvents_keeps {s t0 : State} {a1 a2 a3} (h0 : s.Keeps t0) :
    s.Keeps (State.readEvents t0 a1 a2 a3).1 := by
  unfold State.readEvents
  repeat' first | intro _ | (with_reducible first | assumption | apply State.wr_keeps | apply State.emit_keeps | apply State.releaseRecords_keeps | refine State.Keeps.ite ?_ ?_ | refine State.Keeps.ite_fst ?_ ?_ | refine State.Keeps.foldl _ ?_ (fun _ _ hv => ?_) | refine State.Keeps.foldl_fst _ ?_ (fun _ _ hv => ?_)) | split | extract_lets | dsimp -zeta only

theorem State.putHash_keeps {s t0 : State} {a1 a2} (h0 : s.Keeps t0) :
    s.Keeps (State.putHash t0 a1 a2) := by
  unfold State.putHash
  repeat' first | intro _ | (with_reducible first | assumption | apply State.wr_keeps | refine State.Keeps.foldl _ ?_ (fun _ _ hv => ?_)) | split | dsimp -zeta only

theorem State.showNodes_keeps {s t0 : State} (h0 : s.Keeps t0) :
    s.Keeps (State.showNodes t0) := by
  unfold State.showNodes
  repeat' first | intro _ | (with_reducible first | assumption | apply State.wrF_keeps) | dsimp -zeta only

theorem State.buildNodes_keeps {s t0 : State} {a1} (h0 : s.Keeps t0) : s.Keeps (State.buildNodes t0 a1) :=
  State.showNodes_keeps (State.Keeps.updSec h0 rfl rfl rfl rfl)

theorem State.nextOrder_keeps {s t0 : State} (h0 : s.Keeps t0) :
    s.Keeps (State.nextOrder t0) := by
  unfold State.nextOrder
  repeat' first | intro _ | (with_reducible first | assumption | apply State.wrF_keeps) | dsimp -zeta only

theorem State.showRecord_keeps {s t0 : State} {a1} (h0 : s.Keeps t0) :
    s.Keeps (State.showRecord t0 a1) := by
  unfold State.showRecord
  repeat' first | intro _ | (with_reducible first | assumption | apply State.wr_keeps | refine State.Keeps.foldl _ ?_ (fun _ _ hv => ?_)) | split | dsimp -zeta only

theorem State.bootHistory_keeps {s t0 : State} (h0 : s.Keeps t0) :
    s.Keeps (State.bootHistory t0) := by
  unfold State.bootHistory
  repeat' first | intro _ | (with_reducible first | assumption | apply State.wr_keeps | refine State.Keeps.ite ?_ ?_) | split | extract_lets | dsimp -zeta only | (with_reducible refine State.Keeps.upd ?_)

theorem State.linksOff_keeps {s t0 : State} (h0 : s.Keeps t0) :
    s.Keeps (State.linksOff t0) := by
  unfold State.linksOff
  repeat' first | intro _ | (with_reducible first | assumption | apply State.putLink_keeps | apply State.setLinkState_keeps | refine State.Keeps.ite ?_ ?_ | refine State.Keeps.foldl _ ?_ (fun _ _ hv => ?_)) | split | extract_lets | dsimp -zeta only | (with_reducible refine State.Keeps.upd ?_)

theorem State.trainLinks_keeps {s t0 : State} (h0 : s.Keeps t0) :
    s.Keeps (State.trainLinks t0) := by
  unfold State.trainLinks
  repeat' first | intro _ | (with_reducible first | assumption | apply State.setLinkState_keeps | refine State.Keeps.ite ?_ ?_ | refine State.Keeps.foldl _ ?_ (fun _ _ hv => ?_)) | split | dsimp -zeta only

theorem State.keepFailure_keeps {s t0 : State} {a1} (h0 : s.Keeps t0) : s.Keeps (State.keepFailure t0 a1) := by
  unfold State.keepFailure
  exact State.showRecord_keeps (State.Keeps.updSec h0 rfl rfl rfl rfl)

theorem State.enterBeacon_keeps {s t0 : State} {a1 a2 a3} (h0 : s.Keeps t0) : s.Keeps (State.enterBeacon t0 a1 a2 a3) := by
  unfold State.enterBeacon
  extract_lets v _ w x
  have hv : s.Keeps v := State.Keeps.ite (State.bootHistory_keeps h0) h0
  clear_value v
  have hw : s.Keeps w := State.Keeps.upd hv
  have hx : s.Keeps x := State.keepFailure_keeps hw
  clear_value x
  exact State.setModState_keeps (State.linksOff_keeps (State.wrF_keeps (State.wrF_keeps (State.wrF_keeps hx))))

theorem State.failFields_keeps {s t0 : State} {a1} (h0 : s.Keeps t0) :
    s.Keeps (State.failFields t0 a1) := by
  unfold State.failFields
  repeat' first | intro _ | (with_reducible first | assumption | apply State.enterBeacon_keeps) | dsimp -zeta only | (with_reducible refine State.Keeps.upd ?_)

theorem State.bist_keeps {s t0 : State} {a1} (h0 : s.Keeps t0) :
    s.Keeps (State.bist t0 a1) := by
  unfold State.bist
  repeat' first | intro _ | (with_reducible first | assumption | apply State.nextOrder_keeps | apply State.failFields_keeps | refine State.Keeps.ite ?_ ?_ | refine State.Keeps.ite_fst ?_ ?_) | split | extract_lets | dsimp -zeta only | (with_reducible refine State.Keeps.upd ?_)

theorem State.repairMap_keeps {s t0 : State} (h0 : s.Keeps t0) :
    s.Keeps (State.repairMap t0) := by
  unfold State.repairMap
  repeat' first | intro _ | (with_reducible first | assumption | apply State.wrF_keeps | apply State.raiseOwner_keeps | apply State.nextOrder_keeps | apply State.failFields_keeps | refine State.Keeps.ite ?_ ?_ | refine State.Keeps.foldl _ ?_ (fun _ _ hv => ?_)) | split | extract_lets | dsimp -zeta only | (with_reducible refine State.Keeps.upd ?_)

theorem State.moveChannel_keeps {s t0 : State} {a1 a2 a3 a4 a5} (h0 : s.Keeps t0) :
    s.Keeps (State.moveChannel t0 a1 a2 a3 a4 a5) := by
  unfold State.moveChannel
  repeat' first | intro _ | (with_reducible first | assumption | apply State.putSlot_keeps | apply State.showSlots_keeps | refine State.Keeps.foldl _ ?_ (fun _ _ hv => ?_)) | split | dsimp -zeta only

theorem State.moveChannels_keeps {s t0 : State} {a1} (h0 : s.Keeps t0) :
    s.Keeps (State.moveChannels t0 a1) := by
  unfold State.moveChannels
  repeat' first | intro _ | (with_reducible first | assumption | apply State.putVault_keeps | apply State.failFields_keeps | apply State.moveChannel_keeps | refine State.Keeps.ite ?_ ?_ | refine State.Keeps.ite_fst ?_ ?_ | refine State.Keeps.foldl _ ?_ (fun _ _ hv => ?_) | refine State.Keeps.foldl_fst _ ?_ (fun _ _ hv => ?_)) | split | extract_lets | dsimp -zeta only | (with_reducible refine State.Keeps.upd ?_)

theorem State.showTemps_keeps {s t0 : State} {a1 a2} (h0 : s.Keeps t0) :
    s.Keeps (State.showTemps t0 a1 a2) := by
  unfold State.showTemps
  repeat' first | intro _ | (with_reducible first | assumption | apply State.wrF_keeps) | dsimp -zeta only

theorem State.bootImage_keeps {s t0 : State} {a1} (h0 : s.Keeps t0) : s.Keeps (State.bootImage t0 a1) := by
  unfold State.bootImage
  refine State.Keeps.ite (State.enterBeacon_keeps h0) ?_
  split
  · exact State.enterBeacon_keeps h0
  · exact State.nextOrder_keeps (State.putHash_keeps (State.wr_keeps (State.Keeps.updSec (State.wr_keeps h0) rfl rfl rfl rfl)))

theorem State.loadRegisters_keeps {s t0 : State} (h0 : s.Keeps t0) : s.Keeps (State.loadRegisters t0) := by
  refine State.Keeps.foldl _ (State.putRegion_keeps (State.wrF_keeps (State.wrF_keeps (State.wrF_keeps ?_)))) (fun _ _ hv => ?_)
  · exact ⟨h0.pending, fun _ => rfl, h0.next, h0.last, h0.idOk, h0.res⟩
  · exact State.Keeps.ite (State.wr_keeps hv) hv

theorem State.finishStartup_keeps {s t0 : State} (h0 : s.Keeps t0) :
    s.Keeps (State.finishStartup t0) := by
  unfold State.finishStartup
  repeat' first | intro _ | (with_reducible first | assumption | apply State.zeroSram_keeps | apply State.wrF_keeps | apply State.setModState_keeps | apply State.emit_keeps | apply State.linkUp_keeps | apply State.showRecord_keeps | apply State.linksOff_keeps | refine State.Keeps.ite ?_ ?_) | split | extract_lets | dsimp -zeta only | (with_reducible refine State.Keeps.upd ?_)

theorem State.railCheck_keeps {s t0 t1 : State} {a1} (h0 : s.Keeps t0) (h1 : s.Keeps t1) : s.Keeps (State.railCheck t0 a1 t1) := by
  unfold State.railCheck
  split
  · exact State.enterBeacon_keeps h0
  · exact h1

theorem State.powerEvent_keeps {s t0 : State} (h0 : s.Keeps t0) :
    s.Keeps (State.powerEvent t0) := by
  unfold State.powerEvent
  repeat' first | intro _ | (with_reducible first | assumption | apply State.raise_keeps) | split | dsimp -zeta only

theorem State.setPoint_keeps {s t0 : State} {a1 a2} (h0 : s.Keeps t0) :
    s.Keeps (State.setPoint t0 a1 a2) := by
  unfold State.setPoint
  repeat' first | intro _ | (with_reducible first | assumption | apply State.wrF_keeps) | dsimp -zeta only

theorem State.setCause_keeps {s t0 : State} {a1} (h0 : s.Keeps t0) :
    s.Keeps (State.setCause t0 a1) := by
  unfold State.setCause
  repeat' first | intro _ | (with_reducible first | assumption | apply State.wrF_keeps) | dsimp -zeta only

theorem State.govern_keeps {s t0 : State} {a1 a2 a3} (h0 : s.Keeps t0) :
    s.Keeps (State.govern t0 a1 a2 a3) := by
  unfold State.govern
  repeat' first | intro _ | (with_reducible first | assumption | apply State.powerEvent_keeps | apply State.setPoint_keeps | refine State.Keeps.ite ?_ ?_) | split | extract_lets | dsimp -zeta only

theorem State.enterReef_keeps {s t0 : State} {a1} (h0 : s.Keeps t0) :
    s.Keeps (State.enterReef t0 a1) := by
  unfold State.enterReef
  repeat' first | intro _ | (with_reducible first | assumption | apply State.bump_keeps | apply State.setModState_keeps | apply State.powerEvent_keeps | apply State.setPoint_keeps | apply State.setCause_keeps) | dsimp -zeta only

theorem State.leaveReef_keeps {s t0 : State} (h0 : s.Keeps t0) :
    s.Keeps (State.leaveReef t0) := by
  unfold State.leaveReef
  repeat' first | intro _ | (with_reducible first | assumption | apply State.wrF_keeps | apply State.setModState_keeps) | extract_lets | dsimp -zeta only | (with_reducible refine State.Keeps.upd ?_)

theorem State.endCopies_keeps {s t0 : State} (h0 : s.Keeps t0) :
    s.Keeps (State.endCopies t0) := by
  unfold State.endCopies
  repeat' first | intro _ | (with_reducible first | assumption | apply State.wakeAll_keeps | apply State.stopCopies_keeps | apply State.wakeChans_keeps) | dsimp -zeta only

theorem State.warn_keeps {s t0 : State} {a1} (h0 : s.Keeps t0) :
    s.Keeps (State.warn t0 a1) := by
  unfold State.warn
  repeat' first | intro _ | (with_reducible first | assumption | apply State.enterReef_keeps | apply State.endCopies_keeps) | extract_lets | dsimp -zeta only | (with_reducible refine State.Keeps.upd ?_)

theorem State.saveCores_keeps {s t0 : State} (h0 : s.Keeps t0) :
    s.Keeps (State.saveCores t0) := by
  unfold State.saveCores
  repeat' first | intro _ | (with_reducible first | assumption) | split | dsimp -zeta only | (with_reducible refine State.Keeps.upd ?_)

theorem State.restoreCores_keeps {s t0 : State} (h0 : s.Keeps t0) :
    s.Keeps (State.restoreCores t0) := by
  unfold State.restoreCores
  repeat' first | intro _ | (with_reducible first | assumption) | split | dsimp -zeta only | (with_reducible refine State.Keeps.upd ?_)

theorem State.quiesce_keeps {s t0 : State} (h0 : s.Keeps t0) :
    s.Keeps (State.quiesce t0) := by
  unfold State.quiesce
  repeat' first | intro _ | (with_reducible first | assumption | apply State.stopCopies_keeps) | dsimp -zeta only | (with_reducible refine State.Keeps.upd ?_)

theorem State.enterStrike_keeps {s t0 : State} {a1} (h0 : s.Keeps t0) :
    s.Keeps (State.enterStrike t0 a1) := by
  unfold State.enterStrike
  repeat' first | intro _ | (with_reducible first | assumption | apply State.bump_keeps | apply State.setModState_keeps | apply State.linksOff_keeps | apply State.powerEvent_keeps | apply State.saveCores_keeps | apply State.quiesce_keeps) | extract_lets | dsimp -zeta only | (with_reducible refine State.Keeps.upd ?_)

theorem State.setPfw_keeps {s t0 : State} {a1} (h0 : s.Keeps t0) :
    s.Keeps (State.setPfw t0 a1) := by
  unfold State.setPfw
  repeat' first | intro _ | (with_reducible first | assumption | apply State.wrF_keeps) | dsimp -zeta only | (with_reducible refine State.Keeps.upd ?_)

theorem State.pfwAssert_keeps {s t0 : State} (h0 : s.Keeps t0) :
    s.Keeps (State.pfwAssert t0) := by
  unfold State.pfwAssert
  repeat' first | intro _ | (with_reducible first | assumption | apply State.powerEvent_keeps | apply State.setCause_keeps | apply State.endCopies_keeps | apply State.warn_keeps | apply State.enterStrike_keeps | apply State.setPfw_keeps | refine State.Keeps.ite ?_ ?_) | split | extract_lets | dsimp -zeta only | (with_reducible refine State.Keeps.upd ?_)

theorem State.tearRing_keeps {s t0 : State} {a1} (h0 : s.Keeps t0) :
    s.Keeps (State.tearRing t0 a1) := by
  unfold State.tearRing
  repeat' first | intro _ | (with_reducible first | assumption | apply State.ringDone_keeps | refine State.Keeps.foldl _ ?_ (fun _ _ hv => ?_)) | split | extract_lets | dsimp -zeta only

theorem State.tornJobs_keeps {s t0 : State} {a1} (h0 : s.Keeps t0) :
    s.Keeps (State.tornJobs t0 a1) := by
  unfold State.tornJobs
  repeat' first | intro _ | (with_reducible first | assumption | apply State.reportStep_keeps | refine State.Keeps.foldl _ ?_ (fun _ _ hv => ?_)) | split | dsimp -zeta only

theorem State.tearDiscarded_keeps {s t0 : State} (h0 : s.Keeps t0) :
    s.Keeps (State.tearDiscarded t0) := by
  unfold State.tearDiscarded
  repeat' first | intro _ | (with_reducible first | assumption | apply State.finishThread_keeps | apply State.runtimeDone_keeps | refine State.Keeps.foldl _ ?_ (fun _ _ hv => ?_)) | split | dsimp -zeta only | (with_reducible refine State.Keeps.upd ?_)

theorem State.afterStrike_keeps {s t0 : State} (h0 : s.Keeps t0) :
    s.Keeps (State.afterStrike t0) := by
  unfold State.afterStrike
  repeat' first | intro _ | (with_reducible first | assumption | apply State.wrF_keeps | apply State.tearDma_keeps | apply State.tearPart_keeps | apply State.tearChans_keeps | apply State.holdPart_keeps | apply State.tearRing_keeps | apply State.tornJobs_keeps | apply State.tearDiscarded_keeps | refine State.Keeps.foldl _ ?_ (fun _ _ hv => ?_) | refine State.Keeps.foldl_fst _ ?_ (fun _ _ hv => ?_)) | split | extract_lets | dsimp -zeta only | (with_reducible refine State.Keeps.upd ?_)

theorem State.calibrate_keeps {s t0 : State} (h0 : s.Keeps t0) : s.Keeps (State.calibrate t0) :=
  State.Keeps.foldl _ h0 (fun _ _ hv => State.Keeps.upd hv)

theorem State.leaveStrike_keeps {s t0 : State} (h0 : s.Keeps t0) : s.Keeps (State.leaveStrike t0) := by
  have h1 : s.Keeps ((((t0.restoreCores.calibrate.setPoint 0 16).wrF oPwrState 12 1 0).wrF oPwrState 9 1 0)) :=
    State.wrF_keeps (State.wrF_keeps (State.setPoint_keeps (State.calibrate_keeps (State.restoreCores_keeps h0))))
  exact State.powerEvent_keeps (State.Keeps.ite (State.setModState_keeps (State.Keeps.upd h1))
    (State.setModState_keeps (State.afterStrike_keeps (State.trainLinks_keeps (State.Keeps.upd h1)))))

theorem State.powerCmd_keeps {s t0 : State} {a1 a2 a3 a4} (h0 : s.Keeps t0) (h4 : ∀ x0, s.Keeps x0 → s.Keeps (a4 x0)) :
    s.Keeps (State.powerCmd t0 a1 a2 a3 a4) := by
  unfold State.powerCmd
  repeat' first | intro _ | (with_reducible first | assumption | apply h4 | apply State.answer_keeps) | split | extract_lets | dsimp -zeta only

theorem State.putCore_keeps {s t0 : State} {a1 a2} (h0 : s.Keeps t0) :
    s.Keeps (State.putCore t0 a1 a2) := by
  unfold State.putCore
  repeat' first | intro _ | (with_reducible first | assumption) | dsimp -zeta only | (with_reducible refine State.Keeps.upd ?_)

theorem State.secDone_keeps {s t0 : State} {a1 a2 a3 a4 a5} (h0 : s.Keeps t0) :
    s.Keeps (State.secDone t0 a1 a2 a3 a4 a5) := by
  unfold State.secDone
  repeat' first | intro _ | (with_reducible first | assumption | apply State.wrF_keeps | apply State.raiseOwner_keeps | apply State.writeCpl_keeps | refine State.Keeps.ite ?_ ?_) | split | extract_lets | dsimp -zeta only

theorem State.secAnswer_keeps {s t0 : State} {a1 a2 a3 a4} (h0 : s.Keeps t0) (h4 : ∀ x0, s.Keeps x0 → s.Keeps (a4 x0).1) :
    s.Keeps (State.secAnswer t0 a1 a2 a3 a4) := by
  unfold State.secAnswer
  repeat' first | intro _ | (with_reducible first | assumption | apply h4 | apply State.consume_keeps | apply State.secDone_keeps | refine State.Keeps.ite ?_ ?_ | refine State.Keeps.ite_fst ?_ ?_ | refine State.Keeps.fst_of ?_ (by assumption)) | split | extract_lets | dsimp -zeta only

theorem State.clearTenants_keeps {s t0 : State} (h0 : s.Keeps t0) :
    s.Keeps (State.clearTenants t0) := by
  unfold State.clearTenants
  repeat' first | intro _ | (with_reducible first | assumption | apply State.putPart_keeps | apply State.putRegion_keeps | apply State.ringDone_keeps | apply State.reportStep_keeps | apply State.clearSched_keeps | apply State.forceDown_keeps | apply State.clearPoisonBit_keeps | refine State.Keeps.foldl _ ?_ (fun _ _ hv => ?_) | refine State.Keeps.foldl_fst _ ?_ (fun _ _ hv => ?_) | refine State.Keeps.fst_of ?_ (by assumption)) | split | extract_lets | dsimp -zeta only | (with_reducible refine State.Keeps.upd ?_)

theorem State.tapSet_keeps {s t0 : State} {a1 a2} (h0 : s.Keeps t0) :
    s.Keeps (State.tapSet t0 a1 a2) := by
  unfold State.tapSet
  repeat' first | intro _ | (with_reducible first | assumption) | dsimp -zeta only | (with_reducible refine State.Keeps.upd ?_)

theorem State.tapRun_keeps {s t0 : State} {a1 a2 a3} (h0 : s.Keeps t0) (h3 : ∀ x0, s.Keeps x0 → s.Keeps (a3 x0)) :
    s.Keeps (State.tapRun t0 a1 a2 a3) := by
  unfold State.tapRun
  repeat' first | intro _ | (with_reducible first | assumption | apply h3 | apply State.tapSet_keeps | refine State.Keeps.ite ?_ ?_) | split | dsimp -zeta only

end Sys2Proof.Machine
end

