-- ==== Sys2Proof/Laws/PerInstr.lean ====
section
/-! SUPPORT. Statements made once per command: which commands a thread issues, and what their well-formedness says of the place of issue. -/

namespace Sys2Proof.Laws.Issuers

/-- Where a thread instruction issues; no other command issues from a thread. -/
def issuer : Instr → Option Iss
  | .iadd i _ _ _ | .isub i _ _ _ | .imul i _ _ _ | .imulh i _ _ _ | .imad i _ _ _ _ | .iand i _ _ _
  | .ior i _ _ _ | .ixor i _ _ _ | .shl i _ _ _ | .shr i _ _ _ | .sar i _ _ _ | .imin i _ _ _ _ | .imax i _ _ _ _
  | .sel i _ _ _ _ | .mov i _ _ | .popc i _ _ | .clz i _ _ | .fadd i _ _ _ | .fsub i _ _ _ | .fmul i _ _ _
  | .ffma i _ _ _ _ | .fmin i _ _ _ | .fmax i _ _ _ | .cvt i _ _ _ _ _ | .cvtBlk i _ _ _ _ | .i2f i _ _ _
  | .f2i i _ _ _ | .isetp i _ _ _ _ _ | .fsetp i _ _ _ _ | .pand i _ _ _ | .por i _ _ _ | .pxor i _ _ _
  | .p2g i _ | .g2p i _ | .bra i _ | .call i _ | .ret i | .exit i | .insnNop i | .sys i _ _ | .ldt i _ _ _ _ _
  | .stt i _ _ _ _ | .ldg i _ _ _ _ _ | .stg i _ _ _ _ | .fenceM i | .atomT i _ _ _ _ _ _ _ | .atomG i _ _ _ _ _ _
  | .shf i _ _ _ _ _ | .vote i _ _ _ _ | .post i _ _ _ _ | .take i _ _ | .mxi i _ _ _ | .mxw i _ _ | .flush i _
  | .dmakGo i _ _ _ | .dmakWait i _ _ => some i
  | _ => none

/-- Only a thread instruction can be in a form that the program-load command rejects (R92, R103), and a thread instruction whose
units exist issues on a tile of the module, under a guard among p0 to p7 (R92, R105). -/
def Statement (c : Instr) : Prop :=
  (issuer c = none → c.loadable = true) ∧ ∀ x, issuer c = some x → c.units = true → x.tile < 12288 ∧ x.gpred < 8

/-- A thread instruction whose units exist issues where it may. -/
theorem issOk_of_units (c : Instr) (x : Iss) (h : issuer c = some x) (u : c.units = true) : issOk x = true := by
  cases c <;> cases h
  all_goals (simp only [Instr.units, Bool.and_eq_true] at u; simp only [u])

theorem of_thread (c : Instr) (x : Iss) (h : issuer c = some x) : Statement c := by
  refine ⟨fun n => by simp [h] at n, fun y hy u => ?_⟩
  simpa [issOk, tileOk, predOk] using issOk_of_units c y hy u

theorem of_other (c : Instr) (h : issuer c = none) (l : c.loadable = true) : Statement c :=
  ⟨fun _ => l, fun x hx => by simp [h] at hx⟩

theorem iadd (i : Iss) (d a : Nat) (b : Opd) : Statement (.iadd i d a b) :=
  of_thread _ i rfl
theorem isub (i : Iss) (d a : Nat) (b : Opd) : Statement (.isub i d a b) :=
  of_thread _ i rfl
theorem imul (i : Iss) (d a : Nat) (b : Opd) : Statement (.imul i d a b) :=
  of_thread _ i rfl
theorem imulh (i : Iss) (d a : Nat) (b : Opd) : Statement (.imulh i d a b) :=
  of_thread _ i rfl
theorem imad (i : Iss) (d a : Nat) (b : Opd) (c : Nat) : Statement (.imad i d a b c) :=
  of_thread _ i rfl
theorem iand (i : Iss) (d a : Nat) (b : Opd) : Statement (.iand i d a b) :=
  of_thread _ i rfl
theorem ior (i : Iss) (d a : Nat) (b : Opd) : Statement (.ior i d a b) :=
  of_thread _ i rfl
theorem ixor (i : Iss) (d a : Nat) (b : Opd) : Statement (.ixor i d a b) :=
  of_thread _ i rfl
theorem shl (i : Iss) (d a : Nat) (b : Opd) : Statement (.shl i d a b) :=
  of_thread _ i rfl
theorem shr (i : Iss) (d a : Nat) (b : Opd) : Statement (.shr i d a b) :=
  of_thread _ i rfl
theorem sar (i : Iss) (d a : Nat) (b : Opd) : Statement (.sar i d a b) :=
  of_thread _ i rfl
theorem imin (i : Iss) (signed : Bool) (d a : Nat) (b : Opd) : Statement (.imin i signed d a b) :=
  of_thread _ i rfl
theorem imax (i : Iss) (signed : Bool) (d a : Nat) (b : Opd) : Statement (.imax i signed d a b) :=
  of_thread _ i rfl
theorem sel (i : Iss) (d a : Nat) (b : Opd) (p : Nat) : Statement (.sel i d a b p) :=
  of_thread _ i rfl
theorem mov (i : Iss) (d : Nat) (b : Opd) : Statement (.mov i d b) :=
  of_thread _ i rfl
theorem popc (i : Iss) (d a : Nat) : Statement (.popc i d a) :=
  of_thread _ i rfl
theorem clz (i : Iss) (d a : Nat) : Statement (.clz i d a) :=
  of_thread _ i rfl
theorem fadd (i : Iss) (d : Nat) (a b : FOpd) : Statement (.fadd i d a b) :=
  of_thread _ i rfl
theorem fsub (i : Iss) (d : Nat) (a b : FOpd) : Statement (.fsub i d a b) :=
  of_thread _ i rfl
theorem fmul (i : Iss) (d : Nat) (a b : FOpd) : Statement (.fmul i d a b) :=
  of_thread _ i rfl
theorem ffma (i : Iss) (d : Nat) (a b c : FOpd) : Statement (.ffma i d a b c) :=
  of_thread _ i rfl
theorem fmin (i : Iss) (d : Nat) (a b : FOpd) : Statement (.fmin i d a b) :=
  of_thread _ i rfl
theorem fmax (i : Iss) (d : Nat) (a b : FOpd) : Statement (.fmax i d a b) :=
  of_thread _ i rfl
theorem cvt (i : Iss) (d a : Nat) (b : Opd) (c : Nat) (m : CvtMod) : Statement (.cvt i d a b c m) :=
  of_thread _ i rfl
theorem cvtBlk (i : Iss) (d a b : Nat) (m : CvtMod) : Statement (.cvtBlk i d a b m) :=
  of_thread _ i rfl
theorem i2f (i : Iss) (signed : Bool) (d a : Nat) : Statement (.i2f i signed d a) :=
  of_thread _ i rfl
theorem f2i (i : Iss) (signed : Bool) (d a : Nat) : Statement (.f2i i signed d a) :=
  of_thread _ i rfl
theorem isetp (i : Iss) (c : Cmp) (signed : Bool) (pd a : Nat) (b : Opd) : Statement (.isetp i c signed pd a b) :=
  of_thread _ i rfl
theorem fsetp (i : Iss) (c : Cmp) (pd : Nat) (a b : FOpd) : Statement (.fsetp i c pd a b) :=
  of_thread _ i rfl
theorem pand (i : Iss) (pd pa pb : Nat) : Statement (.pand i pd pa pb) :=
  of_thread _ i rfl
theorem por (i : Iss) (pd pa pb : Nat) : Statement (.por i pd pa pb) :=
  of_thread _ i rfl
theorem pxor (i : Iss) (pd pa pb : Nat) : Statement (.pxor i pd pa pb) :=
  of_thread _ i rfl
theorem p2g (i : Iss) (d : Nat) : Statement (.p2g i d) :=
  of_thread _ i rfl
theorem g2p (i : Iss) (a : Nat) : Statement (.g2p i a) :=
  of_thread _ i rfl
theorem bra (i : Iss) (t : Target) : Statement (.bra i t) :=
  of_thread _ i rfl
theorem call (i : Iss) (t : Target) : Statement (.call i t) :=
  of_thread _ i rfl
theorem ret (i : Iss) : Statement (.ret i) :=
  of_thread _ i rfl
theorem exit (i : Iss) : Statement (.exit i) :=
  of_thread _ i rfl
theorem insnNop (i : Iss) : Statement (.insnNop i) :=
  of_thread _ i rfl
theorem sys (i : Iss) (d sel : Nat) : Statement (.sys i d sel) :=
  of_thread _ i rfl
theorem ldt (i : Iss) (w : Width) (sx : Bool) (d a : Nat) (b : Opd) : Statement (.ldt i w sx d a b) :=
  of_thread _ i rfl
theorem stt (i : Iss) (w : Width) (d a : Nat) (b : Opd) : Statement (.stt i w d a b) :=
  of_thread _ i rfl
theorem ldg (i : Iss) (w : Width) (sx retire : Bool) (d a : Nat) : Statement (.ldg i w sx retire d a) :=
  of_thread _ i rfl
theorem stg (i : Iss) (w : Width) (retire : Bool) (d a : Nat) : Statement (.stg i w retire d a) :=
  of_thread _ i rfl
theorem fenceM (i : Iss) : Statement (.fenceM i) :=
  of_thread _ i rfl
theorem atomT (i : Iss) (fn : AtomFn) (grp : Option Opd) (d a : Nat) (off : Opd) (b c : Nat) : Statement (.atomT i fn grp d a off b c) :=
  of_thread _ i rfl
theorem atomG (i : Iss) (fn : AtomFn) (grp : Option Opd) (d a : Nat) (b c : Nat) : Statement (.atomG i fn grp d a b c) :=
  of_thread _ i rfl
theorem shf (i : Iss) (m : ShfMode) (d a : Nat) (b mask : Opd) : Statement (.shf i m d a b mask) :=
  of_thread _ i rfl
theorem vote (i : Iss) (m : VoteMode) (d pa : Nat) (mask : Opd) : Statement (.vote i m d pa mask) :=
  of_thread _ i rfl
theorem post (i : Iss) (cell : Opd) (n : Nat) (self : Bool) (a : Nat) : Statement (.post i cell n self a) :=
  of_thread _ i rfl
theorem take (i : Iss) (cell : Opd) (n : Nat) : Statement (.take i cell n) :=
  of_thread _ i rfl
theorem mxi (i : Iss) (d a imm : Nat) : Statement (.mxi i d a imm) :=
  of_thread _ i rfl
theorem mxw (i : Iss) (d t : Nat) : Statement (.mxw i d t) :=
  of_thread _ i rfl
theorem flush (i : Iss) (mask : Nat) : Statement (.flush i mask) :=
  of_thread _ i rfl
theorem dmakGo (i : Iss) (ch : Opd) (a imm : Nat) : Statement (.dmakGo i ch a imm) :=
  of_thread _ i rfl
theorem dmakWait (i : Iss) (d : Nat) (ch : Opd) : Statement (.dmakWait i d ch) :=
  of_thread _ i rfl
theorem entryMerge (tile a b : Nat) : Statement (.entryMerge tile a b) :=
  of_other _ rfl rfl
theorem carrierRepack (tile a b : Nat) : Statement (.carrierRepack tile a b) :=
  of_other _ rfl rfl
theorem stallEvent (place wait : Nat) (adder : Bool) : Statement (.stallEvent place wait adder) :=
  of_other _ rfl rfl
theorem orderListEntry (r : ListRes) (u : Upsets) : Statement (.orderListEntry r u) :=
  of_other _ rfl rfl
theorem rotaSlot (r : RotaRes) (u : Upsets) : Statement (.rotaSlot r u) :=
  of_other _ rfl rfl
theorem scheduleCheck : Statement (.scheduleCheck) :=
  of_other _ rfl rfl
theorem mxdTakeUp (tile : Nat) (u : Upsets) : Statement (.mxdTakeUp tile u) :=
  of_other _ rfl rfl
theorem mxdStart (tile job : Nat) (u ua : Upsets) : Statement (.mxdStart tile job u ua) :=
  of_other _ rfl rfl
theorem stationaryLoadDone (tile job : Nat) (u : Upsets) : Statement (.stationaryLoadDone tile job u) :=
  of_other _ rfl rfl
theorem mxdComplete (tile job : Nat) (u ua : Upsets) : Statement (.mxdComplete tile job u ua) :=
  of_other _ rfl rfl
theorem tieSum (p : Nat) (u ua : Upsets) : Statement (.tieSum p u ua) :=
  of_other _ rfl rfl
theorem dmaCopy (r : Req) (ch : DmaCh) : Statement (.dmaCopy r ch) :=
  of_other _ rfl rfl
theorem dmaPack (r : Req) (ch : DmaCh) : Statement (.dmaPack r ch) :=
  of_other _ rfl rfl
theorem dmaUnpack (r : Req) (ch : DmaCh) : Statement (.dmaUnpack r ch) :=
  of_other _ rfl rfl
theorem fieldRowBroadcast (r : Req) (ch : DmaCh) : Statement (.fieldRowBroadcast r ch) :=
  of_other _ rfl rfl
theorem dmaReadBackDone (ch : DmaCh) (u : Upsets) : Statement (.dmaReadBackDone ch u) :=
  of_other _ rfl rfl
theorem homeAccess (n : Nat) (u : Upsets) : Statement (.homeAccess n u) :=
  of_other _ rfl rfl
theorem cacheAccess (half n : Nat) (u : Upsets) : Statement (.cacheAccess half n u) :=
  of_other _ rfl rfl
theorem cacheFill (half n : Nat) (u : Upsets) : Statement (.cacheFill half n u) :=
  of_other _ rfl rfl
theorem thrashEvent (half : Nat) : Statement (.thrashEvent half) :=
  of_other _ rfl rfl
theorem refreshInterval (field site : Nat) (t0 t1 t2 t3 : Nat) (u : Upsets) : Statement (.refreshInterval field site t0 t1 t2 t3 u) :=
  of_other _ rfl rfl
theorem tileStoreScrub (tile pair : Nat) (u : Upsets) : Statement (.tileStoreScrub tile pair u) :=
  of_other _ rfl rfl
theorem recalibration (field site ch : Nat) (ok : Bool) : Statement (.recalibration field site ch ok) :=
  of_other _ rfl rfl
theorem rowRemap (field site ch bank row : Nat) (u : Upsets) : Statement (.rowRemap field site ch bank row u) :=
  of_other _ rfl rfl
theorem laneGroupSpare (field site ch symbol : Nat) : Statement (.laneGroupSpare field site ch symbol) :=
  of_other _ rfl rfl
theorem slotMoveCopy (r : Req) (field site : Nat) (v : Word) : Statement (.slotMoveCopy r field site v) :=
  of_other _ rfl rfl
theorem slotSwitchPoison (r : Req) (field site : Nat) (v : Word) : Statement (.slotSwitchPoison r field site v) :=
  of_other _ rfl rfl
theorem slotCopyDone (field site : Nat) (u : Upsets) : Statement (.slotCopyDone field site u) :=
  of_other _ rfl rfl
theorem pinFillDone (half entry : Nat) (u : Upsets) : Statement (.pinFillDone half entry u) :=
  of_other _ rfl rfl
theorem cacheClean (r : Req) (half len : Nat) : Statement (.cacheClean r half len) :=
  of_other _ rfl rfl
theorem cacheDrop (r : Req) (half len : Nat) : Statement (.cacheDrop r half len) :=
  of_other _ rfl rfl
theorem cacheOpDone (half : Nat) (u : Upsets) : Statement (.cacheOpDone half u) :=
  of_other _ rfl rfl
theorem regionCommit (r : Req) (v : Word) : Statement (.regionCommit r v) :=
  of_other _ rfl rfl
theorem regionFlip (r : Req) (v : Word) : Statement (.regionFlip r v) :=
  of_other _ rfl rfl
theorem keyMapCommit (r : Req) (v : Word) : Statement (.keyMapCommit r v) :=
  of_other _ rfl rfl
theorem routeCommit (r : Req) (v : Word) : Statement (.routeCommit r v) :=
  of_other _ rfl rfl
theorem linkRemap (r : Req) (g : Nat) (v : Word) : Statement (.linkRemap r g v) :=
  of_other _ rfl rfl
theorem keeperSet (r : Req) (v : Word) : Statement (.keeperSet r v) :=
  of_other _ rfl rfl
theorem teardown (r : Req) (v : Word) : Statement (.teardown r v) :=
  of_other _ rfl rfl
theorem livenessIncrement : Statement (.livenessIncrement) :=
  of_other _ rfl rfl
theorem livenessRound (m : Nat) (downs : List (Nat × Nat)) (hops : List ((Nat × Nat) × (Nat × Nat))) :
    Statement (.livenessRound m downs hops) :=
  of_other _ rfl rfl
theorem keeperTakeover (reachable : List Nat) : Statement (.keeperTakeover reachable) :=
  of_other _ rfl rfl
theorem keeperReport (jobSlot m : Nat) (memLost : List Nat) (ckpts : List (Nat × List Nat)) : Statement (.keeperReport jobSlot m memLost ckpts) :=
  of_other _ rfl rfl
theorem fwdEnter (p : Nat) : Statement (.fwdEnter p) :=
  of_other _ rfl rfl
theorem bwdEnter (p : Nat) : Statement (.bwdEnter p) :=
  of_other _ rfl rfl
theorem bwdClose (p : Nat) : Statement (.bwdClose p) :=
  of_other _ rfl rfl
theorem clipEnter (p : Nat) (u : Upsets) : Statement (.clipEnter p u) :=
  of_other _ rfl rfl
theorem commitEnter (p : Nat) : Statement (.commitEnter p) :=
  of_other _ rfl rfl
theorem recordOrder (p : Nat) : Statement (.recordOrder p) :=
  of_other _ rfl rfl
theorem discardOrder (p : Nat) : Statement (.discardOrder p) :=
  of_other _ rfl rfl
theorem recoveryReplay (p : Nat) (b : Option Rebuild) (u : Upsets) : Statement (.recoveryReplay p b u) :=
  of_other _ rfl rfl
theorem checkpoint (p : Nat) (largest : Nat) (othersValid : Bool) (peers : List (Nat × List (List Nib))) (u : Upsets) : Statement (.checkpoint p largest othersValid peers u) :=
  of_other _ rfl rfl
theorem rollBack (p c : Nat) (decodable : Bool) (u : Upsets) : Statement (.rollBack p c decodable u) :=
  of_other _ rfl rfl
theorem bucketStart (p c : Nat) (u : Upsets) : Statement (.bucketStart p c u) :=
  of_other _ rfl rfl
theorem idleFlit (k : Nat) (h : RxHdr) : Statement (.idleFlit k h) :=
  of_other _ rfl rfl
theorem fabricReq (k : Nat) (h : RxHdr) (b : ReqBody) : Statement (.fabricReq k h b) :=
  of_other _ rfl rfl
theorem fabricRsp (k : Nat) (h : RxHdr) (b : RspBody) (u : Upsets) : Statement (.fabricRsp k h b u) :=
  of_other _ rfl rfl
theorem reduce (k : Nat) (h : RxHdr) (b : ReduceBody) (u : Upsets) : Statement (.reduce k h b u) :=
  of_other _ rfl rfl
theorem norm (k : Nat) (h : RxHdr) (b : NormBody) (u : Upsets) : Statement (.norm k h b u) :=
  of_other _ rfl rfl
theorem normResult (k : Nat) (h : RxHdr) (b : NormResultBody) (u : Upsets) : Statement (.normResult k h b u) :=
  of_other _ rfl rfl
theorem reservedKindFlit (k : Nat) (h : RxHdr) (kind : Nat) : Statement (.reservedKindFlit k h kind) :=
  of_other _ rfl rfl
theorem linkReplay (k : Nat) : Statement (.linkReplay k) :=
  of_other _ rfl rfl
theorem linkTraining (k : Nat) (t : TrainResult) : Statement (.linkTraining k t) :=
  of_other _ rfl rfl
theorem linkTrainingTimeout (k order : Nat) : Statement (.linkTrainingTimeout k order) :=
  of_other _ rfl rfl
theorem linkRetrain (k : Nat) (replays : Bool) : Statement (.linkRetrain k replays) :=
  of_other _ rfl rfl
theorem laneSignalLoss (k lane : Nat) : Statement (.laneSignalLoss k lane) :=
  of_other _ rfl rfl
theorem linkEnable (r : Req) (k : Nat) : Statement (.linkEnable r k) :=
  of_other _ rfl rfl
theorem linkDisable (r : Req) (k : Nat) : Statement (.linkDisable r k) :=
  of_other _ rfl rfl
theorem linkCtrlRetrain (r : Req) (k : Nat) : Statement (.linkCtrlRetrain r k) :=
  of_other _ rfl rfl
theorem update (r : Req) (v : Word) : Statement (.update r v) :=
  of_other _ rfl rfl
theorem blockUpdateApply (base : Nat) : Statement (.blockUpdateApply base) :=
  of_other _ rfl rfl
theorem strobedWrite (r : Req) (off : Nat) (v : Word) : Statement (.strobedWrite r off v) :=
  of_other _ rfl rfl
theorem guardedFirstWrite (r : Req) (off : Nat) (v : Word) : Statement (.guardedFirstWrite r off v) :=
  of_other _ rfl rfl
theorem guardTwinWrite (r : Req) (off : Nat) (v : Word) : Statement (.guardTwinWrite r off v) :=
  of_other _ rfl rfl
theorem bitAliasWrite (r : Req) (off bit : Nat) (b : Bool) : Statement (.bitAliasWrite r off bit b) :=
  of_other _ rfl rfl
theorem registerWrite (r : Req) (off : Nat) (v : Word) : Statement (.registerWrite r off v) :=
  of_other _ rfl rfl
theorem mctpRegisterAccess (op byteOff : Nat) (v : Word) : Statement (.mctpRegisterAccess op byteOff v) :=
  of_other _ rfl rfl
theorem tgFaultValid (r : Req) (field site : Nat) : Statement (.tgFaultValid r field site) :=
  of_other _ rfl rfl
theorem vltThrottlePeakValid (r : Req) (field site : Nat) : Statement (.vltThrottlePeakValid r field site) :=
  of_other _ rfl rfl
theorem vltErrNonzero (r : Req) (field site ch : Nat) : Statement (.vltErrNonzero r field site ch) :=
  of_other _ rfl rfl
theorem vltErrAddrValid (r : Req) (field site : Nat) : Statement (.vltErrAddrValid r field site) :=
  of_other _ rfl rfl
theorem tsErrNonzero (r : Req) (field site : Nat) : Statement (.tsErrNonzero r field site) :=
  of_other _ rfl rfl
theorem tsErrAddrValid (r : Req) (field site : Nat) : Statement (.tsErrAddrValid r field site) :=
  of_other _ rfl rfl
theorem scStatusThrash (r : Req) (half : Nat) : Statement (.scStatusThrash r half) :=
  of_other _ rfl rfl
theorem scErrNonzero (r : Req) (half : Nat) : Statement (.scErrNonzero r half) :=
  of_other _ rfl rfl
theorem fabErrNonzero (r : Req) : Statement (.fabErrNonzero r) :=
  of_other _ rfl rfl
theorem linkReplayNonzero (r : Req) (k : Nat) : Statement (.linkReplayNonzero r k) :=
  of_other _ rfl rfl
theorem mcGuardValid (r : Req) : Statement (.mcGuardValid r) :=
  of_other _ rfl rfl
theorem evrLostNonzero (r : Req) : Statement (.evrLostNonzero r) :=
  of_other _ rfl rfl
theorem rgnPoisonClear (r : Req) (entry : Nat) : Statement (.rgnPoisonClear r entry) :=
  of_other _ rfl rfl
theorem evrRelease (r : Req) (v : Word) : Statement (.evrRelease r v) :=
  of_other _ rfl rfl
theorem replicaCommit (r : Req) (v : Word) : Statement (.replicaCommit r v) :=
  of_other _ rfl rfl
theorem hostDmaRing (r : Req) (n : Nat) (v : Word) : Statement (.hostDmaRing r n v) :=
  of_other _ rfl rfl
theorem hostDmaList (r : Req) (hi : Bool) (v : Word) : Statement (.hostDmaList r hi v) :=
  of_other _ rfl rfl
theorem pwrCtrlWake (r : Req) : Statement (.pwrCtrlWake r) :=
  of_other _ rfl rfl
theorem ringEnable (r : Req) (ring : Nat) (reply : HostReply) (db : List Word) : Statement (.ringEnable r ring reply db) :=
  of_other _ rfl rfl
theorem ringDisable (r : Req) (ring : Nat) : Statement (.ringDisable r ring) :=
  of_other _ rfl rfl
theorem doorbellNotify (ring : Nat) (reply : HostReply) (cmdProd cplCons : Word) : Statement (.doorbellNotify ring reply cmdProd cplCons) :=
  of_other _ rfl rfl
theorem pcieCompletionTimeout (n : Nat) : Statement (.pcieCompletionTimeout n) :=
  of_other _ rfl rfl
theorem nop (c : Cmd) : Statement (.nop c) :=
  of_other _ rfl rfl
theorem fence (c : Cmd) : Statement (.fence c) :=
  of_other _ rfl rfl
theorem progLoad (c : Cmd) (first : Nat) (fields : Long) (reply : HostReply) (insns : List Long) (bad tied : Bool) (lim : StepLimits) : Statement (.progLoad c first fields reply insns bad tied lim) :=
  of_other _ rfl rfl
theorem schedLoad (c : Cmd) (reply : HostReply) (img : SchedImage) : Statement (.schedLoad c reply img) :=
  of_other _ rfl rfl
theorem regionDefine (c : Cmd) (d0 d1 d3 : Word) : Statement (.regionDefine c d0 d1 d3) :=
  of_other _ rfl rfl
theorem jobUnload (c : Cmd) : Statement (.jobUnload c) :=
  of_other _ rfl rfl
theorem kernelLaunch (c : Cmd) (entry : Nat) (repack : Bool) (slots : BitVec 16) (fields : Long) (args kid : Nat) : Statement (.kernelLaunch c entry repack slots fields args kid) :=
  of_other _ rfl rfl
theorem kernelComplete (kid : Nat) : Statement (.kernelComplete kid) :=
  of_other _ rfl rfl
theorem kernelAbort (c : Cmd) (kid : Nat) : Statement (.kernelAbort c kid) :=
  of_other _ rfl rfl
theorem dmaXfer (c : Cmd) (h : Nat) (paired : Bool) (reply : HostReply) (img : List Word) : Statement (.dmaXfer c h paired reply img) :=
  of_other _ rfl rfl
theorem cacheOp (c : Cmd) (line16 len kind : Nat) : Statement (.cacheOp c line16 len kind) :=
  of_other _ rfl rfl
theorem pin (c : Cmd) (line16 len : Nat) (fill : Bool) : Statement (.pin c line16 len fill) :=
  of_other _ rfl rfl
theorem unpin (c : Cmd) (v : Nat) : Statement (.unpin c v) :=
  of_other _ rfl rfl
theorem stepBegin (c : Cmd) (index : Word) (reply : HostReply) (b : Batches) : Statement (.stepBegin c index reply b) :=
  of_other _ rfl rfl
theorem stepAbort (c : Cmd) : Statement (.stepAbort c) :=
  of_other _ rfl rfl
theorem clipSet (c : Cmd) (reply : HostReply) (v : Clip) : Statement (.clipSet c reply v) :=
  of_other _ rfl rfl
theorem tieDeclare (c : Cmd) (reply : HostReply) (t : Tie) : Statement (.tieDeclare c reply t) :=
  of_other _ rfl rfl
theorem stepQuery (c : Cmd) (p : Nat) : Statement (.stepQuery c p) :=
  of_other _ rfl rfl
theorem stepTable (c : Cmd) (reply : HostReply) (t : StepTable) (u : Upsets) : Statement (.stepTable c reply t u) :=
  of_other _ rfl rfl
theorem partCreate (c : Cmd) (p : Nat) (quads : BitVec 16) (job key : Nat) : Statement (.partCreate c p quads job key) :=
  of_other _ rfl rfl
theorem partDestroy (c : Cmd) (p : Nat) (force : Bool) : Statement (.partDestroy c p force) :=
  of_other _ rfl rfl
theorem scrubComplete (n : Nat) : Statement (.scrubComplete n) :=
  of_other _ rfl rfl
theorem frameLoad (c : Cmd) (reply : HostReply) (img : FrameImage) : Statement (.frameLoad c reply img) :=
  of_other _ rfl rfl
theorem sharedCreate (c : Cmd) (base len key replica : Nat) : Statement (.sharedCreate c base len key replica) :=
  of_other _ rfl rfl
theorem sharedSeal (c : Cmd) (e : Nat) : Statement (.sharedSeal c e) :=
  of_other _ rfl rfl
theorem keyGrant (c : Cmd) (p e : Nat) (module : Nat) (anymod : Bool) (base len key : Nat) : Statement (.keyGrant c p e module anymod base len key) :=
  of_other _ rfl rfl
theorem keyRevoke (c : Cmd) (p e : Nat) : Statement (.keyRevoke c p e) :=
  of_other _ rfl rfl
theorem sharedDestroy (c : Cmd) (e : Nat) : Statement (.sharedDestroy c e) :=
  of_other _ rfl rfl
theorem epochSet (c : Cmd) (tag : Word) : Statement (.epochSet c tag) :=
  of_other _ rfl rfl
theorem moduleQuery (c : Cmd) : Statement (.moduleQuery c) :=
  of_other _ rfl rfl
theorem powerQuery (c : Cmd) : Statement (.powerQuery c) :=
  of_other _ rfl rfl
theorem powerReef (c : Cmd) : Statement (.powerReef c) :=
  of_other _ rfl rfl
theorem powerReefLeave (c : Cmd) : Statement (.powerReefLeave c) :=
  of_other _ rfl rfl
theorem powerStrike (c : Cmd) : Statement (.powerStrike c) :=
  of_other _ rfl rfl
theorem powerDormant (c : Cmd) : Statement (.powerDormant c) :=
  of_other _ rfl rfl
theorem powerWake (c : Cmd) : Statement (.powerWake c) :=
  of_other _ rfl rfl
theorem powerLimits (c : Cmd) (cap lo hi : Nat) : Statement (.powerLimits c cap lo hi) :=
  of_other _ rfl rfl
theorem eventRead (c : Cmd) (buf : Long) (len n : Nat) (release : Bool) : Statement (.eventRead c buf len n release) :=
  of_other _ rfl rfl
theorem reset (c : Cmd) : Statement (.reset c) :=
  of_other _ rfl rfl
theorem certRead (c : Cmd) (buf : Long) (len : Nat) : Statement (.certRead c buf len) :=
  of_other _ rfl rfl
theorem attest (c : Cmd) (buf : Long) (len part : Nat) (nonce : BitVec 256) : Statement (.attest c buf len part nonce) :=
  of_other _ rfl rfl
theorem revokeUpdate (c : Cmd) (reply : HostReply) (l : Revocation) : Statement (.revokeUpdate c reply l) :=
  of_other _ rfl rfl
theorem fwInstall (c : Cmd) (reply : HostReply) (img : FwImage) : Statement (.fwInstall c reply img) :=
  of_other _ rfl rfl
theorem debugSet (c : Cmd) (level : Nat) (reply : HostReply) (token : Option Signed) : Statement (.debugSet c level reply token) :=
  of_other _ rfl rfl
theorem lifecycle (c : Cmd) (target : Nat) (reply : HostReply) (token : Option Signed) : Statement (.lifecycle c target reply token) :=
  of_other _ rfl rfl
theorem signQuery (c : Cmd) : Statement (.signQuery c) :=
  of_other _ rfl rfl
theorem nodeCacheBuild : Statement (.nodeCacheBuild) :=
  of_other _ rfl rfl
theorem idcode : Statement (.idcode) :=
  of_other _ rfl rfl
theorem bypass : Statement (.bypass) :=
  of_other _ rfl rfl
theorem secStatus : Statement (.secStatus) :=
  of_other _ rfl rfl
theorem samplePreload (cells : Nat) : Statement (.samplePreload cells) :=
  of_other _ rfl rfl
theorem extest (cells : Nat) : Statement (.extest cells) :=
  of_other _ rfl rfl
theorem regRead (off : Nat) : Statement (.regRead off) :=
  of_other _ rfl rfl
theorem regWrite (off : Nat) (v : Word) : Statement (.regWrite off v) :=
  of_other _ rfl rfl
theorem coreHalt (core : Nat) : Statement (.coreHalt core) :=
  of_other _ rfl rfl
theorem coreStep (core : Nat) : Statement (.coreStep core) :=
  of_other _ rfl rfl
theorem mem (addr : Long) (k : AccKind) (u : Upsets) : Statement (.mem addr k u) :=
  of_other _ rfl rfl
theorem powerUpReset : Statement (.powerUpReset) :=
  of_other _ rfl rfl
theorem resetN : Statement (.resetN) :=
  of_other _ rfl rfl
theorem jtagReset : Statement (.jtagReset) :=
  of_other _ rfl rfl
theorem perstN : Statement (.perstN) :=
  of_other _ rfl rfl
theorem startupOrderComplete (d : OrderData) : Statement (.startupOrderComplete d) :=
  of_other _ rfl rfl
theorem startupOrderTimeout : Statement (.startupOrderTimeout) :=
  of_other _ rfl rfl
theorem coolantWaitTimeout : Statement (.coolantWaitTimeout) :=
  of_other _ rfl rfl
theorem lampTimer : Statement (.lampTimer) :=
  of_other _ rfl rfl
theorem pfwNAssert : Statement (.pfwNAssert) :=
  of_other _ rfl rfl
theorem undervoltageWarning : Statement (.undervoltageWarning) :=
  of_other _ rfl rfl
theorem pfwNRelease : Statement (.pfwNRelease) :=
  of_other _ rfl rfl
theorem holdEnd : Statement (.holdEnd) :=
  of_other _ rfl rfl
theorem resume : Statement (.resume) :=
  of_other _ rfl rfl
theorem bulkStoreCollapse : Statement (.bulkStoreCollapse) :=
  of_other _ rfl rfl
theorem governorSample (watts avg1 avg10 volt amps : Nat) : Statement (.governorSample watts avg1 avg10 volt amps) :=
  of_other _ rfl rfl
theorem protectiveHold (field : Nat) (junction : Nat) (supplyBad : Bool) : Statement (.protectiveHold field junction supplyBad) :=
  of_other _ rfl rfl
theorem protectiveHoldExit (field : Nat) (junction : Nat) (supplyBad : Bool) (u : Upsets) : Statement (.protectiveHoldExit field junction supplyBad u) :=
  of_other _ rfl rfl
theorem sharedRestore (entry : Nat) (status : Status) (data : List Nib) (verify : List Upsets) : Statement (.sharedRestore entry status data verify) :=
  of_other _ rfl rfl
theorem recorderTake : Statement (.recorderTake) :=
  of_other _ rfl rfl
theorem recordWrite : Statement (.recordWrite) :=
  of_other _ rfl rfl
theorem shortRepairDone (field site ch : Nat) (u : Upsets) : Statement (.shortRepairDone field site ch u) :=
  of_other _ rfl rfl
theorem unpinComplete (half entry : Nat) (u : Upsets) : Statement (.unpinComplete half entry u) :=
  of_other _ rfl rfl
theorem controlCoreStop (core : Nat) : Statement (.controlCoreStop core) :=
  of_other _ rfl rfl
theorem coolantCrossing (inlet outlet : Nat) : Statement (.coolantCrossing inlet outlet) :=
  of_other _ rfl rfl
theorem pcieLinkUp : Statement (.pcieLinkUp) :=
  of_other _ rfl rfl
theorem hostReadCompletion (n : Nat) (reply : HostReply) (data : List Nib) (u : Upsets) : Statement (.hostReadCompletion n reply data u) :=
  of_other _ rfl rfl

end Sys2Proof.Laws.Issuers
end

