-- ==== Sys2Proof/Tests/Slice0.lean ====
section
/-! SUPPORT. The model's own tests: well-formedness, single steps with results worked out from the rules of spec/, and for every statement a state and operands that meet its hypotheses (witness_<statement>, one theorem for each clause). -/

set_option Elab.async false

namespace Sys2Proof.Tests

open Sys2Proof.Machine Sys2Proof.Claim

/-! ### Small states -/

/-- READY after start-up. -/
def up : State := State.reset.setModState stReady

/-- A live group with REPACK, and an entry at instruction 5. -/
def grp : Group := { groupFree with live := true, kernel := 65537, args := 256, repack := true }
def ent : Entry := { lanes := [0, 1], pc := 5, wait := .none, stalled := false }

/-- A rotor of some entries that stands at the first, with nothing in its pipe. -/
def rot (l : List Entry) : Rotor := { entries := l, ptr := 0, mate := none, pipe := [] }
def iss : Iss := { tile := 0, entry := 0, gpred := 7, gneg := false, fetch := 0, mem := [] }
def thr : State := (up.putGroup 0 0 grp).putRotor 0 (rot [ent])
def fr (r : Nat) : FOpd := { src := .reg r, neg := false, abs := false }

/-- A control core under an owner command, which may write what the owner or the runtime may; a command of a ring. -/
def rt : Req := { id := 0, ownerCmd := true }
def on (r : Nat) : Cmd := { ring := r, tag := 1, reserved := false }

/-! ### Well-formedness: an ill-formed term for each check, and the largest term that passes -/

theorem smoke_units : tileOk 12288 = false ∧ fieldOk 64 = false ∧ siteOk 63 196 = false ∧ chanOk 0 0 4 = false ∧ linkOk 64 = false ∧
    halfOk 2 = false ∧ partOk 16 = false ∧ coreOk 32 = false ∧ tileOk 12287 = true ∧ siteOk 63 195 = true ∧ linkOk 63 = true := by decide

theorem smoke_operands : regOk 64 = false ∧ predOk 8 = false ∧ opdOk (.reg 64) = false ∧ opdOk (.imm 0xFFFFFFFF) = true ∧
    fopdOk (fr 64) = false ∧ targetOk (.direct 8192) = false ∧ targetOk (.ind 64) = false ∧ targetOk (.direct 8191) = true ∧
    issOk { iss with tile := 12288 } = false ∧ issOk { iss with gpred := 8 } = false := by decide

theorem smoke_senders : reqOk { id := 0x34, ownerCmd := false } = false ∧ reqOk { id := 0x3FF, ownerCmd := false } = false ∧
    reqOk { id := 0x800, ownerCmd := false } = false ∧ reqOk { id := 0x7FF, ownerCmd := false } = true ∧ cmdOk (on 17) = false ∧
    cmdOk (on 16) = true := by decide

theorem smoke_resources : listOk (.banks 12288) = false ∧ listOk (.matrix 12288) = false ∧ listOk (.vault 0 0 4) = false ∧
    listOk (.dmaPath 64) = false ∧ rotaOk (.mesh 0 0 4) = false ∧ rotaOk (.link 64) = false ∧ rotaOk (.slice 0 16) = false ∧
    rotaOk (.interHalf 2) = false ∧ rotaOk (.fieldTree 64) = false ∧ rotaOk (.crescentTree 4) = false ∧ rotaOk (.linkTree 4) = false ∧
    dmaChOk (.field 0 8) = false ∧ dmaChOk (.host 16) = false ∧ kindOk (.post 0 64 1) = false := by decide

theorem smoke_units_of_commands : (Instr.rowRemap 0 0 0 32 0 []).units = false ∧ (Instr.rowRemap 0 0 0 0 4096 []).units = false ∧
    (Instr.laneGroupSpare 0 0 0 36).units = false ∧ (Instr.pinFillDone 0 8 []).units = false ∧ (Instr.linkRemap rt 8 0).units = false ∧
    (Instr.livenessRound 1024 [] []).units = false ∧ (Instr.keeperReport 64 0 [] []).units = false ∧ (Instr.bucketStart 0 32 []).units = false ∧
    (Instr.laneSignalLoss 0 8).units = false ∧ (Instr.bitAliasWrite rt 0 32 true).units = false ∧ (Instr.rgnPoisonClear rt 4096).units = false ∧
    (Instr.hostDmaRing rt 4 0).units = false ∧ (Instr.tileStoreScrub 0 16 []).units = false ∧ (Instr.stallEvent 0 16).units = false := by decide

/-- R65, R67, R92, R95, R98, R102, R103, R119, R127, R131: the forms that program load rejects. -/
theorem smoke_load : (Instr.cvt iss 1 2 (.imm 0) 3 { src := 6, dst := 0, ctrl := 0 }).loadable = false ∧
    (Instr.cvt iss 1 2 (.imm 0) 3 { src := 0, dst := 0, ctrl := 4 }).loadable = false ∧
    (Instr.cvt iss 0 2 (.imm 0) 3 { src := 0, dst := 1, ctrl := 1 }).loadable = false ∧
    (Instr.cvt iss 1 2 (.imm 0) 3 { src := 0, dst := 1, ctrl := 0 }).loadable = false ∧
    (Instr.cvtBlk iss 1 3 4 { src := 1, dst := 12, ctrl := 0 }).loadable = false ∧ (Instr.sys iss 1 9).loadable = false ∧
    (Instr.ldt iss .n16 false 1 2 (.imm 0)).loadable = false ∧ (Instr.ldg iss .n1 false false 1 3).loadable = false ∧
    (Instr.atomG iss .add none 1 3 4 5).loadable = false ∧ (Instr.vote iss .all 8 0 (.imm 1)).loadable = false ∧
    (Instr.post iss (.imm 0) 0 true 1).loadable = false ∧ (Instr.post iss (.imm 0) 65536 true 1).loadable = false ∧
    (Instr.take iss (.imm 0) 65536).loadable = false ∧ (Instr.flush iss 16).loadable = false := by decide

/-! ### Thread instructions -/

theorem witness_IntegerResults : ∀ op ∈ intOps, (op.1 iss 1 2 (.reg 3)).wf = true ∧ Issues thr iss (need 0 [1] [2, 3]) ent := by decide

theorem witness_IntegerOtherResults : Issues thr iss (need 0 [1] [2, 4, 3]) ent ∧
    Issues thr iss { need 0 [1] [2, 3] with preads := [6] } ent ∧ Issues thr iss (need 0 [1] [3]) ent ∧ Issues thr iss (need 0 [1] [2]) ent := by
  decide

theorem witness_FloatResults : (∀ op ∈ fpOps, (op.1 iss 1 (fr 2) (fr 3)).wf = true) ∧ Issues thr iss (need 1 [1] [2, 3]) ent ∧
    (Instr.ffma iss 1 (fr 2) (fr 3) (fr 4)).wf = true ∧ Issues thr iss (need 1 [1] [2, 3, 4]) ent := by decide

/-- NaN against a number, and −0 against +0, in lanes 0 and 1. -/
def nans : State := (((thr.setG 0 0 2 0x7FC00000).setG 0 0 3 0x3F800000).setG 0 1 2 0x80000000)

theorem witness_FloatMinMaxRule : (Instr.fmin iss 1 (fr 2) (fr 3)).wf = true ∧ Issues nans iss (need 1 [1] [2, 3]) ent ∧
    f32Val (fpCode nans 0 0 (fr 2)) = .nan ∧ f32Val (fpCode nans 0 0 (fr 3)) ≠ .nan ∧
    fpCode nans 0 1 (fr 2) = 0x80000000#32 ∧ fpCode nans 0 1 (fr 3) = 0#32 := by decide

/-- Number, NaN and both NaN; and +0 against −0. -/
def nans2 : State := (((thr.setG 0 0 3 0x7FC00000).setG 0 0 2 0x3F800000).setG 0 1 3 0x80000000)

theorem witness_FloatMinMaxRule_swapped : f32Val (fpCode nans2 0 0 (fr 2)) ≠ .nan ∧ f32Val (fpCode nans2 0 0 (fr 3)) = .nan ∧
    f32Val (fpCode nans2 0 0 { fr 3 with neg := true }) = .nan ∧ fpCode nans2 0 1 (fr 2) = 0#32 ∧
    fpCode nans2 0 1 (fr 3) = 0x80000000#32 ∧ Issues nans2 iss (need 1 [1] [2, 3]) ent := by decide

/-- F32 to P32 at the last even pair, and to a block-scaled format from an infinity under the scale xFF. -/
theorem witness_ConvertResults : (Instr.cvt iss 62 2 (.imm 0) 4 { src := 0, dst := 1, ctrl := 0 }).wf = true ∧
    fmtOf 0 = some .f32 ∧ fmtOf 1 = some .p32 ∧ Issues thr iss (need 2 (fmtRegs .p32 62) (fmtRegs .f32 2)) ent ∧
    (Instr.cvt iss 1 2 (.imm 0) 4 { src := 0, dst := 12, ctrl := 3 }).wf = true ∧ (∃ f, fmtOf 12 = some f ∧ f.scaled = true) ∧
    Issues thr iss (need 2 [1] [2, 4]) ent ∧ (thr.setG 0 0 2 0x7F800000).cvtSrc 0 0 2 .f32 0 = .inf false := by decide

theorem witness_IntegerFloatConversions : Issues thr iss (need 2 [1] [2]) ent ∧ Issues thr iss (need 2 [1] [2, 2]) ent ∧
    f32Val ((thr.setG 0 0 2 0xC0000000).g 0 0 2) = .fin true ⟨-0x800000, -22⟩ ∧ ((-0x800000 : Int) = -2 * 2 ^ 22) := by decide

theorem witness_PredicateResults : (Instr.isetp iss .lt true 7 2 (.imm 0)).wf = true ∧
    Issues thr iss { need 3 [] [2] with pwrites := [7] } ent ∧ (Instr.fsetp iss .ge 0 (fr 2) (fr 3)).wf = true ∧
    Issues thr iss { need 3 [] [2, 3] with pwrites := [0] } ent ∧ (∀ op ∈ predOps, (op.1 iss 6 7 0).wf = true) ∧
    Issues thr iss { need 3 [] [] with preads := [7, 0], pwrites := [6] } ent ∧
    Issues thr iss { need 3 [63] [] with preads := List.range 8 } ent ∧ Issues thr iss { need 3 [] [63] with pwrites := List.range 8 } ent := by
  decide

/-- The first and the last selector (R95). -/
theorem witness_SysAndNopResults : (Instr.sys iss 1 0).wf = true ∧ (Instr.sys iss 1 8).wf = true ∧ Issues thr iss (need 12 [1] []) ent ∧
    issOk iss = true ∧ Issues thr iss (need 4 [] []) ent := by decide

theorem witness_BranchesSplitEntries : targetOk (.direct 8191) = true ∧ targetOk (.ind 63) = true ∧ ent.lanes.Pairwise (· < ·) ∧
    Issues thr iss (need 4 [] (targetRegs (.direct 8191))) ent ∧ Issues thr iss (need 4 [63] (targetRegs (.ind 63))) ent ∧
    Issues thr iss (need 4 [] [63]) ent := by decide

theorem witness_ExitEndsLanes : issOk iss = true ∧ Issues thr iss (need 4 [] []) ent ∧ thr.entries 0 = [ent] ∧ thr.pipe 0 = [] ∧
    (thr.group 0 0).live = true ∧ (thr.group 0 0).halted = false ∧
    (thr.group 0 0).exited ||| laneMask 0 ent.lanes ≠ 0xFFFFFFFF#32 := by decide

/-- Lanes 0 and 1 are the last of the group. -/
def last2 : State := thr.putGroup 0 0 { grp with exited := 0xFFFFFFFC }

theorem witness_ExitEndsLanes_last : Issues last2 iss (need 4 [] []) ent ∧ last2.entries 0 = [ent] ∧
    (last2.group 0 0).exited ||| laneMask 0 (ent.lanes.filter (last2.guardOn 0 7 false)) = 0xFFFFFFFF#32 ∧
    ({ last2 with rotors := [] } : State).slotQuiet 0 0 = true := by decide

/-- Two entries at one program counter: lanes of one group, and of two groups. -/
def pair1 : State := thr.putRotor 0 (rot [ent, { ent with lanes := [2] }])
def pair2 : State := (thr.putGroup 0 1 { grp with index := 1 }).putRotor 0 (rot [ent, { ent with lanes := [32] }])

theorem witness_EntriesJoin : pair1.inService = true ∧ (pair1.entries 0)[0]? = some ent ∧ pair1.runnable 0 ent = true ∧
    pair1.runnable 0 { ent with lanes := [2] } = true ∧
    (pair1.entries 0)[1]? = some { ent with lanes := [2] } ∧ (∃ L ∈ ent.lanes, ∃ L' ∈ [2], L / 32 = L' / 32) := by decide

theorem witness_EntriesJoin_repack : pair2.runnable 0 ent = true ∧ pair2.runnable 0 { ent with lanes := [32] } = true ∧ (pair2.entries 0)[0]? = some ent ∧ (pair2.entries 0)[1]? = some { ent with lanes := [32] } ∧
    (∀ L ∈ ent.lanes, ∀ L' ∈ [32], L / 32 ≠ L' / 32) ∧
    ∃ k, ∀ L, L ∈ ent.lanes ∨ L ∈ [32] → (pair2.group 0 (L / 32)).repack = true ∧ (pair2.group 0 (L / 32)).kernel = k :=
  ⟨by decide, by decide, by decide, by decide, by decide, 65537, fun L h =>
    (by decide : ∀ L ∈ [0, 1, 32], (pair2.group 0 (L / 32)).repack = true ∧ (pair2.group 0 (L / 32)).kernel = 65537) L
      (by simpa [ent, or_assoc] using h)⟩

/-- A group that waits at a TAKE, with events on, and after its report; and with events off. -/
def waits (seen : Bool) : State := (thr.putRotor 0 (rot [{ ent with wait := .take 0 1, stalled := seen }])).wr oChkStall 1

theorem witness_StallEventsReport : (waits false).inService = true ∧ (waits false).rd oChkStall ≠ 0 ∧ (thr.wr oChkStall 0).rd oChkStall = 0 ∧
    ((waits false).entries 0).filter (fun x => x.wait.stalls && x.lanes.any (fun L => L / 32 == 0) && !x.stalled) =
      [{ ent with wait := .take 0 1 }] ∧
    ((waits true).entries 0).filter (fun x => x.wait.stalls && x.lanes.any (fun L => L / 32 == 0) && !x.stalled) = [] := by decide

/-- The entry at the pointer comes last: with another runnable entry it is not its turn, and it is the other's. -/
theorem witness_RotorVisitsInOrder : issOk iss = true ∧ (pair1.entries 0)[0]? = some ent ∧ pair1.visits iss (need 4 [] []) = false ∧
    pair1.visits { iss with entry := 1 } (need 4 [] []) = true ∧ (pair1.rotor 0).mate = none ∧ ((waits true).entries 0)[0]? =
      some { ent with wait := .take 0 1, stalled := true } := by decide

/-! ### Tile store and global memory -/

/-- The last N16 of the tile store, and one word at its start. -/
def top : State := thr.setG 0 0 2 0x5FFFF0

theorem witness_TileLoadResults : (Instr.ldt iss .n16 false 4 2 (.imm 0)).wf = true ∧ Issues top iss (need 5 (widthRegs .n16 4) [2]) ent ∧
    BanksFree top 0 ∧
    (∀ L, Active top iss ent L → tileAddrOk (top.g 0 L 2 + top.opd 0 L (.imm 0)).toNat 16 = true ∧
      top.readsPoison [] (storeBase 0 + (top.g 0 L 2 + top.opd 0 L (.imm 0)).toNat) 16 = false ∧
      OwnClear top 0 L (storeBase 0 + (top.g 0 L 2 + top.opd 0 L (.imm 0)).toNat) 16) :=
  ⟨by decide, by decide, by decide, fun L h => (by decide : ∀ L ∈ ent.lanes,
    tileAddrOk (top.g 0 L 2 + top.opd 0 L (.imm 0)).toNat 16 = true ∧
      top.readsPoison [] (storeBase 0 + (top.g 0 L 2 + top.opd 0 L (.imm 0)).toNat) 16 = false ∧
      OwnClear top 0 L (storeBase 0 + (top.g 0 L 2 + top.opd 0 L (.imm 0)).toNat) 16) L h.1⟩

theorem witness_TileStoreResults : (Instr.stt iss .n16 4 2 (.imm 0)).wf = true ∧ ent.lanes.Pairwise (· < ·) ∧
    Issues top iss (need 5 [] (widthRegs .n16 4 ++ [2])) ent ∧ BanksFree top 0 ∧
    (∀ L, Active top iss ent L → let a := storeBase 0 + (top.g 0 L 2 + top.opd 0 L (.imm 0)).toNat
      tileAddrOk (a - storeBase 0) 16 = true ∧ top.storeFenced 0 (a - storeBase 0) = false ∧ top.writesDropped a = false ∧
      top.anyPoison a 16 = false ∧ OwnClear top 0 L a 16) :=
  ⟨by decide, by decide, by decide, by decide, fun L h => (by decide : ∀ L ∈ ent.lanes,
    let a := storeBase 0 + (top.g 0 L 2 + top.opd 0 L (.imm 0)).toNat
    tileAddrOk (a - storeBase 0) 16 = true ∧ top.storeFenced 0 (a - storeBase 0) = false ∧ top.writesDropped a = false ∧
      top.anyPoison a 16 = false ∧ OwnClear top 0 L a 16) L h.1⟩

/-- One lane, with the address of the first word of tile 0's store in class b00 (R290) in g3:g2. -/
def one : Entry := { ent with lanes := [0] }
def glob : State := ((up.putGroup 0 0 grp).putRotor 0 (rot [one])).setG 0 0 3 0xE00

theorem witness_GlobalAccessesReachTheirHome : (Instr.ldg iss .n8 false true 4 2).wf = true ∧
    Issues glob iss (need 6 (widthRegs .n8 4) [2, 3]) one ∧ Issues glob iss (need 6 [] (widthRegs .n8 4 ++ [2, 3])) one ∧
    glob.pipe 0 = [] ∧ one.lanes.filter (glob.guardOn 0 7 false) = [0] ∧
    glob.sourceTest (glob.g 0 0 3 ++ glob.g 0 0 2) 8 = .ok ∧ glob.addrHome (glob.g 0 0 3 ++ glob.g 0 0 2) = glob.moduleId := by decide

theorem witness_TileAtomicsApplyInLaneOrder : (Instr.atomT iss .fadd none 1 2 (.imm 0) 4 5).wf = true ∧
    Issues thr iss (need 7 [1] [2, 4]) ent ∧ AtomReady thr iss ent none ∧ BanksFree thr 0 ∧
    ent.lanes.filter (thr.guardOn 0 7 false) = [0, 1] ∧ (∀ L ∈ ent.lanes, (thr.g 0 L 2 + thr.opd 0 L (.imm 0)).toNat = 0) ∧
    tileAddrOk 0 8 = true ∧ thr.storeFenced 0 0 = false ∧ thr.writesDropped (storeBase 0 + 0) = false ∧
    thr.anyPoison (storeBase 0 + 0) 8 = false ∧ (∀ L ∈ ent.lanes, OwnClear thr 0 L (storeBase 0 + 0) 8) :=
  ⟨by decide, by decide, trivial, by decide, by decide, by decide, by decide, by decide, by decide, by decide, by decide⟩

/-- GROUP = 1: the lanes stand together under the mask 3. -/
theorem witness_TileAtomicsApplyInLaneOrder_group : AtomReady thr iss ent (some (.imm 3)) :=
  ⟨0, 3, by decide, by decide⟩

theorem witness_GlobalAtomicsCombine : (Instr.atomG iss .cas none 1 2 4 5).wf = true ∧ Issues glob iss (need 7 [1] [2, 3, 4, 5]) one ∧
    glob.pipe 0 = [] ∧ one.lanes.filter (glob.guardOn 0 7 false) ≠ [] ∧
    (∀ L ∈ one.lanes, glob.g 0 L 3 ++ glob.g 0 L 2 = 0xE0000000000#64) ∧
    glob.sourceTest 0xE0000000000 8 = .ok ∧ glob.addrHome 0xE0000000000 = glob.moduleId := by decide

theorem witness_FenceWaitsForAccesses : Issues thr iss (need 6 [] []) ent ∧ thr.entries 0 = [ent] ∧ ent.lanes ≠ [] ∧ thr.pipe 0 = [] ∧
    (thr.group 0 0).halted = false ∧ (∀ L ∈ ent.lanes, thr.guardOn 0 7 false L = true) ∧ NoneExited thr 0 := by decide

/-! ### Group instructions -/

theorem witness_ShuffleResults : (Instr.shf iss .down 1 2 (.reg 3) (.imm 3)).wf = true ∧ Issues thr iss (need 8 [1] [2, 3]) ent ∧
    Members thr iss ent 0 3 ∧ (∀ L ∈ ent.lanes, thr.opd 0 L (.imm 3) = 3) := by decide

theorem witness_VoteResults : (Instr.vote iss .ballot 1 2 (.imm 3)).wf = true ∧ (Instr.vote iss .all 7 2 (.imm 3)).wf = true ∧
    Issues thr iss { need 8 [1] [] with preads := [2] } ent ∧ Issues thr iss { need 8 [] [] with preads := [2], pwrites := [7] } ent ∧
    Members thr iss ent 0 3 := by decide

/-- Two lanes that are all that is left of their group. -/
theorem witness_ConvertBlockResults : (Instr.cvtBlk iss 62 2 4 { src := 0, dst := 12, ctrl := 0 }).wf = true ∧
    fmtOf 12 = some .e4m3s ∧ Fmt.scaled .f32 = false ∧ Fmt.scaled .e4m3s = true ∧
    Issues last2 iss (need 2 [62, 63] (fmtRegs .f32 2 ++ [4])) ent ∧ WholeGroup last2 iss ent 0 := by decide

/-- A schedule that makes slot 0 the taker of cell 63 of tile 0 and the owner of DMA channel 7 of field 0. -/
def img : SchedImage :=
  { lists := [], rotas := [], tags := [], takers := [(0, 63, .slot 0)], dmaOwners := [(0, 7, 0, 0)], chans := [], kernels := [],
    slotsNamed := [] }
def sched : State := last2.putPart 0 { partFree with ready := true, quads := 1, sched := some img }

theorem witness_PostAndTakeResults : (Instr.post iss (.imm 63) 65535 true 2).wf = true ∧ Issues sched iss (need 9 [] []) ent ∧
    Issues sched iss (need 9 [] [2]) ent ∧ WholeGroup sched iss ent 0 ∧ NoneExited sched 0 ∧ sched.pipe 0 = [] ∧
    sched.storesOut 0 0 = false ∧ (Instr.take iss (.imm 63) 0).wf = true ∧ (sched.part (sched.group 0 0).part).sched = some img ∧
    (0, 63 % 64, Taker.slot 0) ∈ img.takers ∧ 0 ≤ (sched.cell 0 63).toNat ∧ (sched.cell 0 63).toNat < 1 := by decide

/-- A POST to tile 191 of the partition's field 0, by its global address in g2; and one with a store of the group under way. -/
theorem witness_PostAndTakeResults_other : let s := (sched.setG 0 0 2 191).setG 0 1 2 191
    (s.g 0 (nth 0 ent.lanes 0) 2).toNat % 2 ^ 24 = s.moduleId * 2 ^ 14 + 191 ∧
    ∃ q, s.partOfField (191 / 192) = some q ∧ s.jobOf q = s.jobOf (s.group 0 0).part := ⟨by decide, 0, by decide⟩

/-- A store of lane 0 of tile 0 to a region that waits at its home. -/
def sttOut : Access :=
  { origin := .lane 0 0 none .n8 false 5 0, part := 0, key := 7, runtime := false, fabric := false, off := 0, kind := .store [1],
    retire := false, poison := false, waitFill := false }
theorem witness_PostAndTakeResults_waits : let s : State := { sched with homeQ := [sttOut] }
    s.storesOut 0 0 = true ∧ Issues s iss (need 9 [] []) ent ∧ WholeGroup s iss ent 0 ∧ NoneExited s 0 := by decide

theorem witness_MatrixIssueResults : (Instr.mxi iss 1 2 64).wf = true ∧ Issues last2 iss (need 10 [1] [2]) ent ∧ WholeGroup last2 iss ent 0 ∧
    iss.mem = [] ∧ (last2.g 0 0 2 + BitVec.ofNat 32 64).toNat = 64 ∧ 64 + 64 ≤ tsSize ∧ last2.anyPoison (storeBase 0 + 64) 64 = false ∧
    tfind (last2.group 0 0).tokens 0 = none ∧ (Instr.mxw iss 1 2).wf = true ∧ NoneExited last2 0 ∧ last2.pipe 0 = [] ∧
    (Instr.flush iss 15).wf = true ∧ Issues last2 iss (need 10 [] []) ent := by decide

/-- The last free token; a busy one and a done one. -/
def toks : State := last2.putGroup 0 0 { grp with exited := 0xFFFFFFFC, tokens := (List.range 15).map (fun k => (k, if k = 0 then Token.busy else .done .ok)) }

theorem witness_MatrixIssueResults_tokens : tfind (toks.group 0 0).tokens 15 = none ∧
    (∀ k, k < 15 → (tfind (toks.group 0 0).tokens k).isSome) ∧ tfind (toks.group 0 0).tokens 0 = some .busy ∧
    tfind (toks.group 0 0).tokens 14 = some (.done .ok) := by decide

/-- The channel idle and busy, an offset that is no multiple of 128 n, and a descriptor at x80 of a copy of 8 nibbles that passes its checks. -/
def desc128 : State := { (sched.setG 0 0 2 128).setG 0 1 2 128 with
  mem := setNibs [] (storeBase 0 + 128) (([0, 0, 0x100, 0, 8, 0x00010001, 1, 0, 0, 0, 0, 0, 0, 0, 0, 0x6C] : List Nat).flatMap (fun v => nibsOf v 8)) }

theorem witness_DmakResults : WholeGroup sched iss ent 0 ∧ NoneExited sched 0 ∧ sched.pipe 0 = [] ∧ (0 / 192, 7, 0, 0) ∈ img.dmaOwners ∧
    (∀ L ∈ ent.lanes, (sched.opd 0 L (.imm 7)).toNat % 8 = 7) ∧ Issues sched iss (need 11 [] [2]) ent ∧ Issues sched iss (need 11 [1] []) ent ∧
    sched.dmaBusy 7 = false ∧ (sched.wrF (oDmaStatus 7) 0 1 1).dmaBusy 7 = true := by decide

theorem witness_DmakResults_starts : let s := desc128
    let img16 := (List.range 16).map (fun j => BitVec.ofNat 32 (s.load (storeBase 0 + 128 + 8 * j) 8))
    (s.g 0 0 2 + BitVec.ofNat 32 0).toNat = 128 ∧ s.anyPoison (storeBase 0 + 128) 128 = false ∧ 128 + 128 ≤ tsSize ∧ s.dmaBusy 7 = false ∧
    ((s.dmaLoad 7 img16).dmaCheck 7 (dmaDesc ((s.dmaLoad 7 img16).dmaRegs 7))).1 = .ok := by decide +kernel

/-! ### Orders, the checker and the matrix unit -/

/-- Nothing waits at a tile of a state whose rotors list nothing. -/
theorem tileQuiet_none {s : State} (h : s.rotors = []) (u : Nat) : TileQuiet s u := by
  refine ⟨fun e he => ?_, ?_⟩
  · simp [State.entries, State.rotor, h, tget, rotor0] at he
  · simp [State.pipe, State.rotor, h, tget, rotor0]

/-- The bank list of the last tile, at an OFFER entry and at a WAIT entry. -/
def offer : AolEntry := { user := 0, wait := false, quantum := 16 }
def banks (pos : Nat) : State :=
  up.putAol (.banks 12287) { entries := [offer, { user := 1, wait := true, quantum := 2 }], pos := pos, made := 1 }

theorem witness_AccessOrderEntriesPass : listOk (.banks 12287) = true ∧ (banks 0).inService = true ∧ (∀ u, TileQuiet (banks 0) u) ∧
    ((banks 0).aol (.banks 12287)).current = some offer ∧ (banks 0).resHeld (.banks 12287) = false ∧
    (banks 0).presents (.banks 12287) 0 = false ∧
    ((banks 1).aol (.banks 12287)).current = some { user := 1, wait := true, quantum := 2 } :=
  ⟨by decide, by decide, tileQuiet_none rfl, by decide, by decide, by decide, by decide⟩

/-- A rota of one slot on the west link of site 1 of field 0, and a flit for it with that hop alone, or with another behind it. -/
def mesh1 : RotaRes := .mesh 0 1 0
def meshed (more : List (RotaRes × Nat)) : State :=
  { up.putRota mesh1 { slots := [.src 3], pos := 0, sub := [] } with
      transit := [{ hops := [(.link 0, 3)], cargo := .request sttOut }, { hops := (mesh1, 3) :: more, cargo := .request sttOut }] }

theorem witness_MeshSlotsCarry : rotaOk mesh1 = true ∧ (meshed []).corePowered = true ∧ ((meshed []).rota mesh1).turn = some 3 ∧
    (meshed []).transit[1]? = some { hops := [(mesh1, 3)], cargo := .request sttOut } ∧
    (∀ k y, k < 1 → (meshed []).transit[k]? = some y → y.hops.head? ≠ some (mesh1, 3)) ∧
    (meshed [(.mesh 0 0 0, 3)]).transit[1]? = some { hops := [(mesh1, 3), (.mesh 0 0 0, 3)], cargo := .request sttOut } ∧
    (up.rota mesh1).turn = none := by
  refine ⟨by decide, by decide, by decide, by decide, fun k y hk h => ?_, by decide, by decide⟩
  obtain rfl : k = 0 := by omega
  cases h
  decide

/-- Link 63 UP with a rota of one slot. -/
def linkUp63 : State := ((up.wrF (oLinkStatus 63) 0 3 lkUp).putRota (.link 63) { slots := [.src 16], pos := 0, sub := [] })
def flit16 : Flit := { module := 1, part := 0, runtime := false, poison := false, via := 0, body := .rsp { dest := 0, off := 0, tag := 0, status := .ok, data := [], words := [] } }

theorem witness_LinkSlotsSend : linkUp63.linkState 63 = lkUp ∧ (linkUp63.link 63).nakIn = false ∧
    (linkUp63.link 63).replay.length < 128 ∧ (linkUp63.rota (.link 63)).turn = some 16 ∧ flitSource flit16 = 16 := by decide

/-- In a partition without fields, which has no route to cover: an image that passes every test, and one with a quantum of 0 (R35). -/
def good : SchedImage := { img with takers := [], dmaOwners := [] }
def bad : SchedImage := { good with lists := [(.banks 12287, [{ user := 0, wait := false, quantum := 0 }])] }
def checking (i : SchedImage) : State :=
  { up.putPart 15 { partFree with ready := true } with checker := [.part 15 i 0] }

theorem witness_CheckerEnforcesOrRejects : (checking good).inService = true ∧ (checking good).checkImage 15 good = (0, none, none) ∧
    ((checking bad).checkImage 15 bad).1 ≠ 0 := by decide +kernel

/-- One F32 product: a GEMM with M = N = K = 1 on array 0. -/
def gemm : Mxd := BitVec.ofNat 256 (2 ^ 58)
def matrix (m : Mxd) (u : Nat) : State :=
  ((up.putAol (.matrix 12287) { entries := [{ user := u, wait := true, quantum := 1 }], pos := 0, made := 0 }).putMx
    12287 { mxEmpty with issue := [.flush 0 1, .mxd 15 3 m] }).putGroup 12287 15 grp

theorem witness_MatrixTakeUp : (matrix gemm 15).inService = true ∧ (matrix gemm 15).fieldHeld 63 = false ∧ (mxDesc gemm).swap = false ∧
    ((matrix gemm 15).aol (.matrix 12287)).current = some { user := 15, wait := true, quantum := 1 } ∧
    indexOf (fun i : MxItem => i.slot == 15) ((matrix gemm 15).mxu 12287).issue = some 1 ∧
    ((matrix gemm 15).mxu 12287).issue[1]? = some (.mxd 15 3 gemm) ∧ (mxDesc gemm).ok = true ∧ (mxDesc gemm).fill = false ∧
    (mxDesc gemm).masken = false ∧ (matrix gemm 15).mxFenced 12287 (mxDesc gemm) = none ∧
    (∀ g, g < 4 → ((matrix gemm 15).mxu 12287).gateTouches g (arraySpars 0) = false) ∧
    ((matrix gemm 15).mxu 12287).room (arraySpars 0) = true := by decide

/-- A descriptor that fails its checks, and a list entry whose group has no item. -/
theorem witness_MatrixTakeUp_others : (mxDesc 4).ok = false ∧ ((matrix 4 15).mxu 12287).issue[1]? = some (.mxd 15 3 4) ∧
    ((matrix 4 15).group 12287 15).halted = false ∧ TileQuiet (matrix 4 15) 12287 ∧ NoneExited (matrix 4 15) 12287 ∧
    indexOf (fun i : MxItem => i.slot == 14) ((matrix 4 14).mxu 12287).issue = none := by decide

def req1 : MxReq := { slot := 15, token := 3, d := gemm, mask := [true], seed := 0, epoch := 0, tie := false }
def job1 : MxJob := { id := 7, array := 0, reqs := [req1], started := false, loaded := false, met := [.ok], torn := false, tile := [] }
def jobs (j : MxJob) : State := (up.putMx 0 { mxEmpty with jobs := [j] }).putGroup 0 15 grp

/-- The job with its first tile of B loaded. -/
def job1l : MxJob := { job1 with loaded := true, tile := (jobs job1).firstTile 0 [] (mxDesc gemm) }

theorem witness_MatrixStartAccumulates : let s := jobs job1l
    s.inService = true ∧ s.fieldHeld 0 = false ∧ (s.mxu 0).job 7 = some job1l ∧ (s.mxu 0).ahead job1l = [] ∧
    (∀ c ∈ job1l.reads 0, s.poisoned c = false) ∧ (mxDesc req1.d).op = 0 ∧ (mxDesc req1.d).ok = true ∧
    (mxDesc req1.d).preload = false ∧ (mxDesc req1.d).swap = false ∧ req1.mask.length = (mxDesc req1.d).m ∧
    s.hasTurn (.banks 0) userOperands = true := by decide +kernel

theorem witness_StationaryLoadBringsTile : let s := jobs job1
    s.fieldHeld 0 = false ∧ (s.mxu 0).job 7 = some job1 ∧ job1.noLoad = false ∧ job1.desc.preload = false ∧ (s.mxu 0).ahead job1 = [] ∧
    (∀ x ∈ (s.mxu 0).jobs.takeWhile (fun x => x.id != job1.id), x.loaded = true ∨ x.noLoad = true) ∧
    s.hasTurn (.banks 0) userOperands = true ∧ (∀ c ∈ job1.desc.readsB 0 0 job1.desc.chunk, s.poisoned c = false) := by decide +kernel

/-- Started and loaded; with what its start found. -/
def job2 (r : MxReq) (met : Status) : MxJob := { job1 with reqs := [r], started := true, loaded := true, met := [met] }

theorem witness_MatrixCompletionOfJob : ∀ met ∈ [Status.ok, .badDescriptor], let s := jobs (job2 req1 met)
    s.fieldHeld 0 = false ∧ s.inService = true ∧ (s.mxu 0).job 7 = some (job2 req1 met) ∧ req1.tie = false ∧ req1.slot < 16 ∧
    (s.group 0 15).halted = false ∧ TileQuiet s 0 ∧ NoneExited s 0 ∧ (mxDesc req1.d).expo = 0 := by decide

/-- The same GEMM with EXPORT = 1. -/
def expo1 : Mxd := BitVec.ofNat 256 (2 ^ 31 + 2 ^ 58 + 2 ^ 123)
def req2 : MxReq := { req1 with d := expo1 }

theorem witness_MatrixCompletionExports : let s := jobs (job2 req2 .ok)
    let d := mxDesc expo1
    (s.mxu 0).job 7 = some (job2 req2 .ok) ∧ d.ok = true ∧ d.expo = 1 ∧ d.op = 0 ∧ d.m = 1 ∧ d.n = 1 ∧ d.preload = false ∧ d.opC.format.scaled = false ∧
    s.hasTurn (.banks 0) userExport = true ∧ s.writesDropped (storeBase 0 + d.opC.at 0 0) = false ∧
    s.anyPoison (storeBase 0 + d.opC.at 0 0) (1 * d.opC.format.nibs) = false ∧ (s.accAt 0 d.array d.row 0).poison = false := by decide +kernel

/-- BWD of partition 0 without kernels. -/
def inPhase (ph : Nat) : State := (up.putPart 0 { partFree with ready := true, quads := 1 }).setPhase 0 ph

theorem witness_TieSumRunsOnce : let s := inPhase phBwd
    s.inService = true ∧ s.phase 0 = phBwd ∧ (s.part 0).step.tieDone = false ∧ s.tagDone 0 .bwd (s.part 0).step.bwdRun = true ∧
    (s.part 0).ties = [] := by decide

/-- One tensor of one element and two uses. -/
def tie2 : Tie := { tensor := 0, tile := 0, uses := 2, slots := 0, stride := 64, grad := 0x400, scratch := 0x800, elems := 1 }
def tied : State := (inPhase phBwd).putPart 0 { (inPhase phBwd).part 0 with ties := [tie2] }
theorem witness_TieSumRunsOnce_one : (tied.part 0).ties = [tie2] ∧ tieOk tie2 = true ∧ tied.poison = [] ∧ tied.fieldHeld 0 = false ∧
    (∀ k, k < 2 → ∀ e, e < 1 → (tieDesc tie2 0 1).opA.at k e + 4 ≤ 0x800 ∨ 0x800 + 1024 ≤ (tieDesc tie2 0 1).opA.at k e) ∧
    (∀ e ∈ tied.regions, tied.fenced e.2 = false) := by decide

/-! ### DMA, homes and the cache -/

def xfer : Xfer :=
  { regs := [], part := none, run := 1, off := 0, runs := 1, away := 0, met := [.ok, .poisoned], stop := false, pos := 0, nibs := 8,
    readBack := true, cmd := none }

/-- With a destination in another module: the module side is elsewhere. -/
def xferFar : Xfer := { xfer with regs := [0, 0, 0, 0x40500000] }

theorem witness_DmaReadBackCompletes : let s : State := { up with dma := [(511, xferFar)] }
    dmaChOk (.field 63 7) = true ∧ s.inService = true ∧ tfind s.dma (dmaKey (.field 63 7)) = some xferFar ∧
    s.readBackAway (dmaKey (.field 63 7)) = false ∧ (∀ u, TileQuiet s u) ∧
    s.mineSide (dmaDesc xferFar.regs).dstHost (dmaDesc xferFar.regs).dst = false :=
  ⟨by decide, by decide, by decide, by decide, tileQuiet_none rfl, by decide⟩

/-- A region of 16 Mn at offset 0 with key 7, readable and writable. -/
def rgn : Region := { region0 with len := 1, key := 7, valid := true, read := true, write := true }
def acc (kind : AccKind) (d : Option Nat) (key : Nat) : Access :=
  { origin := .lane 0 0 d .n8 false 5 0xFFFFF8, part := 0, key := key, runtime := false, fabric := false, off := 0xFFFFF8, kind := kind,
    retire := false, poison := false, waitFill := false }
def home (a : Access) : State := { thr.putRegion 0 rgn with homeQ := [a] }

/-- The access stands at its home's port, with every user served while no list is in force; and with the turn of another user. -/
theorem witness_HomeAppliesAccess : ∀ a ∈ [acc (.load 8) (some 63) 7, acc (.store [1, 2, 3]) none 7], let s := home a
    s.inService = true ∧ NextAtHome s 0 a ∧ (∃ p, s.homePort a = some p ∧ s.hasTurn p.1 p.2 = true ∧
      (s.putAol p.1 { entries := [{ user := p.2 + 1, wait := true, quantum := 1 }], pos := 0, made := 0 }).hasTurn p.1 p.2 = false) ∧
    s.homeTests a = .ok ∧ s.sharedPoison a = false ∧ s.portHeld (s.physAt a.off) = false ∧ s.writesDropped (s.physAt a.off) = false ∧
    s.anyPoison (s.physAt a.off) a.kind.nibs = false ∧ TileQuiet s 0 ∧ s.wayBack false 0 a = [] := by decide

theorem witness_HomeRefusesAccess : let a := acc (.load 8) (some 63) 8
    NextAtHome (home a) 0 a ∧ a.kind.isPost = false ∧ (home a).homeTests a = .keyMismatch ∧ TileQuiet (home a) 0 ∧
    (home a).wayBack false 0 a = [] := by decide

/-- The line of offset 0xFFFF00 in way 0 of its half, with the bytes of nibbles xF8 to xFF valid; and with none valid. -/
def cl (mask : BitVec 128) : Line :=
  { num := 0xFFFF, data := 0, mask := mask, dirty := 0, poison := 0, pinned := false, dead := false }
def slow : Access := { acc (.load 8) (some 63) 7 with waitFill := true }
def cached (mask : BitVec 128) : State :=
  ({ thr with cacheQ := [slow] } : State).putLine (lineKey (halfOf 0xFFFFF8) 0xFFFF 0) (cl mask)

theorem witness_CacheHitsReadTheLine : let s := cached (0xF <<< 124)
    s.inService = true ∧ s.cacheQ[0]? = some slow ∧ s.evictHeld slow.off = false ∧ TileQuiet s 0 ∧
    s.findWay (halfOf 0xFFFFF8) 0xFFFF = some 0 ∧
    s.lineAt (lineKey (halfOf 0xFFFFF8) 0xFFFF 0) = some (cl (0xF <<< 124)) ∧ (cl (0xF <<< 124)).valid 0xF8 8 = true := by
  decide +kernel

theorem witness_CacheFillsBringSectors : let s := cached 1
    s.inService = true ∧ s.cacheQ[0]? = some slow ∧ s.portHeld 0xFFFFF8 = false ∧ s.evictHeld slow.off = false ∧
    s.hasTurn (s.fillPort slow.off).1 (s.fillPort slow.off).2 = true ∧ 0xFFFFF8 % 256 + 8 ≤ 256 ∧
    s.findWay (halfOf 0xFFFFF8) 0xFFFF = some 0 ∧
    s.lineAt (lineKey (halfOf 0xFFFFF8) 0xFFFF 0) = some (cl 1) ∧ (cl 1).num = 0xFFFFF8 / 256 := by decide +kernel

/-- A window of 4 accesses, full, with as many misses as LIMIT; the same with one less; a half that carries out a drop. -/
def window (miss : Nat) : State := ((up.wr (oScThrashCfg 1) 0x30004).putHalf 1 { half0 with winAcc := 4, winMiss := miss })

theorem witness_ThrashWindowsEnd : (window 3).inService = true ∧ (window 3).rdF (oScThrashCfg 1) 0 16 = 4 ∧
    ¬ ((window 3).half 1).winAcc < 4 ∧ (window 3).rdF (oScThrashCfg 1) 16 16 ≤ ((window 3).half 1).winMiss ∧
    ((window 2).half 1).winMiss < (window 2).rdF (oScThrashCfg 1) 16 16 := by decide

theorem no_commands (h : Nat) (x : Half) (r : Nat) : ((up.putHalf h x).ring r).live = [] := rfl

theorem witness_CacheOperationsComplete : ∀ fill drop : Bool,
    let s := up.putHalf 1 { half0 with pins := [(7, { pin0 with ways := 1, len := 1, busy := true, fill := fill })],
                                       op := some { drop := drop, base := 0, len := 1, both := false } }
    s.inService = true ∧ (∀ r, (s.ring r).live = []) ∧ (tget pin0 (s.half 1).pins 7).busy = true ∧ (tget pin0 (s.half 1).pins 7).fill = fill ∧
    0 < (tget pin0 (s.half 1).pins 7).ways ∧ s.rangeHeld 0 1 = false ∧ s.linesHeld (s.linesIn 1 0 1) = false ∧
    (s.half 1).op = some { drop := drop, base := 0, len := 1, both := false } := by
  intro fill drop
  cases fill <;> cases drop <;>
    exact ⟨by decide, no_commands _ _, by decide, by decide, by decide, by decide +kernel, by decide, by decide⟩

/-! ### Vaults -/

/-- Boundary readings of R252 at level 0 and at level 3, on the last site of the last field. -/
def level (l : Nat) : State := (up.wrF (oVltThrottle 63 195) 0 3 l).wr (oVltTemp 63 195) 0

theorem witness_RefreshReadsSensorsAndThrottles : ∀ l ∈ [0, 3, 4], (level l).selfRefresh = false ∧
    ((level l).vault 63 195).hold = false ∧ (level l).rdF (oVltThrottle 63 195) 0 3 ≤ 4 ∧ (level l).rdF (oVltThrottle 63 195) 0 3 = l := by
  decide

theorem witness_TileStoreScrubMovesOn : 12287 < 12288 ∧ 15 < 16 ∧ up.inService = true := by decide

/-- A vault whose row, symbol and temperature conditions hold, with a spare row left and with none. -/
def repair (used : Nat) : State :=
  (up.putVault 63 195 { vault0 with rowsNow := [(3, 31, 4095)], rowsLast := [(3, 31, 4095)], spareRows := [(127, used)],
                                    symRun := [(0, []), (0, []), (0, []), (35, List.range 16)] }).wr (oVltTemp 63 195) 8

theorem witness_ShortRepairsRun : ∀ used ∈ [7, 8], let s := repair used
    let v := s.vault 63 195
    s.inService = true ∧ v.short.length = 4 ∧ v.shortAge.length = 4 ∧ nth false v.short 3 = false ∧ 65536 ≤ nth 0 v.shortAge 3 ∧
    v.calTemp.length = 4 ∧ nth 0 v.calTemp 3 + 8 ≤ s.hottest 63 195 ∧ (3, 31, 4095) ∈ v.rowsNow ∧
    (3, 31, 4095) ∈ v.rowsLast ∧ tget 0 v.spareRows (3 * 32 + 31) = used ∧
    v.symRun.length = 4 ∧ (nth (0, []) v.symRun 3).1 = 35 ∧
    16 ≤ (nth (0, []) v.symRun 3).2.length ∧ s.rdF (oVltRepairCh 63 195 3) 9 2 < 2 ∧
    2 ≤ (s.wrF (oVltRepairCh 63 195 3) 9 2 2).rdF (oVltRepairCh 63 195 3) 9 2 := by decide

theorem witness_ShortRepairsEnd : let s := (repair 7).putVault 63 195 { vault0 with short := [false, false, false, true] }
    s.inService = true ∧ (s.vault 63 195).short.length = 4 ∧ (∀ p, p < 16 → s.chansOf p = []) := by decide

theorem witness_ProtectiveHoldEntersAndLeaves : 105 < 106 ∧ 100 ≤ 100 ∧ (up.wr oPwrHoldHi 0x80000000).fieldHeld 63 = true ∧
    (∀ p, p < 16 → (up.wr oPwrHoldHi 0x80000000).chansOf p = []) ∧
    (∀ site, site < 196 → (up.wr oPwrHoldHi 0x80000000).hottest 63 site ≤ 110) := by decide +kernel

/-- Takes, as a computation. -/
def takes (s : State) (r : Req) (o : Nat) : Bool :=
  match blkOf o with
  | some (b, l) => match rowOf b.rows l with
    | some (row, _) => decide (s.writeCheck r b l row = some .ok)
    | none => false
  | none => false

theorem takes_of {s : State} {r : Req} {o : Nat} (h : takes s r o = true) : Takes s r o := by
  unfold takes at h
  split at h
  · split at h
    · exact ⟨_, _, _, _, ‹_›, ‹_›, of_decide_eq_true h⟩
    · cases h
  · cases h

/-- The last slot of a used site at the field's edge, to another frame of its own tier. -/
def slotState : State := up.wrF (oVltSlotSel 0 1) 0 12 4095
theorem witness_SlotMovesSwitchEntries : reqOk rt = true ∧ takes slotState rt (oVltSlotData 0 1) = true ∧ slotState.pairOf rt.id = none ∧
    slotState.rdF (oVltSlotSel 0 1) 0 12 = 4095 ∧
    slotState.slotCheck 0 1 4095 { target := 0, tier := 3, frame := 1023 } = .ok ∧
    (let c : SlotCopy := { slot := 4095, dest := { target := 1, tier := 0, frame := 0 } }
     let s := up.putVault 0 1 { vault0 with copy := some c }
     s.inService = true ∧ (s.vault 0 1).copy = some c ∧ s.rotors = [] ∧ s.groups = [] ∧ ∀ p, p < 16 → s.chansOf p = []) := by decide

/-! ### Register writes -/

/-- MC_SCRATCH, the last register of UPD_FIELD, and a strobed register: their rows. -/
theorem witness_WritesStrobesAndUpdates : ∀ o ∈ [0x128, 0xF8, 0x60010], takes up rt o = true ∧ up.pairOf rt.id = none ∧
    o % 8 = 0 ∧ o < twinBase ∧ ∃ x ∈ blkOf o, ∃ y ∈ rowOf x.1.rows x.2, y.1.guarded = false ∧ tabled x.1 x.2 = false ∧
      (x.1 = .mc ∧ x.2 ≠ 0 ∨ x.1 = .sc) ∧ (0 : Word) &&& y.1.mask .w1c = 0 := by decide

/-- A strobed value pending, and its block applying. -/
def pend : State := { up with strobed := [(0x60010, 5)], applying := [Blk.sc.base] }

theorem witness_WritesStrobesAndUpdates_update : takes pend rt oUpdate = true ∧ pend.pairOf rt.id = none ∧
    Blk.sc.base ∈ pend.applying ∧ (pend.strobed.map (·.1)).Nodup ∧ blkOf 0x60010 = some (.sc, 0x10) := by decide

theorem witness_MctpAccesses : offsetOk (2 * 0x94) = true ∧ up.hostDead = false := by decide

/-- PWR_CAP, a guarded register of the power block: no pair, and a pair pending. -/
theorem witness_GuardedPairs : takes up rt oPwrCap = true ∧ oPwrCap % 8 = 0 ∧ up.pairOf 0 = none ∧
    (∃ x ∈ blkOf oPwrCap, x.1 = .pwr ∧ ∃ y ∈ rowOf x.1.rows x.2, y.1.guarded = true) ∧
    takes ({ up with pairs := [(0, oPwrCap, 0x85DC0)] } : State) rt oPwrCap = true ∧
    ({ up with pairs := [(0, oPwrCap, 0x85DC0)] } : State).pairOf 0 = some (oPwrCap, 0x85DC0) ∧ (0 : Word) ≠ ~~~ (0x85DC0 : Word) := by decide

theorem witness_BitAliases : takes up rt 0x128 = true ∧ takes up rt oMcGuard = true ∧
    (∃ x ∈ blkOf 0x128, x.1 = .mc ∧ x.2 ≠ 0 ∧ ∃ y ∈ rowOf x.1.rows x.2, y.1.guarded = false ∧ y.1.mask .s = 0 ∧ y.1.accOf 31 = .rw ∧
      up.readReg rt.id 0x128 &&& y.1.mask .rw = up.rd 0x128 &&& y.1.mask .rw) ∧
    (∃ x ∈ blkOf oMcGuard, ∃ y ∈ rowOf x.1.rows x.2, y.1.guarded = false ∧ y.1.accOf 31 = .w1c ∧ y.1.mask .rw = 0) := by decide

/-- Every row of the W1C commands, at the last used site of the last field, the last channel, half, link and region entry. -/
theorem witness_ClearingWritesClear : reqOk rt = true ∧ up.pairOf rt.id = none ∧
    ∀ c ∈ w1cRows rt 63 194 3 1 63 4095, takes up rt c.2.1 = true := by decide +kernel

/-- A copy of 8 nibbles from offset 0 to offset 0x100 on the last field channel. -/
def dmaImg : List Word := [0, 0, 0x100, 0, 8, 0x00010001, 1, 0, 0, 0, 0, 0, 0, 0, 0, 0x6C]
def dmaSet : State := up.dmaLoad 511 dmaImg

theorem witness_DmaStarts : dmaChOk (.field 63 7) = true ∧ takes dmaSet rt (oDmaCtrl 511) = true ∧
    flag (dmaSet.rd (oDmaCtrl 511)) 31 = false ∧
    (dmaSet.dmaCheck 511 (dmaDesc ((dmaSet.dmaRegs 511).set 15 (setFld (setFld (dmaSet.rd (oDmaCtrl 511)) 10 2 0) 12 1 (b2n false))))).1 = .ok := by
  decide

/-- Pack, unpack, and the broadcast of 8 nibbles into the last tile. -/
theorem witness_DmaStarts_modes : (∀ mode ∈ [1, 2], (up.dmaCheck 511
      (dmaDesc [0, 0, 0x10000, 0, 128, 0x00010001, 1, 0, 0, 0, 0, 0, 0, 0x20000, 0, setFld 0 10 2 mode])).1 = .ok) ∧
    (up.dmaCheck 511 (dmaDesc [0, 0, 0xffa00000, 0xe11, 8, 0x00010001, 1, 0, 0, 0, 0, 0, 0, 0, 0, setFld 0x10006C 12 1 1])).1 = .ok := by decide

/-- A cached region at offset 0; a declared peer on link 63; STRIKE by command. -/
def lineRgn : State := up.putRegion 0 { rgn with cached := true }
def peer63 (st : Nat) : State := (up.wr (oLinkExpect 63) 0x10000).wrF (oLinkStatus 63) 0 3 st
def strike : State := (State.reset.setModState stStrike).wrF oPwrState 12 1 1

theorem witness_ControlWritesAct : takes lineRgn rt (oScOpCtrl 0) = true ∧ (lineRgn.half 0).op = none ∧
    ((lineRgn.rd (oScOpBase 0)).toNat + 4096) * 4096 ≤ vaultEnd ∧
    lineRgn.cachedUnits none (lineRgn.rd (oScOpBase 0)).toNat 4096 = true ∧
    (∀ st ∈ [lkOff, lkDown, lkUp], takes (peer63 st) rt (oLinkCtrl 63) = true ∧ (peer63 st).linkState 63 = st ∧
      flag ((peer63 st).rd (oLinkExpect 63)) 16 = true) ∧
    takes strike rt oPwrCtrl = true ∧ strike.modState = stStrike ∧ strike.rdF oPwrState 12 1 = 1 := by decide

/-- A valid staged region in entry 4094; its selector. -/
def staged (n : Nat) : State := (up.putRegion n { rgn with base := 1, staged := true, alt := 2 }).wrF oRgnSel 0 12 n

theorem witness_FabricPairsTakeForce : takes (staged 4094) rt oRgnFlip = true ∧
    fld 0x1FFE 0 12 = 4094 ∧ ((staged 4094).region 4094).valid = true ∧ ((staged 4094).region 4094).staged = true ∧
    ((staged 4094).region 0).staged = false ∧
    takes up rt oKmapData2 = true ∧ takes up rt oRouteData = true ∧ takes up rt (oLinkRemap 7) = true ∧
    (∀ k, k < 64 → up.linkState k ≠ lkDown) ∧ takes up rt oFabKeeper = true ∧ (∀ p, p < 16 → (up.part p).table = none) ∧
    up.dirSlots = [] := by decide +kernel

/-- The words of RGN_DATA0 to RGN_DATA2 that describe the entry of `staged`, VALID or cleared. -/
def describes (e : Nat) (valid : Bool) (s : State) : State :=
  (((s.wrF oRgnSel 0 12 e).wr oRgnData0 (if valid then 0x87000001 else 0x86000001)).wr oRgnData1 1).wr oRgnData2 7
def runs0 : State := ((staged 4094).putPart 0 { partFree with ready := true }).setPhase 0 phFwd

/-- A commit of entry 4,095; one that does not fit beside entry 3; one into a running partition, and one that only clears there. -/
theorem witness_FabricPairsTakeForce_commits :
    (∀ e ∈ [4094, 4095], takes (describes e true (staged 4094)) rt oRgnData3 = true ∧ (describes e true (staged 4094)).rdF oRgnSel 0 12 = e) ∧
    (let s := describes 4094 true (staged 4094)
     (s.regionOf 4094 2).valid = true ∧ s.regionFormOk 4094 (s.regionOf 4094 2) = true ∧ s.partState 0 ≠ 3) ∧
    (let s := (describes 4094 true (staged 4094)).putRegion 3 { rgn with base := 2 }
     takes s rt oRgnData3 = true ∧ s.regionFormOk 4094 (s.regionOf 4094 2) = false) ∧
    (let s := describes 4094 true runs0
     takes s rt oRgnData3 = true ∧ s.partState (s.regionOf 4094 2).part = 3 ∧ (s.regionOf 4094 2).valid = true ∧
     s.regionFormOk 4094 (s.regionOf 4094 2) = true) ∧
    (let s := describes 4094 false runs0
     (s.region 4094).valid = true ∧ s.regionOf 4094 2 = { s.region 4094 with valid := false, torn := false, origin := false }) := by
  decide +kernel

/-- Logical link 7 of group 7 on link 63, which is DOWN with a flit of its own and one of another logical link waiting. -/
def flitVia (k : Nat) : Flit :=
  { module := 1, part := 0, runtime := false, poison := false, via := k,
    body := .rsp { dest := 0, off := 0, tag := 0, status := .ok, data := [], words := [] } }
def downed : State :=
  ((up.wrF (oLinkStatus 63) 0 3 lkDown).putLink 63 { link0 with waiting := [flitVia 7, flitVia 6] }).putLink 56
    { link0 with waiting := [flitVia 0] }

theorem witness_FabricPairsTakeForce_remap : let s := downed
    takes s rt (oLinkRemap 7) = true ∧ s.linkState (8 * 7 + fld (s.rd (oLinkRemap 7)) (3 * 7) 3) = lkDown ∧
    fld (0x1AC688 : Word) (3 * 7) 3 = 0 ∧ fld (s.rd (oLinkRemap 7)) (3 * 7) 3 ≠ 0 ∧ s.linkState (8 * 7 + 0) ≠ lkDown ∧
    (∀ j, j < 8 → j ≠ 7 → fld (0x1AC688 : Word) (3 * j) 3 = fld (s.rd (oLinkRemap 7)) (3 * j) 3) ∧
    (∀ f ∈ (s.link 56).waiting, f.isSecond = false) := by decide

/-- A teardown order of the keeper for job 7 of a partition and a region. -/
def kp : Req := { id := 0x400, ownerCmd := false }
def jobbed : State := ((up.putPart 15 { partFree with ready := true }).wrF (oPartJob 15) 0 16 7).putRegion 4094 { rgn with job := 7 }

theorem witness_TeardownHoldsPartitions : reqOk kp = true ∧ jobbed.pairOf kp.id = none ∧ takes jobbed kp oFabTeardown = true ∧
    15 ∈ jobbed.jobParts (fld 7 0 16) ∧ 4094 ∈ jobbed.jobRegions (fld 7 0 16) ∧
    (∀ p ∈ jobbed.jobParts (fld 7 0 16), (jobbed.part p).table = none ∧ (jobbed.part p).step.begun = false) := by decide

/-- Job 7 has a region here and no partition. -/
def jobbed2 : State := up.putRegion 4094 { rgn with job := 7 }
theorem witness_TeardownHoldsPartitions_regions : takes jobbed2 kp oFabTeardown = true ∧ jobbed2.jobParts (fld 7 0 16) = [] ∧
    jobbed2.jobRegions (fld 7 0 16) ≠ [] := by decide

theorem witness_RecorderAndHostPairs : takes up rt oEvrRelease = true ∧ takes (up.wrF oRepSel 0 12 4095) rt oRepCommit = true ∧
    (up.wrF oRepSel 0 12 4095).rdF oRepSel 0 12 ≠ 0 ∧ takes up rt (oHostDmaRing 3) = true ∧ up.hostDmaBusy = false ∧
    takes up rt oHostDmaListHi = true ∧ takes up rt oHostDmaListLo = true := by decide

/-! ### The training step -/

/-- Partition 0 with a step begun. -/
def begun : State := up.putPart 0 { partFree with ready := true, quads := 1, step := { partFree.step with begun := true } }

theorem witness_FwdEnterFences : begun.inService = true ∧ begun.phase 0 = phIdle ∧ (begun.part 0).step.begun = true ∧
    begun.updatesApplied 0 = true ∧ begun.weightWrites 0 = false ∧ begun.slotMoves 0 = false := by decide +kernel

/-- A norm channel of the partition with one entry, with clipping on and off; and with its table's vault in self-refresh. -/
def clipOn (mode : Nat) : State :=
  (((up.putPart 0 { partFree with ready := true, quads := 1, clip := { mode := mode, tau := [] } }).setPhase 0 phReduce).putRegion 0 rgn).putChan 0 31
    { chan0 with desc := BitVec.ofNat 256 (95 + 2 ^ 160 + 2 ^ 196), present := true }
def clipHeld : State := (clipOn 1).putVault (up.vaultLoc 0).field (up.vaultLoc 0).site { vault0 with hold := true }

theorem witness_PhasesFollow : (inPhase phFwd).phase 0 = phFwd ∧ (inPhase phFwd).tagDone 0 .fwd false = true ∧
    (inPhase phBwd).tagDone 0 .bwd false = true ∧ ((inPhase phBwd).part 0).ties = [] ∧
    (∀ m ∈ [0, 1], (clipOn m).phase 0 = phReduce ∧ (clipOn m).reduced 0 = true ∧ (clipOn m).normChan 0 = some 31) ∧
    (let d := chanDesc ((clipOn 1).chan 0 31).desc
     ((clipOn 1).part 0).clip.mode ≠ 0 ∧ ((clipOn 1).chan 0 31).started = 0 ∧ ((clipOn 1).setPhase 0 phClip).normWaits [] 0 d = false ∧
     0 < d.len ∧ ((clipOn 1).chan 0 31).held = [] ∧ ((clipOn 1).chan 0 31).final = [] ∧ clipHeld.phase 0 = phReduce ∧
     clipHeld.normChan 0 = some 31 ∧ clipHeld.inService = true ∧ (clipHeld.setPhase 0 phClip).normWaits [] 0 d = true) ∧
    (inPhase phReduce).normChan 0 = none ∧ (inPhase phReduce).reduced 0 = true ∧
    (inPhase phUpdate).writesOpen 0 = false ∧ ((inPhase phUpdate).part 0).table = none := by decide +kernel

/-- A record of KIND k for step 0 in the commit slot of partition 0. -/
def rec (ph k : Nat) : State := ({ inPhase ph with mem := setNibs [] (oCommitSlot 0) (nibsOf (k + 0x600D0001 * 2 ^ 480) 128) } : State).putRegion 0
  { rgn with staged := true, alt := 2 }

theorem witness_RecordOrderCommits : ∀ k ∈ [1, 2], (rec phCommit k).inService = true ∧ (rec phCommit k).phase 0 = phCommit ∧
    (rec phCommit k).recordOf 0 = some k ∧ ((rec phCommit k).part 0).table = none ∧ ((rec phCommit k).regions.map (·.1)).Nodup ∧
    (∀ e ∈ (rec phCommit k).regions, e.1 < 4096) ∧ (rec phHeld k).phase 0 = phHeld ∧ (rec phHeld k).recordOf 0 = some k := by
  decide +kernel

theorem witness_DiscardChangesNoCopy : ∀ ph ∈ [phFwd, phBwd, phReduce, phClip, phUpdate, phHeld], (inPhase ph).inService = true ∧
    (inPhase ph).phase 0 ≠ phIdle ∧ ¬ ((inPhase ph).phase 0 = phCommit ∧ (inPhase ph).rdF (oStepPhase 0) 4 1 = 1) := by decide

/-- The step table of a job of three modules, and a checkpoint of step 5 that fits the peer store exactly. -/
def tbl : StepTable :=
  { format := 5, job := 0, jobSlot := 63, modules := 3, entries := 3, index := 0, interval := 5, clipWord := 0, reservedZero := true,
    length := 38, list := [(0, false), (1, false), (2, false)] }
def copying : State := (up.putPart 0 { partFree with ready := true, quads := 1, table := some tbl, copying := some 5 }).wr oPwrPeerLen 7

theorem regions_none {s : State} (h : s.regions = []) (o : Nat) : s.regionAt o = none := by
  simp [State.regionAt, h]

theorem witness_CheckpointRollBackReplay_outside : (∀ e ∈ copying.regions, e.2.cached = false) ∧ (∀ o, copying.regionAt o = none) :=
  ⟨by decide, regions_none rfl⟩

theorem witness_CheckpointRollBackReplay : copying.anyPoison (copying.oPeerHeader (5 / tbl.interval % 2)) 128 = false ∧ copying.inService = true ∧ (copying.part 0).copying = some 5 ∧ (copying.part 0).table = some tbl ∧
    copying.phase 0 ≠ phCommit ∧ 1 + 2 * (groupIds tbl).1.length * cdiv 1 ((groupIds tbl).1.length - 2) ≤ (copying.rd oPwrPeerLen).toNat ∧
    (rec phHeld 1).phase 0 = phHeld ∧ (rec phHeld 1).recordOf 0 = some 1 ∧ ((rec phHeld 1).part 0).table = none ∧
    (rec phHeld 1).rd (oStepCommitted 0) ≠ (rec phHeld 1).rd (oStepIndex 0) := by decide +kernel

/-- A valid header of step 4 at the start of the peer store. -/
def kept : State :=
  { ((up.putPart 0 { partFree with ready := true, quads := 1, table := some tbl }).setPhase 0 phHeld) with
      mem := setNibs [] 0 (nibsOf (3 + 4 * 2 ^ 24 + 0x600D0003 * 2 ^ 480) 128) }

theorem witness_CheckpointRollBackReplay_rollBack : kept.inService = true ∧ (kept.part 0).table = some tbl ∧ kept.phase 0 = phHeld ∧
    (kept.ckptAt 0 4).isSome = true ∧ kept.regions = [] := by decide +kernel

theorem witness_BucketsStart : let s := (inPhase phReduce).putChan 0 31 { chan0 with desc := BitVec.ofNat 256 (31 + 2 ^ 196), present := true }
    s.inService = true ∧ s.phase 0 = phReduce ∧ (s.chan 0 31).present = true ∧ (chanDesc (s.chan 0 31).desc).norm = false ∧
    (chanDesc (s.chan 0 31).desc).early = false ∧ (s.chan 0 31).started = (s.chan 0 31).finished ∧
    (s.chan 0 31).started < (chanDesc (s.chan 0 31).desc).buckets ∧ (s.chan 0 31).held = [] ∧ (s.chan 0 31).complete = false ∧
    s.trailerWaits (chanDesc (s.chan 0 31).desc) = false := by decide

/-! ### The keeper -/

/-- A module that is not the keeper, and the standby that has lost it. -/
def standby : State := { up.wr oFabKeeper 5 with keeper := { up.keeper with lost := [5] } }

theorem witness_LivenessCounts : up.inService = true ∧ 1023 ≠ up.moduleId ∧ up.isKeeper = true ∧ up.dirSlots = [] ∧
    standby.isStandby = true ∧ standby.keeperId = 5 ∧ standby.dirSlots = [] ∧ 0 < up.rdF oFabLiveCfg 16 4 ∧ up.linksDown 1023 = false ∧
    (∀ o ∈ up.ops, o.origin ≠ .live 1023) ∧ (({ up with routes := [(1023, { group := 7, valid := true })] } : State).route 1023).valid = true ∧
    (up.route 1023).valid = false ∧ (up.wrF oFabLiveCfg 16 4 0).rdF oFabLiveCfg 16 4 ≤ 0 := by
  decide +kernel

/-- A job of this module alone, which has reported STAGED, and the same with SKIP. -/
def tbl1 : StepTable := { tbl with modules := 1, entries := 1, length := 34, list := [(0, false)] }
def reported (k : Nat) : State :=
  { up with
      mem := setNibs (setNibs (setNibs [] (oReport 63 0) (nibsOf (9 + k * 2 ^ 32 + 2 ^ 63) 16)) (oClaim 63) (nibsOf (2 ^ 31) 8))
        (oDirectory 63) (StepTable.nibs tbl1) }

theorem witness_KeeperDecidesAndTakesOver : (∀ k ∈ [1, 2], (reported k).inService = true ∧ (reported k).isKeeper = true ∧
      (reported k).dirAt 63 = some tbl1 ∧ (reported k).reportAt 63 0 = some (9, k, 0) ∧ (reported k).unapplied 63 = none ∧
      (63, 0) ∉ (reported k).keeper.reopened ∧ (reported k).allReported 63 9 [1, 2] (StepTable.members tbl1) = true ∧
      (reported k).anyPoison (oKeeperSlot 63) 128 = false ∧ ((reported k).wr oFabKeeper 0x100000).hasStandby = false) ∧
    standby.inService = true ∧ standby.isStandby = true ∧ standby.isKeeper = false ∧ standby.keeperId ∈ standby.keeper.lost := by decide +kernel

/-! ### Links -/

/-- Link 63 UP, and the flit it expects. -/
def lk : State := (up.wrF (oLinkStatus 63) 0 3 lkUp).putLink 63 { link0 with rxSeq := 4095 }
def hdr : RxHdr :=
  { seq := 4095, ack := 0, nak := false, module := 1, partition := 15, slot := 0, runtime := false, poison := false, cw0 := [], cw1 := [] }
def reqTo (m : Nat) (pair : Bool) : ReqBody :=
  { addr := BitVec.ofNat 64 (2 ^ 62 + m * 2 ^ 52 + 0xBFFFFFFFFF8), kind := .load 8, tag := 9, key := 7, tile := 0, pair := pair, second := false }
def rspTo (m : Nat) : RspBody := { dest := m, off := 0, tag := 9, status := .ok, data := [1, 2, 3, 4, 5, 6, 7, 8], words := [] }
def opOf (o : Origin) : Op := { tag := 9, origin := o, part := 0, module := 1, off := 0 }
def awaits (o : Origin) : State := { lk with ops := [opOf o] }
def laneOrg : Origin := .lane 0 0 (some 63) .n8 true 5 0

theorem witness_RequestsAndResponses : Fits lk 63 hdr ∧ kindOk (reqTo 0 true).kind = true ∧
    bits (reqTo 0 false).addr.toNat 52 10 = lk.moduleId ∧ bits (reqTo 0 false).addr.toNat 62 2 = 1 ∧ bits (reqTo 0 false).addr.toNat 44 8 = 0 ∧
    populated ((reqTo 0 false).addr.toNat % 2 ^ 44) 8 = true ∧ bits (reqTo 1023 false).addr.toNat 52 10 ≠ lk.moduleId ∧
    (rspTo 1023).dest ≠ lk.moduleId ∧ (rspTo 0).dest = lk.moduleId ∧ lk.ops.find? (fun o => o.tag == 9 && o.module == 1) = none ∧
    (∀ o ∈ [laneOrg, .runtime], Fits (awaits o) 63 hdr ∧ (awaits o).ops.find? (fun o => o.tag == 9 && o.module == 1) = some (opOf o)) ∧
    laneOrg.tile = some 0 := by decide

/-- Partition 15 with channel 30, whose first bucket has started or not, and a norm channel that has formed its totals or not: both leave
by group 7. OUT lies in a plain region. -/
def chans15 (started : Nat) : State :=
  ((lk.putChan 15 30 { chan0 with desc := BitVec.ofNat 256 (30 + 7 * 2 ^ 23 + 2 ^ 11 + 2 ^ 197), present := true, started := started }).putChan 15 31
    { chan0 with desc := BitVec.ofNat 256 (95 + 7 * 2 ^ 23 + 2 ^ 11), present := true, started := started }).putRegion 0 rgn
def block1 : WireBlock := { block0 with elems := List.replicate 32 1 }

theorem witness_RingBodies : ∀ st ∈ [0, 1], let s := chans15 st
    let d := chanDesc (s.chan 15 30).desc
    Fits s 63 hdr ∧ hdr.partition % 16 = 15 ∧ (s.chan 15 30).present = true ∧ d.norm = false ∧ groupWest (63 / 8) = groupWest d.outGroup ∧
    ((s.chan 15 30).started ≤ 0 / d.bucket ∨ 0 / d.bucket < (s.chan 15 30).started) ∧ s.normChan 15 = some 31 ∧ (s.chan 15 31).started = st ∧
    groupWest (63 / 8) = groupWest (chanDesc (s.chan 15 31).desc).outGroup ∧ s.phase 15 ≠ phClip ∧ (s.chan 15 31).complete = false ∧
    s.totalsWait (s.chan 15 31) = false ∧ block1.poison = false ∧ block1.elems.length = 32 ∧ (s.chan 15 30).complete = false ∧
    s.blocksWait d [0] = false ∧ 0 ∉ (s.chan 15 30).done ∧ (s.chan 15 30).done.length + 1 < d.sizeOf (s.chan 15 30).finished ∧
    d.shardOf 0 ≠ (d.pos + 1) % d.ring ∧ (d.pos + 1) % d.ring ≠ 0 % d.ring ∧ 1 % d.ring ≠ d.pos ∧ rgn.write = true ∧ rgn.shared = false ∧
    rgn.staged = false := by decide +kernel

/-- OUT of both channels begins at offset 0. -/
theorem witness_RingBodies_out (i : Nat) (h : i < 128) : (chans15 1).regionAt (0 + 128 * 0 + i) = some (0, rgn) := by
  have e : (chans15 1).regions = [(0, rgn)] := by decide
  have k : rgn.holds (0 + 128 * 0 + i) = true := by
    simp only [Region.holds, inUnits, rgn, region0]
    simp
    have : 128 ≤ unit16 := by decide
    omega
  simp only [State.regionAt, e, List.find?_cons, k]
  rfl

/-- Sixteen wrong symbols, one more than RS(544,514) corrects (R314); and a flit in sequence and out of it. -/
def spoilt : RxHdr := { hdr with cw0 := (List.range 16).map (fun i => (i, 1)) }

theorem witness_RejectedFlits : lk.linkState 63 = lkUp ∧ (Link.arrival (lk.link 63) spoilt).codeOk = false ∧ (lk.link 63).nakOut = false ∧
    { hdr with seq := 0 }.seq ≠ (lk.link 63).rxSeq ∧ kindOk (reqTo 0 false).kind = true := by decide +kernel

/-- Training, with the declared peer, another one, and a third failure; limits reached. -/
def declared (st fails : Nat) : State :=
  ((up.wr (oLinkExpect 63) 0x1FC01).wrF (oLinkStatus 63) 0 3 st).putLink 63 { link0 with fails := fails, nakIn := true }
def trained : TrainResult := { failed := false, module := 1, link := 63, laneOk := 0xFF, reversed := false, inverted := 0 }

theorem witness_LinksTrainAndRetrain : (∀ st ∈ [lkTraining, lkRetrain, lkUp], (declared st 2).linkState 63 = st) ∧
    ((declared lkUp 2).link 63).nakIn = true ∧ trained.failed = false ∧
    (declared lkTraining 2).rdF (oLinkExpect 63) 0 10 = trained.module % 1024 ∧
    (declared lkTraining 2).rdF (oLinkExpect 63) 10 6 = trained.link % 64 ∧
    ¬ ((declared lkTraining 2).rdF (oLinkExpect 63) 0 10 = 2 % 1024) ∧ 3 ≤ ((declared lkTraining 2).link 63).fails + 1 ∧
    (let s := ((declared lkUp 2).wr (oLinkLimits 63) 0x0202).putLink 63 { link0 with winUncorr := 2, winReplay := 1 }
     s.linkState 63 = lkUp ∧ s.rdF (oLinkLimits 63) 0 8 ≤ (s.link 63).winUncorr ∧ s.rdF (oLinkLimits 63) 8 8 > (s.link 63).winReplay) := by
  decide

/-! ### The recorder -/

def rep0 : Report := { cls := .link, status := .ok, src := srcLink 63, snap := [], rings := [16], unsent := [] }
def queued : Queued := { rep := rep0, steps := 5, epoch := 6 }
def rec0 (n : Nat) : Record :=
  { seq := n, cls := 12, status := 0, src := (srcLink 63).kind * 2 ^ 14 + (srcLink 63).index, steps := 1, epoch := 0, rep := 65535, snap := [] }

theorem witness_ReportsAreQueuedAndRecorded : up.power.off = false ∧ tget [] up.recorder.buffers up.recorder.rotaPos = [] ∧
    tget [] ({ up.recorder with buffers := [(0, [rep0])] } : Recorder).buffers 0 = [rep0] ∧ rep0.unsent = [] ∧
    ({ up with recorder := { up.recorder with queue := [queued] } } : State).historyDue = false ∧
    (up.recorder.classCfg rep0.cls.code).testBit 0 = true ∧ up.recorder.log.getLast? = none := by decide

theorem witness_RepeatsRaiseRepeatAlone : let s : State := { up with recorder := { up.recorder with queue := [queued], log := [rec0 0] } }
    s.recorder.queue = [queued] ∧ s.historyDue = false ∧ (s.recorder.classCfg queued.rep.cls.code).testBit 0 = true ∧
    s.recorder.log.getLast? = some (rec0 0) ∧ (rec0 0).cls = queued.rep.cls.code ∧ (rec0 0).status = queued.rep.status.code ∧
    (rec0 0).src = queued.rep.src.kind * 2 ^ 14 + queued.rep.src.index := by decide

/-! ### Rings and commands -/

/-- Ring 0 (a partition's) or ring 16 (the owner's) RUNNING with entries to fetch; partition 0 in READY. -/
def running (s : State) (r : Nat) : State :=
  { (((s.wrF (oRingStatus r) 0 2 1).wrF (oRingCtrl r) 0 1 1).putRing r { ring0 with cmdProd := 2 }) with host := { s.host with linkUp := true } }
def ready0 : State := up.putPart 0 { partFree with ready := true, quads := 1, key := 7 }
def part0 : State := running ready0 0
def owner : State := running up 16

theorem witness_RingsStartStopAndReadTheHost : takes up rt (oRingCtrl 16) = true ∧ up.ringState 16 = 0 ∧ up.rdF (oRingCtrl 16) 0 1 = 0 ∧
    takes owner rt (oRingCtrl 16) = true ∧ owner.rdF (oRingCtrl 16) 0 1 = 1 ∧ owner.ringState 16 = 1 ∧
    ((16 : Word) - owner.rd (oRingCmdCons 16)).toNat ≤ 2 ^ owner.rdF (oRingSize 16) 0 5 ∧
    ¬ ((17 : Word) - owner.rd (oRingCmdCons 16)).toNat ≤ 2 ^ owner.rdF (oRingSize 16) 0 5 := by decide

/-- A host read of 8 nibbles awaited by host channel 15, for offset 0x100 in a plain region. -/
def hostX : Xfer := { xfer with regs := [0, 0, 0x100, 0, 8, 0x00010001, 1, 0, 0, 0, 0, 0, 0, 0, 0, 0x6D], readBack := false, run := 0 }
def reads : State :=
  ({ up with dma := [(527, hostX)], host := { up.host with reads := [(0, 527, 0, 0, 8)] } } : State).putRegion 0 rgn

theorem witness_RingsStartStopAndReadTheHost_reads : let d := dmaDesc hostX.regs
    reads.inService = true ∧ reads.host.reads[0]? = some (0, 527, 0, 0, 8) ∧
    tfind reads.dma 527 = some hostX ∧ hostX.part = none ∧ hostX.stop = false ∧ d.mode = 0 ∧ d.swap = 0 ∧ d.rcast = false ∧
    reads.mineSide d.dstHost d.dst = true ∧ 0 < d.sw ∧ 8 % d.sw = 0 ∧ 0 < d.dw ∧ 8 % d.dw = 0 ∧ bits (d.dstAt 0 + 0) 0 44 = 0x100 := by decide

theorem witness_RingsStartStopAndReadTheHost_out : ∀ i, i < 8 → reads.regionAt (0x100 + i) = some (0, rgn) := by decide

theorem witness_QueriesAnswerAndChangeNothing : Ready part0 (on 0) ∧ part0.anyState (on 0) = true ∧ part0.created 0 = true ∧
    Ready owner (on 16) ∧ owner.anyState (on 16) = true ∧ (running ready0 16).partState 0 ≠ 0 ∧
    Ready (running up 0) (on 0) ∧ (running up 0).anyState (on 0) = false := by decide

/-- Every owner command of the statement: a shared region, its seal, a grant and its revocation. -/
def owned : State := running ((ready0.putRegion 0 { rgn with origin := true }).putKmap 0 14 { kmap0 with valid := true }) 16

theorem witness_OwnerCommandsTakeForce : Ready owner (on 16) ∧ owner.inService = true ∧ Ready owned (on 16) ∧ owned.inService = true ∧
    owner.regionFormOk 4095 { region0 with base := 1, len := 1, valid := true, read := true, write := true, origin := true } = true ∧
    meetsKeeper 1 1 = false ∧ (∀ f ∈ unitFields 1 1, owner.partOfField f = none) ∧ owner.freeEntry = some 0 ∧
    (owned.region 0).valid = true ∧ (owned.region 0).origin = true ∧ (owned.region 0).shared = false ∧ owned.partState 0 = 2 ∧
    (owned.kmap 0 13).valid = false ∧ (owned.kmap 0 14).valid = true := by decide +kernel

theorem witness_EventReadDelivers : Ready owner (on 16) ∧ 1 ≤ 4096 ∧ 64 * 4096 ≤ 0x40000 := by decide +kernel

/-- A live command on the ring; a cached region; a pinned entry. -/
def busy0 : State := part0.putRing 0 { cmdProd := 2, cplCons := 0, live := [{ seq := 0, tag := 9, opcode := 0x12, op := .sched }], nextSeq := 1 }
def cached0 : State := running (((ready0.wr (oScPinQuotaLo 0) 1).putRegion 0 { rgn with cached := true }).putHalf 1 { half0 with pins := [(7, { pin0 with ways := 1, len := 1 })] }) 0

theorem witness_WaitingCommandsStandInOrder : Ready busy0 (on 0) ∧ (busy0.ring 0).live ≠ [] ∧
    (∀ x ∈ (busy0.ring 0).live, x.op ≠ .fence ∧ x.seq < (busy0.ring 0).nextSeq) ∧ part0.readyPart 0 = true ∧
    Ready cached0 (on 0) ∧ cached0.openPart 0 = true ∧ (cached0.half (halfOf (rangeLo 0))).op = none ∧ rangeHi 0 4096 ≤ vaultEnd ∧
    rangeHalves 0 4096 = [halfOf (rangeLo 0)] ∧ cached0.cachedUnits (some 0) 0 4096 = true ∧ 0 < (tget pin0 (cached0.half 1).pins 7).ways ∧
    (tget pin0 (cached0.half 1).pins 7).part = 0 ∧ (part0.ring 0).live = [] := by decide

/-- A cached region over the border of the fields of column 3 and of column 4. -/
def bothHalves : State := running (ready0.putRegion 0 { rgn with base := 49151, len := 2, cached := true }) 0
theorem witness_WaitingCommandsStandInOrder_halves : Ready bothHalves (on 0) ∧ bothHalves.openPart 0 = true ∧
    (∀ h, h < 2 → (bothHalves.half h).op = none) ∧ rangeHalves 201326591 2 = [0, 1] ∧ rangeHi 201326591 2 ≤ vaultEnd ∧
    bothHalves.cachedUnits (some 0) 201326591 2 = true := by decide

theorem witness_WaitingCommandsStandInOrder_owner : owner.inService = true ∧ owner.frameChanges { slots := [] } = [] ∧
    owner.partState 15 = 0 ∧ owner.quadsShared 0x8000 = false ∧ (∀ q, q < 16 → (0x8000#16).getLsbD q = true → owner.partOfQuad q = none) ∧
    owner.mayCreate = true ∧ (owned.region 0).valid = true ∧ (owned.region 0).origin = true ∧ owned.grantees (owned.region 0) = [] ∧
    owned.restoreRuns 0 = false := by decide

/-- A clip threshold, a tied tensor of two uses, and the table of a job of this module alone with a writable clip word. -/
def tie0 : Tie := { tensor := 0, tile := 191, uses := 2, slots := 0, stride := 64, grad := 128, scratch := 0x5FFC00, elems := 16 }
def tabled0 : State := running (ready0.putRegion 0 rgn) 0

theorem witness_JobCommandsTakeForce_insns : (∀ w ∈ [0#64, 0xCFFFFFFFFFFFFFFF#64], w.toNat / 2 ^ 60 < 13) ∧
    (∃ w ∈ [0#64, 0xD000000000000000#64], 13 ≤ w.toNat / 2 ^ 60) := by simp

theorem witness_JobCommandsTakeForce : Ready part0 (on 0) ∧ part0.fieldsOwn 0 0x303 = true ∧ part0.readyPart 0 = true ∧
    part0.takesTies = true ∧ 8191 + 1 ≤ 8192 ∧
    (let x := part0.regionFor 0 0x07000001 1 0
     x.valid = true ∧ part0.regionFormOk 4095 x = true ∧
     ∀ u ∈ x.ranges, meetsKeeper u.1 u.2 = false ∧ ∀ f ∈ unitFields u.1 u.2, f ∈ part0.partFields 0) ∧ part0.freeEntry = some 0 ∧
    part0.partState 0 = 2 ∧ (part0.regions.map (·.1)).Nodup := by decide +kernel

theorem witness_JobCommandsTakeForce_step : part0.idlePart 0 = true ∧ positiveF32 0x3F800000 = true ∧ tieOk tie0 = true ∧
    part0.jobTies (part0.jobOf 0) < 256 ∧ part0.partOfField (191 / 192) = some 0 ∧ Ready tabled0 (on 0) ∧ tabled0.phase 0 = phIdle ∧
    tabled0.tableOk 0 tbl1 = true ∧ tabled0.keeperId = tabled0.moduleId ∧ tabled0.readsPoison [] (oClaim 63) 8 = false ∧
    ofNibs (tabled0.seen [] (oClaim 63) 8) = 0 ∧ tabled0.anyPoison (oDirectory 63) (64 + 4 * 1) = false ∧
    (let s : State := { tabled0.wr oFabKeeper 5 with routes := [(5, { group := 7, valid := true })] }
     Ready s (on 0) ∧ s.partState 0 = 2 ∧ s.phase 0 = phIdle ∧ s.tableOk 0 tbl1 = true ∧ s.keeperId ≠ s.moduleId ∧
     (s.route s.keeperId).valid = true) := by decide +kernel

/-- A table in which this module is not the first. -/
theorem witness_JobCommandsTakeForce_other :
    tabled0.tableOk 0 { tbl with modules := 2, entries := 2, index := 1, length := 2080, list := [(1, false), (0, false)] } = true := by
  decide +kernel

/-- A partition with a schedule, and with a live kernel in slot 15 of tile 191. -/
def scheduled : State := running (ready0.putPart 0 { ready0.part 0 with sched := some good }) 0
def kern : Kernel := { part := 0, ring := 0, tag := 3, entry := 5, slots := [191 * 16 + 15], fault := .ok, aborted := true }
def launched : State :=
  { (running ready0 0).putGroup 191 15 { grp with kernel := 65535 } with kernels := [(65535, kern)] }

theorem witness_WorkCommandsStartAndStop : Ready scheduled (on 0) ∧ scheduled.fieldsOwn 0 0x303 = true ∧ scheduled.openPart 0 = true ∧
    (scheduled.part 0).sched.isSome = true ∧ tfind scheduled.kernels 65535 = none ∧ scheduled.groups = [] ∧ groupFree.live = false ∧
    scheduled.inPhase 0 8191 = true ∧ Ready launched (on 0) ∧ launched.openPart 0 = true ∧ tfind launched.kernels 65535 = some kern ∧
    (launched.group 191 15).live = true ∧ (launched.group 191 15).kernel = 65535 := by decide

/-- Host channel 15 given to ring 0, and to the owner: a copy of 8 nibbles from host memory to offset 0. -/
def hostImg : List Word := [0, 0, 0x100, 0, 8, 0x00010001, 1, 0, 0, 0, 0, 0, 0, 0, 0, 0x6D]
def given (s : State) (r : Nat) : State := running (s.wr (oHostDmaRing 3) (BitVec.ofNat 32 (r * 2 ^ 24))) r

theorem witness_WorkCommandsStartAndStop_dma : ∀ r ∈ [0, 16], let s := given ready0 r
    Ready s (on r) ∧ s.rdF (oHostDmaRing (15 / 4)) (8 * (15 % 4)) 8 = r ∧ s.inService = true ∧ s.openPart 0 = true ∧
    s.dmaBusy 527 = false ∧ 2 ≤ ((s.ring r).cmdProd + 2 ^ 32 - (s.rd (oRingCmdCons r)).toNat) % 2 ^ 32 ∧
    (s.dmaCheck 527 (dmaDesc ((s.dmaLoad 527 hostImg).dmaRegs 527))).1 = .ok := by decide +kernel

/-- A pin of 4,096 lines; a step with one batch of a tensor that has an Lmax; a step that runs. -/
def stepping : State := running (ready0.putPart 0 { ready0.part 0 with table := some tbl1, limits := { lmax := [(1, 10, true)], bmax := 2 } }) 0
def aborting : State := running ((inPhase phCommit).putPart 0 { (inPhase phCommit).part 0 with step := partFree.step }) 0

theorem witness_WorkCommandsStartAndStop_step : Ready cached0 (on 0) ∧ cached0.readyPart 0 = true ∧ cached0.freePin 0 = some 0 ∧
    cached0.pinCheck 0 0 0 0 4096 = .ok ∧ Ready stepping (on 0) ∧ stepping.idlePart 0 = true ∧ (stepping.part 0).table.isSome = true ∧
    (lmaxOf (stepping.part 0).limits 1).isSome = true ∧ stepping.clipWordsOk 0 = true ∧
    lengthExceeded (stepping.part 0).limits [(1, 20)] = false := by decide +kernel

theorem witness_WorkCommandsStartAndStop_abort : ∀ ph ∈ [phFwd, phCommit], let s := running (inPhase ph) 0
    Ready s (on 0) ∧ s.created 0 = true ∧ phFwd ≤ s.phase 0 ∧ s.phase 0 ≤ phCommit ∧ s.rdF (oStepPhase 0) 4 1 = 0 := by decide

theorem witness_WorkCommandsStartAndStop_destroy : Ready (running ready0 16) (on 16) ∧ (running ready0 16).partState 0 = 2 ∧
    (running ({ ready0 with kernels := [(0, kern)] }) 16).partState 0 = 3 := by decide

theorem witness_KernelsScrubsAndRestoresEnd : launched.inService = true ∧ tfind launched.kernels 65535 = some kern ∧
    (∀ x ∈ kern.slots, kern.aborted = true ∧ launched.slotQuiet (x / 16) (x % 16) = true) := by decide

/-- A scrub of each kind. -/
def scrub (k : ScrubKind) : Scrub := { kind := k, quads := 0x8000, base := 0, len := 1, cmd := (16, 0) }

theorem witness_KernelsScrubsAndRestoresEnd_scrub : ∀ k ∈ [ScrubKind.create 15, .destroy 15, .shared 4094, .debug],
    let s : State := { up with scrubs := [scrub (.destroy 1), scrub k] }
    s.inService = true ∧ s.scrubs[1]? = some (scrub k) ∧ s.kernelLive 15 = false := by decide

/-- A shared region without a replica, and with one. -/
def shared (rep : Tab Replica) : State :=
  { (up.putRegion 4094 { rgn with shared := true, replica := 1 }).wr (oRgnPoison 127) 0x40000000 with replicas := rep }
def rep1 : Replica := { kind := 1, module := 1, hostch := 0, key := 7, addr := 0, valid := true }

theorem witness_KernelsScrubsAndRestoresEnd_restore : (shared []).inService = true ∧ ((shared []).region 4094).shared = true ∧
    (shared []).rgnPoison 4094 = true ∧ (tget noReplica (shared []).replicas 1).valid = false ∧
    (tget noReplica (shared [(1, rep1)]).replicas 1).valid = true ∧ 0 < ((shared []).region 4094).len ∧ (0 + 1) * unit16 ≤ vaultEnd := by
  decide

theorem restore_data (i : Nat) (h : i < (List.replicate unit16 (0 : Nib)).length) :
    (shared [(1, rep1)]).regionAt (0 * unit16 + i) = some (4094, { rgn with shared := true, replica := 1 }) := by
  rw [List.length_replicate] at h
  have e : (shared [(1, rep1)]).regions = [(4094, { rgn with shared := true, replica := 1 })] := by decide
  have k : ({ rgn with shared := true, replica := 1 } : Region).holds (0 * unit16 + i) = true := by
    simp only [Region.holds, inUnits, rgn, region0]
    simp
    omega
  simp only [State.regionAt, e, List.find?_cons, k]
  rfl

/-! ### Security, power, start-up and JTAG -/

def image (v : Nat) : FwImage := { version := v, signer := 1, sigOk := true, hash := 0, code := [0x5A] }
def revoked : Revocation := { version := 1, minFw := 2, signers := [9], identities := [], sigOk := true }
def secure : State := { owner with sec := { owner.sec with idOk := true, fw := some (image 3), signNext := 24576 },
                                   flash := { owner.flash with revocation := revoked, slot0 := some (image 3), slot1 := some (image 2) } }

theorem witness_SecurityCommandsTakeForce : Ready secure (on 16) ∧ secure.sec.idOk = true ∧ secure.sec.signNext < 2 ^ 25 ∧
    ({ revoked with version := 2 } : Revocation).sigOk = true ∧ secure.flash.revocation.version < 2 ∧
    secure.flash.revocation.passes (image 2) = true ∧ secure.flash.revocation.passes (image 1) = false ∧ secure.needsToken 2 = false ∧
    secure.firmwareRuns = true ∧ 24576 ≤ secure.sec.signNext % 32768 ∧ secure.sec.signNext / 32768 + 1 < 1024 := by decide

/-- SEALED, with a token for this device, this boot and the target. -/
def token (target : Nat) : Signed :=
  { formatOk := true, sigOk := true, signer := 1, version := 0, target := target, idHash := keyHash 1, boots := 0 }
def sealed : State := { ((secure.wrF oSecStatus 0 2 1).wr oFabKeeper 5).wrF oFabKeeper 20 1 1 with
                          flash := { secure.flash with life0 := some (1, 1) } }

theorem token_passes (target : Nat) : sealed.tokenCheck target (some (token target)) = .ok := by
  have e : sealed.flash.revocation.signers = [9] ∧ sealed.flash.boots = 0 := by decide
  simp [State.tokenCheck, token, e]

theorem witness_SecurityCommandsTakeForce_token : Ready sealed (on 16) ∧ sealed.needsToken 2 = true ∧ sealed.sec.idOk = true ∧
    sealed.isKeeper = false ∧ sealed.isStandby = false ∧ sealed.inService = true ∧ sealed.modState = stReady ∧
    (∀ p, p < 16 → sealed.partState p = 0) ∧ lifeMove sealed.flash.life 0 = true ∧ lifeMove sealed.flash.life 2 = true := by decide

/-- The owner ring in REEF by command, in READY without partitions, and in DORMANT. -/
def reef : State := running (((State.reset.setModState stReef).wrF oPwrState 12 1 1).wr oFabKeeper 5) 16

theorem witness_PowerActionsChangeTheState : Ready owner (on 16) ∧ owner.stCode = stReady ∧ Ready reef (on 16) ∧ reef.stCode = stReef ∧
    reef.commanded = true ∧ reef.power.holding = false ∧ (∀ p, p < 16 → sealed.partState p = 0) ∧ sealed.stCode = stReady ∧
    sealed.regions = [] ∧ Ready (running (State.reset.setModState stDormant) 16) (on 16) ∧
    (running (State.reset.setModState stDormant) 16).stCode = stDormant := by decide

/-- A hold in REEF, by a warning and by command. -/
def held (byCommand : Bool) : State :=
  { ((State.reset.setModState stReef).wrF oPwrState 12 1 (b2n byCommand)) with power := { up.power with holding := true } }

theorem witness_RideThroughFollowsTheInput : up.power.off = false ∧ up.stCode = stReady ∧ up.rotors = [] ∧ up.groups = [] ∧
    (∀ p, p < 16 → up.chansOf p = []) ∧ (State.reset.setModState stDormant).stCode = stDormant ∧
    ((held true).setModState stReef).stCode = stReef ∧
    ({ held true with power := { (held true).power with holding := false } } : State).power.holding = false ∧
    (∀ c : Bool, (held c).stCode = stReef ∧ (held c).power.holding = true ∧ (held c).rdF oPwrState 9 1 = 0 ∧ (held c).commanded = c) ∧
    (State.reset.setModState stStrike).stCode = stStrike ∧ (State.reset.setModState stStrike).power.pfw = false ∧
    (State.reset.setModState stStrike).commanded = false ∧ ({ strike with power := { strike.power with wake := true } } : State).power.wake = true := by
  decide

/-- The governor at its caps: watts just below and above 11/10 of the cap, at the lowest point and above it, duty full and reduced. -/
def gov (point d : Nat) : State := (((up.wr oPwrCap 0x205DC0).wrF oPwrState 0 3 point).wrF oPwrState 3 5 d)

theorem witness_GovernorAndReportsInService : (gov 0 16).power.off = false ∧ (gov 0 16).stCode = stReady ∧
    (gov 0 16).rdF oPwrCap 0 16 = 24000 ∧ (gov 0 16).rdF oPwrCap 16 3 = 0 ∧ (gov 0 16).rdF oPwrCap 19 3 = 4 ∧
    10 * 26400 ≤ 11 * 24000 ∧ 11 * 24000 < 10 * 26401 ∧ (gov 1 16).rdF oPwrState 0 3 = 1 ∧ (gov 0 14).rdF oPwrState 3 5 = 14 ∧
    9 * 24000 ≤ 10 * 21600 ∧ 10 * 21599 < 9 * 24000 ∧ up.firmwareRuns = true ∧ up.inService = true ∧ up.power.hotInlet = false := by decide

/-- Each order of start-up, and what it may find. -/
def order (n : Nat) : State := State.reset.wrF oSuStatus 0 4 n
def found : OrderData :=
  { rail := none, inputMv := 54000, bulkUf := 0, pufOk := true, flashOk := true, selfFail := none, inlet := 40, outlet := 43,
    junction := 60, fails := [], badCh := [] }

theorem witness_StartupFollowsItsOrders : (∀ n ∈ List.range' 1 11, (order n).starting = true ∧ (order n).rdF oSuStatus 0 4 = n) ∧
    coolantOk found = true ∧ coolantOk { found with inlet := 41 } = false ∧ (order 4).flash.images = [] ∧
    ({ secure.flash with slot1 := none } : Flash).images.find? revoked.passes = some (image 3) ∧
    (∀ x ∈ ({ secure.flash with slot0 := some (image 1), slot1 := none } : Flash).images, revoked.passes x = false) ∧
    ({ found with rail := some 255 } : OrderData).rail = some 255 ∧ ({ found with selfFail := some 3 } : OrderData).selfFail = some 3 ∧
    (order 7).mustSkip 63 = [] ∧ found.badCh = [] ∧ (order 8).startup.beacon = none := by
  decide

/-- Field 63 with five faulty sites, and no field before it with any. -/
theorem witness_StartupFollowsItsOrders_sites :
    let s : State := { order 7 with startup := { (order 7).startup with fails := (List.range 5).map (fun i => (63, i, 0)) } }
    4 < (s.mustSkip 63).length ∧ ∀ g, g < 63 → (s.mustSkip g).length ≤ 4 := by decide +kernel

/-- No vault of a state that lists none has a channel out of use. -/
theorem witness_StartupFollowsItsOrders_channels (f site : Nat) : ((order 8).vault f site).badCh = [] := rfl

theorem witness_LinkUpPerstAndLamps : up.hostDead = false ∧ up.rdF oMcState 0 4 ≠ stStartup ∧ (order 3).hostDead = false ∧
    3 ≤ (order 3).rdF oSuStatus 0 4 ∧ up.power.off = false := by decide

theorem witness_ResetsRestoreResetValues : owner.power.off = false ∧ Ready owner (on 16) ∧
    owner.tapLevel ≠ 2 ∧ (owner.wrF oSecStatus 2 2 2).tapLevel = 2 := by decide

/-- Levels D0, D1 and D2. -/
def tapAt (l : Nat) : State :=
  (up.wrF oSecStatus 2 2 l).putRegion 0 { region0 with base := 1, len := 1, valid := true, read := true, write := true }

theorem witness_TapInstructionsByLevel : (∀ l ∈ [0, 1, 2], (tapAt l).tapLevel = l ∧ (tapAt l).power.off = false ∧ (tapAt l).modState ≠ stBeacon ∧
      (tapAt l).modState ≠ stDormant) ∧
    ((State.reset.setModState stDormant).wrF oSecStatus 2 2 1).tapLevel = 1 ∧
    ((State.reset.setModState stDormant).wrF oSecStatus 2 2 1).modState = stDormant ∧ (tapAt 2).firmwareRuns = true ∧
    (∀ k ∈ [AccKind.load 8, AccKind.store [1]], (tapAt 2).tapMemory 0x1000008 k = true ∧
      (tapAt 2).homeTests (tapAccess (addrOff 0x1000008) k) = .ok ∧ (tapAt 2).cachedOff (tapAccess (addrOff 0x1000008) k).off = false ∧
      (tapAt 2).anyPoison ((tapAt 2).physAt (tapAccess (addrOff 0x1000008) k).off) 8 = false ∧
      (tapAt 2).writesDropped ((tapAt 2).physAt (tapAccess (addrOff 0x1000008) k).off) = false) := by decide

/-! ### Every command -/

/-- A command of each verdict: well-formed, with a unit that does not exist, and of a form that program load rejects. -/
theorem witness_CommandsCompleteOrNameTheirStop : (Instr.idcode).wf = true ∧ (Instr.lampTimer).wf = true ∧
    (Instr.stallEvent 12288 0).units = false ∧ (Instr.sys iss 0 9).units = true ∧ (Instr.sys iss 0 9).loadable = false := by decide

theorem witness_StepRunsFront : State.reset.pending = [] := rfl

theorem witness_SigningIndicesAreNeverReused : SigningInv State.reset ∧ ∃ t, step State.reset = .next t :=
  ⟨⟨Nat.le_refl 0, Nat.le_refl 0⟩, _, rfl⟩

theorem witness_MemoryStaysCanonical : Memory.wf (setNibs [] 7 [0, 1, 2]) = true := by decide

/-! ### Single steps, with results worked out from the rules; the worked examples of spec/ are named -/

/-- The state after a command, where it answers one. -/
def after (c : Instr) (s : State) : State := match exec c s with
  | .next t => t
  | _ => State.reset

/-- Lane 0 of `thr` with x in g2 and y in g3. -/
def xy (x y : Word) : State := (thr.setG 0 0 2 x).setG 0 0 3 y

theorem test_iadd_wraps : (after (.iadd iss 1 2 (.reg 3)) (xy 0xFFFFFFFF 2)).g 0 0 1 = 1 := by decide
theorem test_isub_own_source : (after (.isub iss 2 2 (.reg 2)) (xy 7 0)).g 0 0 2 = 0 := by decide
theorem test_imulh_signless : (after (.imulh iss 1 2 (.reg 3)) (xy 0x40000000 4)).g 0 0 1 = 1 := by decide
theorem test_sar_keeps_sign : (after (.sar iss 1 2 (.imm 31)) (xy 0x80000000 0)).g 0 0 1 = 0xFFFFFFFF := by decide
theorem test_imin_signed : (after (.imin iss true 1 2 (.reg 3)) (xy 0xFFFFFFFF 1)).g 0 0 1 = 0xFFFFFFFF ∧
    (after (.imin iss false 1 2 (.reg 3)) (xy 0xFFFFFFFF 1)).g 0 0 1 = 1 := by decide
theorem test_clz_of_zero : (after (.clz iss 1 2) (xy 0 0)).g 0 0 1 = 32 ∧ (after (.clz iss 1 2) (xy 1 0)).g 0 0 1 = 31 := by decide
theorem test_isetp_signed : (after (.isetp iss .lt true 0 2 (.reg 3)) (xy 0x80000000 0)).p 0 0 0 = true ∧
    (after (.isetp iss .lt false 0 2 (.reg 3)) (xy 0x80000000 0)).p 0 0 0 = false := by decide
theorem test_guard_off_writes_nothing : (after (.mov { iss with gneg := true } 1 (.imm 5)) thr).g 0 0 1 = 0 ∧
    ((after (.mov { iss with gneg := true } 1 (.imm 5)) thr).entries 0).map (·.pc) = [6] := by decide

/-- 1 + 2^-24 is midway between two F32 codes, and the even one is 1. -/
theorem test_fadd_tie_to_even : (after (.fadd iss 1 (fr 2) (fr 3)) (xy 0x3F800000 0x33800000)).g 0 0 1 = 0x3F800000 := by decide
theorem test_ffma_rounds_once : -- (1 + 2^-23)² − (1 + 2^-22) = 2^-46
    (after (.ffma iss 1 (fr 2) (fr 2) (fr 3)) (xy 0x3F800001 0xBF800002)).g 0 0 1 = 0x28800000 := by decide
theorem test_fsetp_zeros_are_equal : (after (.fsetp iss .ge 0 (fr 2) (fr 3)) (xy 0x80000000 0)).p 0 0 0 = true := by decide
theorem test_f2i_of_minus_two : (after (.f2i iss true 1 2) (xy 0xC0000000 0)).g 0 0 1 = 0xFFFFFFFE := by decide

/-- Worked examples of 03_number_formats.md: P32 to B16 without double rounding, stochastic rounding, E4M3 range. -/
theorem test_cvt_p32_to_b16 : (after (.cvt iss 1 2 (.imm 0) 4 { src := 1, dst := 2, ctrl := 0 }) (xy 0x3F808000 0x30800000)).g 0 0 1 = 0x3F81 := by
  decide
theorem test_stochastic_rounding : cvtCode .b16 1 (.sr 0x3A41) 0 (f32Val 0x3F806000) = 0x3F81 ∧
    cvtCode .b16 1 (.sr 0x7000) 0 (f32Val 0x3F806000) = 0x3F80 ∧ cvtCode .b16 0 .rne 0 (f32Val 0x3F806000) = 0x3F80 := by decide
theorem test_e4m3_range : [0x43DC0000, 0x43E80000, 0x43FA0000].map (fun c => cvtCode .e4m3 0 .rne 0 (f32Val c)) = [0x7E, 0x7E, 0x7F] ∧
    [0x43DC0000, 0x43E80000, 0x43FA0000].map (fun c => cvtCode .e4m3 2 .rne 0 (f32Val c)) = [0x7E, 0x7E, 0x7E] := by decide

/-- Worked example: the E2M1 block of 10.0, −3.1, 0.7 and 0.5. -/
def e2m1Block : List Val := ([0x41200000, 0xC0466666, 0x3F333333, 0x3F000000] : List Word).map f32Val ++ List.replicate 28 (.fin false dy0)
theorem test_e2m1_block : (convBlock .e2m1 (List.replicate 32 .rne) e2m1Block).1.take 5 = [6, 0xB, 1, 0, 0] ∧
    (convBlock .e2m1 (List.replicate 32 .rne) e2m1Block).2 = 0x80 := by decide +kernel

/-- Worked example of 08_stacked_memory.md: its check symbols, and symbol 1 read as x3 in place of xB. -/
theorem test_symbol_code : eccChecks [6, 0xB, 1, 0] = [0xE, 0xE, 9, 0xB] ∧ eccDecode false 0x80 = .corrected 1 8 := by decide

/-- Worked example of 08_stacked_memory.md: @x061_5234_5678. -/
theorem test_vault_place : up.vaultLoc 0x06152345678 =
    { field := 2, home := 6, site := 6, ch := 2, bank := 6, row := 548, sector := 25, slot := 522 } := by decide +kernel

/-- Worked example of 09_system_cache.md: mesh row and column of site 17 of field 9, and the hops to its edge port. -/
theorem test_mesh_to_slice : meshRow 9 17 = 15 ∧ meshCol 9 17 = 17 ∧ (toPort true 15 17).length = 18 := by decide

/-- Worked example of 10_fabric.md: the logical links, the hops to the departing link, through a module and along the home's row. -/
theorem test_fabric_route : logicalLink 9 0x06152345678 = 5 ∧ logicalLink 0 0x06152345678 = 4 ∧ meshRow 31 100 = 49 ∧ meshCol 31 100 = 100 ∧
    (hopsToGroup 31 100 0).length = 12 ∧ (hopsThrough 13 2 70).length = 113 ∧ (hopsFromLink 29 2 6).length = 35 := by decide

/-- The generator polynomial of RS(544,514) is a codeword: with it as error pattern every syndrome is zero (R314). -/
def oneSymbol : SymErrs := (513, 1) :: List.zip (List.range' 514 30) rsGenerator
theorem test_codeword_has_no_syndrome : (rsSyndromes oneSymbol).all (fun x => x == 0) = true := by decide +kernel

/-- Worked example of 04_thread_groups.md: lane 0 adds 2^24 and a second lane 1.0 to the word 1.0 at x1000. -/
def atomS : State := { ((thr.setG 0 0 4 0x4B800000).setG 0 1 4 0x3F800000) with mem := setNibs [] (storeBase 0 + 0x1000) (nibsOf 0x3F800000 8) }
theorem test_atom_lane_order : let t := after (.atomT iss .fadd none 1 2 (.imm 0x1000) 4 5) atomS
    t.load (storeBase 0 + 0x1000) 8 = 0x4B800000 ∧ t.g 0 0 1 = 0x3F800000 ∧ t.g 0 1 1 = 0x4B800000 := by decide +kernel

theorem test_ldt_sign_extends : (after (.ldt iss .n2 true 1 2 (.imm 0)) { thr with mem := setNibs [] (storeBase 0) [0xE, 0xF] }).g 0 0 1 =
    0xFFFFFFFE := by decide
theorem test_stt_last_lane_wins : (after (.stt iss .n4 4 2 (.imm 8)) ((thr.setG 0 0 4 0x1111).setG 0 1 4 0xFF2345)).load (storeBase 0 + 8) 8 =
    0x2345 := by decide +kernel
theorem test_stt_misaligned_faults : ((after (.stt iss .n8 4 2 (.imm 4)) thr).group 0 0).halted = true ∧
    (after (.stt iss .n8 4 2 (.imm 4)) thr).mem = [] := by decide

theorem test_shf_down : let s := (thr.setG 0 0 2 10).setG 0 1 2 11
    (after (.shf iss .down 1 2 (.imm 1) (.imm 3)) s).g 0 0 1 = 11 ∧ (after (.shf iss .down 1 2 (.imm 1) (.imm 3)) s).g 0 1 1 = 11 := by decide
theorem test_vote_ballot : (after (.vote iss .ballot 1 0 (.imm 3)) (thr.setP 0 1 0 true)).g 0 0 1 = 2 := by decide
theorem test_bra_splits : ((after (.bra { iss with gpred := 0 } (.direct 100)) (thr.setP 0 1 0 true)).entries 0).map
    (fun e => (e.lanes, e.pc)) = [([0], 6), ([1], 100)] := by decide
theorem test_post_saturates : (after (.post iss (.imm 63) 5 true 2) (sched.putCell 0 63 0xFFFFFFFE)).cell 0 63 = 0xFFFFFFFF := by decide

/-- Worked example of 06_accumulation.md: GROUP = 4, K = 8. -/
theorem test_accumulate_groups :
    feedAcc accZero false false (groupSums 4 16 8 (fun k => some (elemVal .b16 (nth 0 [0x4B80, 0x3F80, 0xCB80, 0x3F80, 0x3080, 0x2400, 0x1780, 0] k)))) =
      { hi := 0x40000000, lo := 0x30800000, r := 0x24000000, poison := false } := by decide +kernel

/-- Worked example of 06_accumulation.md: the ranking of R192 on eight columns. -/
theorem test_top_k : (rankRow ([(0x3F000000, 0), (0x40400000, 0), (0xC0E00000, 0), (0x40400000, 0), (0x40300000, 0), (0, 0), (0x40400000, 0x30800000),
    (0xBE800000, 0)].map (fun x => p32Val x.1 x.2))).map (·.1) = [6, 1, 3, 4, 0, 5, 7, 2] := by decide +kernel

/-- Worked examples of 07_training_step.md: a split micro-batch, a packed block, a clip factor. -/
theorem test_split : splitBatches { lmax := [(1, 4096, true)], bmax := 64 } [(1, 10000)] =
      [{ tensor := 1, rows := 4096, masked := 0 }, { tensor := 1, rows := 4096, masked := 0 }, { tensor := 1, rows := 1808, masked := 2288 }] ∧
    lengthExceeded { lmax := [(1, 4096, true)], bmax := 64 } ((1, 10000) :: List.replicate 62 (1, 1)) = true ∧
    lengthExceeded { lmax := [(1, 4096, true)], bmax := 64 } ((1, 10000) :: List.replicate 61 (1, 1)) = false := by decide
theorem test_packed_block : packBlock ([0x3FC0, 0xBEC0, 0x40C0, 0x3E80] ++ List.replicate 28 0) =
    [1, 8, 2, 0, 4, 0, 0xC, 0, 4, 0, 0] ++ List.replicate 56 0 ++ [2, 2, 8] ++ List.replicate 21 0xF := by decide +kernel
theorem test_unpacked_block : unpackBlock ([1, 8, 2, 0, 4, 0, 0xC, 0, 4, 0, 0] ++ List.replicate 56 0 ++ [2, 2, 8] ++ List.replicate 21 0xF) =
    ([0x3FC0, 0xBEC0, 0x40C0, 0x3E80] ++ List.replicate 28 0, 91) := by decide +kernel
theorem test_clip_factor : kappaOf (some 0x3F800000) (p32Val 0x40100000 0) = 0x3F2AAAAB ∧
    kappaOf (some 0x3F800000) (p32Val 0x3F4F5C29 0) = 0x3F800000 := by decide +kernel

/-- Worked example of 11_links_and_reduction.md: the q values under scale codes 121 and 123, e′, and the rerun's scale. -/
theorem test_quantize : ([0x3F400000, 0x3F000000, 0x3F280000, 0x3F600000].map (fun c => quantize 121 .rne (f32Val c))) =
      [(48, false), (32, false), (42, false), (56, false)] ∧
    quantize 123 .rne (f32Val 0x3F280000) = (10, false) ∧ carried 123 10 (f32Val 0x3F280000) = 0x3D00 ∧ scaleFrom 127 4 0 = 123 := by
  decide +kernel

/-- Worked example of 12_dma.md: big-endian host bytes x12, x34, x56, x78 with SWAP b01. -/
def swapX : Xfer := { hostX with regs := hostX.regs.set 2 0x40 |>.set 15 0x16D }
theorem test_host_swap : getNibs (after (.hostReadCompletion 0 .data [2, 1, 4, 3, 6, 5, 8, 7] []) { reads with dma := [(527, swapX)], regions := [(0, rgn)] }).mem 0x40 8 =
    [8, 7, 6, 5, 4, 3, 2, 1] := by decide +kernel

/-- Worked example of 13_rings_and_tenancy.md: the fields of quad 5, at the ends of their vault and tile-store ranges. -/
theorem test_quad_fields : (ready0.putPart 0 { ready0.part 0 with quads := 0x20 }).partFields 0 = [18, 19, 26, 27] ∧
    unitFields 0x36000 1 = [18] ∧ unitFields 0x3BFFF 1 = [19] ∧ unitFields 0x53FFF 1 = [27] ∧ unitFields 0xE0510 1 = [18] ∧
    unitFields 0xE07DF 1 = [27] := by decide +kernel

/-- Worked example of 14_register_interface.md: the twin write of the FAB_KEEPER pair. -/
theorem test_guarded_keeper : let t := after (.guardTwinWrite rt (oFabKeeper + twinBase) 0xFFF1EBDA) { up with pairs := [(0, oFabKeeper, 0xE1425)] }
    t.keeperId = 37 ∧ t.standbyId = 901 ∧ t.hasStandby = true ∧ t.pairs = [] := by decide

/-- The map of the worked example of 15_startup_and_beacon.md, with sites 13 and 100 of field 12 both found by BIST. -/
def mapping : State := { order 7 with startup := { (order 7).startup with fails := [(12, 13, 1), (12, 100, 2)] } }
theorem test_repair_map : let t := after (.startupOrderComplete found) mapping
    (t.unusedOf 12) = [0, 13, 100, 182] ∧ [11, 12, 97, 98].map (t.siteOf 12) = [12, 14, 99, 101] ∧ t.unusedOf 11 = [0, 13, 182, 195] := by decide +kernel
/-- Worked example of 15_startup_and_beacon.md: the frame of a failure of field 37 lasts 11.7 s, 234 units of 50 ms. -/
theorem test_lamp_frame : (after .lampTimer { (order 6).setModState stBeacon with startup := { up.startup with beacon := some (4, 10), lamp := 232 } }).startup.lamp = 233 ∧
    (after .lampTimer { (order 6).setModState stBeacon with startup := { up.startup with beacon := some (4, 10), lamp := 233 } }).startup.lamp = 0 := by decide

/-- Worked example of 16_power_and_ride_through.md: the parity of stripe 3 of a group of ten, and its two lost nibbles. -/
def pieces (l : List (Nat × Nib)) : List (Nat × List (List Nib)) := l.map (fun e => (e.1, List.replicate 8 [e.2]))
theorem test_parity : parityOf 10 3 1 false (pieces [(0, 5), (1, 0), (2, 0), (5, 9), (6, 0), (7, 0), (8, 0), (9, 0)]) = [0xC] ∧
    parityOf 10 3 1 true (pieces [(0, 5), (1, 0), (2, 0), (5, 9), (6, 0), (7, 0), (8, 0), (9, 0)]) = [1] := by decide +kernel
theorem test_decode_pieces : let survivors := pieces [(1, 0), (2, 0), (6, 0), (7, 0), (8, 0), (9, 0)] ++
      [(3, List.replicate 9 [0xC]), (4, List.replicate 10 [1])]
    decodePiece 10 3 0 1 survivors = [5] ∧ decodePiece 10 3 3 1 survivors = [9] := by decide +kernel

/-- Worked example of 17_security_and_debug.md: END = 41,984 and NEXT = 41,984, so END = 43,008 is written first. -/
def signer : State := { secure with sec := { secure.sec with signNext := 41984, signEnd := 41984 },
                                    flash := { secure.flash with res0 := some (41984, 1), res1 := some (40960, 0) } }
theorem test_reservation : let t := after (.attest (on 16) 0x1000 3380 255 7) signer
    t.sec.signNext = 41985 ∧ t.sec.signEnd = 43008 ∧ t.flash.resEnd = 43008 ∧ t.flash.res0 = some (41984, 1) := by decide +kernel

/-- R102, R103: an image with a word of class xD is rejected, and no instruction memory changes; BAD_DESCRIPTOR is x03 (R382). -/
def loaded (w : Long) : State := after (.progLoad (on 0) 0 0x1 .data [w] false false { bmax := 0, lmax := [] }) part0
theorem test_progLoad_class : (loaded 0xD000000000000000).imem = [] ∧ ((loaded 0xD000000000000000).part 0).progs = [] ∧
    tget 0#64 (loaded 0xC000000000000000).imem 0 = 0xC000000000000000 := by decide +kernel

end Sys2Proof.Tests
end

section
/-! PROOF. What every command leaves of the queue, of memory's canonical form and of the signing state

`exec` answers `ran c t` for every command `c`. Below: for all commands but those that reset the module or sign, `t` stands to the
state before as `State.Keeps` says; for every command, as the weaker `Retains` says. -/

namespace Sys2Proof.Proofs

open Sys2Proof.Machine

/-! ### The outcome of a command -/

theorem ran_of_no_units {c : Instr} (h : c.units = false) (t : State) : ran c t = .fault .noSuchUnit := by
  simp [ran, h]

theorem ran_of_not_loadable {c : Instr} (hu : c.units = true) (hl : c.loadable = false) (t : State) :
    ran c t = .refused .rejectedAtLoad := by
  simp [ran, hu, hl]

theorem ran_of_wf {c : Instr} (h : c.wf = true) (t : State) : ran c t = .next t := by
  obtain ⟨hu, hl⟩ : c.units = true ∧ c.loadable = true := by simpa [Instr.wf] using h
  simp [ran, hu, hl]

/-- Only the command's effect can be the next state. -/
theorem eq_of_ran_next {c : Instr} {t u : State} (h : ran c t = .next u) : u = t := by
  unfold ran at h
  split at h
  · cases h
  · split at h
    · cases h
    · cases h
      rfl

/-- The outcome o of command c in state s is that of an effect which keeps the queue, memory's canonical form and the signing state. -/
def KeepsBy (c : Instr) (s : State) (o : Out) : Prop := ∃ t, o = ran c t ∧ s.Keeps t

theorem keepsBy_ran {c : Instr} {s t : State} (h : s.Keeps t) : KeepsBy c s (ran c t) := ⟨t, rfl, h⟩

theorem keepsBy_ranCore {c : Instr} {s t : State} (h : s.Keeps t) : KeepsBy c s (ranCore c s t) :=
  keepsBy_ran (.ite h .rfl')

/-! ### Commands whose effect has cases of its own -/

section Commands

variable {s : State}

theorem cvt_keepsBy (i : Iss) (d a : Nat) (b : Opd) (c : Nat) (m : CvtMod) :
    KeepsBy (.cvt i d a b c m) s (execCvt i d a b c m s) := by
  refine keepsBy_ran ?_
  split
  · exact State.perLane_keeps .rfl' fun _ _ _ _ => State.cvtDst_keeps
  · exact .rfl'

theorem cvtBlk_keepsBy (i : Iss) (d a b : Nat) (m : CvtMod) : KeepsBy (.cvtBlk i d a b m) s (execCvtBlk i d a b m s) := by
  refine keepsBy_ran ?_
  split
  · exact State.arrive_keeps .rfl'
  · exact .rfl'

theorem exit_keepsBy (i : Iss) : KeepsBy (.exit i) s (execExit i s) := by
  refine keepsBy_ran (State.issue_keeps .rfl' fun _ _ h => State.wakeTile_keeps ?_)
  refine State.Keeps.foldl _ (State.spliceEntry_keeps ?_) fun _ _ => State.tryGroup_keeps
  exact State.Keeps.foldl _ h fun _ _ => State.exitLane_keeps

theorem fenceM_keepsBy (i : Iss) : KeepsBy (.fenceM i) s (execFenceM i s) :=
  keepsBy_ran (State.issue_keeps .rfl' fun _ _ h => State.wakeTile_keeps (State.spliceEntry_keeps h))

theorem atomT_keepsBy (i : Iss) (fn : AtomFn) (grp : Option Opd) (d a : Nat) (off : Opd) (b c : Nat) :
    KeepsBy (.atomT i fn grp d a off b c) s (execAtomT i fn grp d a off b c s) := by
  refine keepsBy_ran ?_
  cases grp with
  | some m => exact State.arrive_keeps .rfl'
  | none => exact State.memory_keeps .rfl'

theorem atomG_keepsBy (i : Iss) (fn : AtomFn) (grp : Option Opd) (d a b c : Nat) :
    KeepsBy (.atomG i fn grp d a b c) s (execAtomG i fn grp d a b c s) := by
  refine keepsBy_ran ?_
  cases grp with
  | some m => exact State.arrive_keeps .rfl'
  | none => exact State.memory_keeps .rfl'

theorem entryMerge_keepsBy (t a b : Nat) : KeepsBy (.entryMerge t a b) s (execEntryMerge t a b s) := by
  refine keepsBy_ranCore ?_
  split
  · exact .ite (State.mergeEntries_keeps .rfl') .rfl'
  · exact .rfl'

theorem carrierRepack_keepsBy (t a b : Nat) : KeepsBy (.carrierRepack t a b) s (execCarrierRepack t a b s) := by
  refine keepsBy_ranCore ?_
  split
  · exact .ite (State.mergeEntries_keeps .rfl') .rfl'
  · exact .rfl'

theorem mxdStart_keepsBy (t id : Nat) (u ua : Upsets) : KeepsBy (.mxdStart t id u ua) s (execMxdStart t id u ua s) := by
  refine keepsBy_ranCore ?_
  split
  · exact .ite (State.startJob_keeps .rfl') .rfl'
  · exact .rfl'

theorem stationaryLoadDone_keepsBy (t id : Nat) (u : Upsets) :
    KeepsBy (.stationaryLoadDone t id u) s (execStationaryLoadDone t id u s) := by
  refine keepsBy_ranCore ?_
  split
  · exact .ite .rfl' (State.loadTile_keeps .rfl')
  · exact .rfl'

theorem mxdComplete_keepsBy (t id : Nat) (u ua : Upsets) : KeepsBy (.mxdComplete t id u ua) s (execMxdComplete t id u ua s) := by
  refine keepsBy_ranCore ?_
  split
  · exact .ite (State.finishJob_keeps (.ite .rfl' (State.useBanks_keeps .rfl'))) .rfl'
  · exact .rfl'

theorem tieSum_keepsBy (p : Nat) (u ua : Upsets) : KeepsBy (.tieSum p u ua) s (execTieSum p u ua s) :=
  keepsBy_ranCore (.ite (State.putPart_keeps (.foldl _ .rfl' fun _ _ => State.tieOne_keeps)) .rfl')

theorem dmaReadBackDone_keepsBy (ch : DmaCh) (u : Upsets) : KeepsBy (.dmaReadBackDone ch u) s (execDmaReadBackDone ch s u) := by
  refine keepsBy_ranCore ?_
  split
  · exact .ite (State.wakeAll_keeps (State.readBackDone_keeps .rfl')) .rfl'
  · exact .rfl'

theorem recalibration_keepsBy (f site ch : Nat) (ok : Bool) :
    KeepsBy (.recalibration f site ch ok) s (execRecalibration f site ch ok s) :=
  keepsBy_ranCore (.ite (.ite (State.startShort_keeps (State.putVault_keeps .rfl'))
    (State.needsLong_keeps (State.startShort_keeps (State.putVault_keeps .rfl')))) .rfl')

theorem rowRemap_keepsBy (f site ch bank row : Nat) (u : Upsets) :
    KeepsBy (.rowRemap f site ch bank row u) s (execRowRemap f site ch bank row s u) :=
  keepsBy_ranCore (.ite (.ite
    (State.startShort_keeps (State.bump_keeps (State.putVault_keeps (State.copyRow_keeps (State.putVault_keeps .rfl')))))
    (State.needsLong_keeps (State.putVault_keeps .rfl'))) .rfl')

theorem laneGroupSpare_keepsBy (f site ch sym : Nat) :
    KeepsBy (.laneGroupSpare f site ch sym) s (execLaneGroupSpare f site ch sym s) :=
  keepsBy_ranCore (.ite (.ite (State.startShort_keeps (State.bump_keeps (State.putVault_keeps .rfl')))
    (State.needsLong_keeps (State.putVault_keeps .rfl'))) .rfl')

theorem slotCopyDone_keepsBy (f site : Nat) (u : Upsets) : KeepsBy (.slotCopyDone f site u) s (execSlotCopyDone f site s u) := by
  refine keepsBy_ranCore ?_
  split
  · exact State.wakeChans_keeps (State.wakeAll_keeps (State.switchSlot_keeps (State.putVault_keeps (State.copySlot_keeps .rfl'))))
  · exact .rfl'

theorem pinFillDone_keepsBy (h e : Nat) (u : Upsets) : KeepsBy (.pinFillDone h e u) s (execPinFillDone h e s u) :=
  keepsBy_ranCore (.ite (State.allDoneOp_keeps (State.putPin_keeps (State.fillRange_keeps .rfl'))) .rfl')

theorem unpinComplete_keepsBy (h e : Nat) (u : Upsets) : KeepsBy (.unpinComplete h e u) s (execUnpinComplete h e s u) :=
  keepsBy_ranCore (.ite (State.allDoneOp_keeps (State.putPin_keeps (State.releaseRange_keeps .rfl'))) .rfl')

theorem cacheOpDone_keepsBy (h : Nat) (u : Upsets) : KeepsBy (.cacheOpDone h u) s (execCacheOpDone h s u) := by
  refine keepsBy_ranCore ?_
  split
  · exact .rfl'
  · refine .ite .rfl' ?_
    extract_lets s1 half s2
    have swept : s.Keeps s1 := .foldl _ .rfl' fun _ _ hv => .ite (State.dropLine_keeps hv) (State.cleanLine_keeps hv)
    have ended : s.Keeps s2 := State.wrF_keeps (State.putHalf_keeps swept)
    exact .ite (State.allDoneOp_keeps ended) (.ite ended (State.allDoneOp_keeps ended))

theorem livenessRound_keepsBy (m : Nat) (downs : List (Nat × Nat)) (hops : List ((Nat × Nat) × (Nat × Nat))) :
    KeepsBy (.livenessRound m downs hops) s (execLivenessRound m downs hops s) :=
  keepsBy_ranCore (.ite (State.tearWhere_keeps
    (.upd (.ite (State.declareLost_keeps (.upd .rfl')) (.ite (.upd .rfl') (State.sendOp_keeps (.upd .rfl')))))) .rfl')

theorem clipEnter_keepsBy (p : Nat) (u : Upsets) : KeepsBy (.clipEnter p u) s (execClipEnter p s u) := by
  refine keepsBy_ranCore (.ite ?_ .rfl')
  split
  · exact .ite (State.setPhase_keeps .rfl') (State.startNorm_keeps (State.setPhase_keeps .rfl'))
  · exact State.setPhase_keeps .rfl'

theorem recordOrder_keepsBy (p : Nat) : KeepsBy (.recordOrder p) s (execRecordOrder p s) := by
  refine keepsBy_ranCore ?_
  split
  · exact .ite (State.applyRecord_keeps .rfl') .rfl'
  · exact .rfl'

theorem recoveryReplay_keepsBy (p : Nat) (b : Option Rebuild) (u : Upsets) :
    KeepsBy (.recoveryReplay p b u) s (execRecoveryReplay p b s u) := by
  refine keepsBy_ranCore (.ite .rfl' ?_)
  cases b with
  | none =>
    dsimp only
    split
    · exact .ite (State.applyRecord_keeps .rfl') .rfl'
    · exact .rfl'
  | some r =>
    dsimp only
    split
    · exact State.rebuild_keeps .rfl'
    · exact .rfl'

theorem checkpoint_keepsBy (p largest : Nat) (othersValid : Bool) (peers : List (Nat × List (List Nib))) (u : Upsets) :
    KeepsBy (.checkpoint p largest othersValid peers u) s (execCheckpoint p largest othersValid peers s u) := by
  refine keepsBy_ranCore ?_
  split
  · extract_lets k units s1 part s2
    have copied : s.Keeps s1 := .ite (State.takeCkpt_keeps .rfl') .rfl'
    have ended : s.Keeps s2 := State.putPart_keeps copied
    exact .ite (State.reportStaged_keeps ended) ended
  · exact .rfl'

/-- `spanLoad` stands here as any function that keeps the state, so that its loop over a span is never run in the check. -/
theorem rollBack_keepsBy (p c : Nat) (decodable : Bool) (u : Upsets) :
    KeepsBy (.rollBack p c decodable u) s (execRollBack p c decodable s u) := by
  obtain ⟨load, loads, isLoad⟩ : ∃ load, (∀ o n, s.Keeps (load s u o n).1) ∧ load = State.spanLoad :=
    ⟨_, fun _ _ => State.spanLoad_keeps .rfl', rfl⟩
  unfold execRollBack
  rw [← isLoad]
  refine keepsBy_ranCore ?_
  split
  · refine .ite .rfl' (.ite (State.raiseOwner_keeps .rfl') ?_)
    split
    · exact State.restoreTo_keeps (loads ..)
    · exact .rfl'
  · exact .rfl'

theorem progLoad_keepsBy (c : Cmd) (first : Nat) (fields : Long) (reply : HostReply) (insns : List Long) (bad tied : Bool)
    (lim : StepLimits) :
    KeepsBy (.progLoad c first fields reply insns bad tied lim) s (execProgLoad c first fields reply insns bad tied lim s) := by
  refine keepsBy_ran (State.answer_keeps .rfl' fun t h => .ite_fst h (.ite_fst h (State.putPart_keeps (State.clearSched_keeps ?_))))
  exact State.Keeps.foldl _ h fun _ _ => State.loadImem_keeps

theorem regionDefine_keepsBy (c : Cmd) (d0 d1 d3 : Word) : KeepsBy (.regionDefine c d0 d1 d3) s (execRegionDefine c d0 d1 d3 s) := by
  refine keepsBy_ran (State.answer_keeps .rfl' fun t h => ?_)
  split
  · exact State.putRegion_keeps h
  · exact h

theorem sharedCreate_keepsBy (c : Cmd) (base len key replica : Nat) :
    KeepsBy (.sharedCreate c base len key replica) s (execSharedCreate c base len key replica s) := by
  refine keepsBy_ran (State.answer_keeps .rfl' fun t h => ?_)
  split
  · exact State.putRegion_keeps h
  · exact h

theorem kernelComplete_keepsBy (key : Nat) : KeepsBy (.kernelComplete key) s (execKernelComplete key s) := by
  refine keepsBy_ranCore ?_
  split
  · exact .ite (State.endKernel_keeps .rfl') .rfl'
  · exact .rfl'

theorem pin_keepsBy (c : Cmd) (line16 len : Nat) (fill : Bool) : KeepsBy (.pin c line16 len fill) s (execPin c line16 len fill s) := by
  refine keepsBy_ran ?_
  extract_lets h form v
  split
  · exact State.answer_keeps .rfl' fun _ h => h
  · exact .ite (State.await_keeps .rfl' fun _ => State.pinWrite_keeps) (State.answer_keeps .rfl' fun _ => State.pinWrite_keeps)

theorem scrubComplete_keepsBy (n : Nat) : KeepsBy (.scrubComplete n) s (execScrubComplete n s) := by
  refine keepsBy_ranCore ?_
  split
  · exact State.finishScrub_keeps (.upd .rfl')
  · exact .rfl'

theorem Flash.install_resEnd (f : Flash) (run : Option FwImage) (x : FwImage) : (f.install run x).resEnd = f.resEnd := by
  unfold Flash.install
  extract_lets second
  split <;> rfl

theorem revokeUpdate_keepsBy (c : Cmd) (reply : HostReply) (l : Revocation) :
    KeepsBy (.revokeUpdate c reply l) s (execRevokeUpdate c reply l s) :=
  keepsBy_ran (State.secAnswer_keeps .rfl' fun _ h => .ite_fst h (.ite_fst h (State.wr_keeps (.updSec h rfl rfl rfl rfl))))

theorem fwInstall_keepsBy (c : Cmd) (reply : HostReply) (img : FwImage) :
    KeepsBy (.fwInstall c reply img) s (execFwInstall c reply img s) :=
  keepsBy_ran (State.secAnswer_keeps .rfl' fun _ h => .ite_fst (.updSec h rfl rfl rfl (Flash.install_resEnd _ _ _)) h)

theorem setDebug_keeps {s t : State} (h : s.Keeps t) (c : Cmd) (level : Nat) (token : Option Signed) :
    s.Keeps (t.setDebug c level token) := by
  unfold State.setDebug
  refine .ite (State.secDone_keeps (.ite h (State.putLevel_keeps h))) ?_
  split
  · exact .ite (.upd (State.clearTenants_keeps (State.addLive_keeps h)))
      (State.secDone_keeps (State.grantD2_keeps (State.zeroFields_keeps (State.clearTenants_keeps h))))
  · exact State.secDone_keeps h

theorem debugSet_keepsBy (c : Cmd) (level : Nat) (reply : HostReply) (token : Option Signed) :
    KeepsBy (.debugSet c level reply token) s (execDebugSet c level reply token s) := by
  refine keepsBy_ran ?_
  extract_lets tok state
  split
  · exact .ite (setDebug_keeps (State.consume_keeps .rfl') ..) .rfl'
  · exact State.secAnswer_keeps .rfl' fun _ h => h

theorem protectiveHold_keepsBy (f junction : Nat) (bad : Bool) :
    KeepsBy (.protectiveHold f junction bad) s (execProtectiveHold f junction bad s) := by
  refine keepsBy_ran ?_
  extract_lets s1 s2
  have noted : s.Keeps s1 := State.noteJunction_keeps .rfl'
  have held : s.Keeps s2 := .ite (State.enterHold_keeps noted) noted
  exact .ite (.foldl _ held fun _ _ => State.enterHold_keeps) held

theorem protectiveHoldExit_keepsBy (f junction : Nat) (bad : Bool) (u : Upsets) :
    KeepsBy (.protectiveHoldExit f junction bad u) s (execProtectiveHoldExit f junction bad s u) :=
  keepsBy_ran (.ite (State.wakeChans_keeps (State.leaveHold_keeps (State.noteJunction_keeps .rfl'))) (State.noteJunction_keeps .rfl'))

theorem recordWrite_keepsBy : KeepsBy .recordWrite s (execRecordWrite s) := by
  refine keepsBy_ran ?_
  split
  · exact .rfl'
  · exact .ite .rfl' (State.record_keeps (.upd .rfl'))

theorem shortRepairDone_keepsBy (f site ch : Nat) (u : Upsets) :
    KeepsBy (.shortRepairDone f site ch u) s (execShortRepairDone f site ch s u) :=
  keepsBy_ranCore (State.wakeChans_keeps (State.wrF_keeps (State.putVault_keeps .rfl')))

theorem coolantCrossing_keepsBy (inlet outlet : Nat) : KeepsBy (.coolantCrossing inlet outlet) s (execCoolantCrossing inlet outlet s) := by
  refine keepsBy_ran (.ite ?_ .rfl')
  extract_lets hi ho s1 p s2 s3
  have shown : s.Keeps s2 := .upd (State.showTemps_keeps .rfl')
  have inletTold : s.Keeps s3 := .ite (State.raiseOwner_keeps shown) shown
  exact .ite (State.raiseOwner_keeps inletTold) inletTold

theorem governorSample_keepsBy (watts avg1 avg10 volt amps : Nat) :
    KeepsBy (.governorSample watts avg1 avg10 volt amps) s (execGovernorSample watts avg1 avg10 volt amps s) := by
  refine keepsBy_ran (.ite .rfl' ?_)
  extract_lets s1 s2
  have shown : s.Keeps s1 := State.wrF_keeps (State.wrF_keeps (State.wrF_keeps .rfl'))
  have warned : s.Keeps s2 := .ite (State.wrF_keeps shown) shown
  exact .ite (State.govern_keeps warned) warned

theorem powerStrike_keepsBy (c : Cmd) : KeepsBy (.powerStrike c) s (execPowerStrike c s) := by
  refine keepsBy_ran ?_
  extract_lets state t
  have answered : s.Keeps t := State.powerCmd_keeps .rfl' fun _ h => .ite (State.enterReef_keeps h) h
  exact .ite (State.enterStrike_keeps answered) answered

theorem dmaXfer_keepsBy (c : Cmd) (h : Nat) (paired : Bool) (reply : HostReply) (img : List Word) :
    KeepsBy (.dmaXfer c h paired reply img) s (execDmaXfer c h paired reply img s) :=
  keepsBy_ran (.ite .rfl' (.ite (State.stopRing_keeps .rfl') (.ite .rfl'
    (State.await_keeps .rfl' fun _ h => State.dmaStart_keeps (State.dmaLoad_keeps h)))))

theorem cacheOp_keepsBy (c : Cmd) (line16 len kind : Nat) : KeepsBy (.cacheOp c line16 len kind) s (execCacheOp c line16 len kind s) :=
  keepsBy_ran (.ite .rfl' (.ite
    (.ite (State.await_keeps .rfl' fun _ => State.startBothOps_keeps) (State.answer_keeps .rfl' fun _ => State.startBothOps_keeps))
    (.ite (State.await_keeps .rfl' fun _ => State.startCacheOp_keeps) (State.answer_keeps .rfl' fun _ => State.startCacheOp_keeps))))

theorem stepBegin_keepsBy (c : Cmd) (index : Word) (reply : HostReply) (b : Batches) :
    KeepsBy (.stepBegin c index reply b) s (execStepBegin c index reply b s) :=
  keepsBy_ran (.ite (State.await_keeps .rfl' fun _ => State.beginStep_keeps) (State.answer_keeps .rfl' fun _ h => h))

theorem stepTable_keepsBy (c : Cmd) (reply : HostReply) (t : StepTable) (u : Upsets) :
    KeepsBy (.stepTable c reply t u) s (execStepTable c reply t u s) :=
  keepsBy_ran (.ite (State.await_keeps .rfl' fun _ => State.claimThere_keeps)
    (State.answer_keeps .rfl' fun _ h => .ite_fst (State.loadTable_keeps h) h))

theorem partDestroy_keepsBy (c : Cmd) (p : Nat) (force : Bool) : KeepsBy (.partDestroy c p force) s (execPartDestroy c p force s) :=
  keepsBy_ran (State.await_keeps .rfl' fun _ h =>
    .upd (State.putPart_keeps (State.clearSched_keeps (.ite (State.forceDown_keeps h) h))))

theorem powerDormant_keepsBy (c : Cmd) : KeepsBy (.powerDormant c) s (execPowerDormant c s) :=
  keepsBy_ran (State.powerCmd_keeps .rfl' fun _ h => State.setModState_keeps (State.zeroSram_keeps (State.linksOff_keeps h)))

theorem powerWake_keepsBy (c : Cmd) : KeepsBy (.powerWake c) s (execPowerWake c s) :=
  keepsBy_ran (State.powerCmd_keeps .rfl' fun _ h => State.setModState_keeps (State.trainLinks_keeps (State.zeroSram_keeps h)))

theorem mem_keepsBy (addr : Long) (k : AccKind) (u : Upsets) : KeepsBy (.mem addr k u) s (execMem addr k s u) :=
  keepsBy_ran (State.tapRun_keeps .rfl' fun _ h => .ite (State.tapSet_keeps (State.accessNow_keeps h)) (State.tapSet_keeps h))

end Commands

/-! ### Every command -/

/-- The commands that reset the module, bring it up or sign: they alone touch the signing state (R407, R409, R451, R456). -/
def resetsOrSigns : Instr → Bool
  | .powerUpReset | .resetN | .reset _ | .startupOrderComplete _ | .jtagReset | .pfwNRelease | .bulkStoreCollapse
  | .attest _ _ _ _ _ | .lifecycle _ _ _ _ => true
  | _ => false

/-- A command that neither resets the module nor signs keeps the queue, memory's canonical form and the signing state. -/
theorem exec_keepsBy (c : Instr) (s : State) (h : resetsOrSigns c = false) : KeepsBy c s (exec c s) := by
  cases c with
  | iadd iss d a b => exact keepsBy_ran (State.alu2_keeps .rfl')
  | isub iss d a b => exact keepsBy_ran (State.alu2_keeps .rfl')
  | imul iss d a b => exact keepsBy_ran (State.alu2_keeps .rfl')
  | imulh iss d a b => exact keepsBy_ran (State.alu2Free_keeps .rfl')
  | imad iss d a b c => exact keepsBy_ran (State.perLane_keeps .rfl' fun _ _ _ _ => State.setG_keeps)
  | iand iss d a b => exact keepsBy_ran (State.alu2_keeps .rfl')
  | ior iss d a b => exact keepsBy_ran (State.alu2_keeps .rfl')
  | ixor iss d a b => exact keepsBy_ran (State.alu2_keeps .rfl')
  | shl iss d a b => exact keepsBy_ran (State.alu2Free_keeps .rfl')
  | shr iss d a b => exact keepsBy_ran (State.alu2Free_keeps .rfl')
  | sar iss d a b => exact keepsBy_ran (State.alu2Free_keeps .rfl')
  | imin iss signed d a b => exact keepsBy_ran (State.alu2_keeps .rfl')
  | imax iss signed d a b => exact keepsBy_ran (State.alu2_keeps .rfl')
  | sel iss d a b p => exact keepsBy_ran (State.perLane_keeps .rfl' fun _ _ _ _ => State.setG_keeps)
  | mov iss d b => exact keepsBy_ran (State.perLane_keeps .rfl' fun _ _ _ _ => State.setG_keeps)
  | popc iss d a => exact keepsBy_ran (State.perLane_keeps .rfl' fun _ _ _ _ => State.setG_keeps)
  | clz iss d a => exact keepsBy_ran (State.perLane_keeps .rfl' fun _ _ _ _ => State.setG_keeps)
  | fadd iss d a b => exact keepsBy_ran (State.fpu2_keeps .rfl')
  | fsub iss d a b => exact keepsBy_ran (State.fpu2_keeps .rfl')
  | fmul iss d a b => exact keepsBy_ran (State.fpu2_keeps .rfl')
  | ffma iss d a b c => exact keepsBy_ran (State.perLane_keeps .rfl' fun _ _ _ _ => State.setG_keeps)
  | fmin iss d a b => exact keepsBy_ran (State.fpu2_keeps .rfl')
  | fmax iss d a b => exact keepsBy_ran (State.fpu2_keeps .rfl')
  | cvt iss d a b c m => exact cvt_keepsBy ..
  | cvtBlk iss d a b m => exact cvtBlk_keepsBy ..
  | i2f iss signed d a => exact keepsBy_ran (State.perLane_keeps .rfl' fun _ _ _ _ => State.setG_keeps)
  | f2i iss signed d a => exact keepsBy_ran (State.alu2Free_keeps .rfl')
  | isetp iss c signed pd a b => exact keepsBy_ran (State.perLane_keeps .rfl' fun _ _ _ _ => State.setP_keeps)
  | fsetp iss c pd a b => exact keepsBy_ran (State.tock_keeps (State.perLane_keeps .rfl' fun _ _ _ _ => State.setP_keeps))
  | pand iss pd pa pb => exact keepsBy_ran (State.perLane_keeps .rfl' fun _ _ _ _ => State.setP_keeps)
  | por iss pd pa pb => exact keepsBy_ran (State.perLane_keeps .rfl' fun _ _ _ _ => State.setP_keeps)
  | pxor iss pd pa pb => exact keepsBy_ran (State.perLane_keeps .rfl' fun _ _ _ _ => State.setP_keeps)
  | p2g iss d => exact keepsBy_ran (State.perLane_keeps .rfl' fun _ _ _ _ => State.setG_keeps)
  | g2p iss a => exact keepsBy_ran (State.perLane_keeps .rfl' fun _ _ _ _ h => .foldl _ h fun _ _ => State.setP_keeps)
  | bra iss t => exact keepsBy_ran (State.branch_keeps .rfl' fun _ _ _ h => h)
  | call iss t => exact keepsBy_ran (State.branch_keeps .rfl' fun _ _ _ => State.setG_keeps)
  | ret iss => exact keepsBy_ran (State.branch_keeps .rfl' fun _ _ _ h => h)
  | exit iss => exact exit_keepsBy ..
  | insnNop iss => exact keepsBy_ran (State.perLane_keeps .rfl' fun _ _ _ _ h => h)
  | sys iss d sel => exact keepsBy_ran (State.perLane_keeps .rfl' fun _ _ _ _ => State.setG_keeps)
  | ldt iss w sx d a b => exact keepsBy_ran (State.memory_keeps .rfl')
  | stt iss w d a b => exact keepsBy_ran (State.memory_keeps .rfl')
  | ldg iss w sx retire d a => exact keepsBy_ran (State.memory_keeps .rfl')
  | stg iss w retire d a => exact keepsBy_ran (State.memory_keeps .rfl')
  | fenceM iss => exact fenceM_keepsBy ..
  | atomT iss fn grp d a off b c => exact atomT_keepsBy ..
  | atomG iss fn grp d a b c => exact atomG_keepsBy ..
  | shf iss m d a b mask => exact keepsBy_ran (State.arrive_keeps .rfl')
  | vote iss m d pa mask => exact keepsBy_ran (State.arrive_keeps .rfl')
  | post iss cell n self a => exact keepsBy_ran (State.arrive_keeps .rfl')
  | take iss cell n => exact keepsBy_ran (State.arrive_keeps .rfl')
  | mxi iss d a imm => exact keepsBy_ran (State.arrive_keeps .rfl')
  | mxw iss d t => exact keepsBy_ran (State.arrive_keeps .rfl')
  | flush iss mask => exact keepsBy_ran (State.arrive_keeps .rfl')
  | dmakGo iss ch a imm => exact keepsBy_ran (State.arrive_keeps .rfl')
  | dmakWait iss d ch => exact keepsBy_ran (State.arrive_keeps .rfl')
  | entryMerge tile a b => exact entryMerge_keepsBy ..
  | carrierRepack tile a b => exact carrierRepack_keepsBy ..
  | stallEvent place wait adder => exact keepsBy_ranCore (.ite .rfl' (.ite (State.adderStall_keeps .rfl') (State.groupStall_keeps .rfl')))
  | orderListEntry r u => exact keepsBy_ranCore (State.wakeAll_keeps (State.serveList_keeps .rfl'))
  | rotaSlot r u => exact keepsBy_ran (State.slotPasses_keeps .rfl')
  | scheduleCheck => exact keepsBy_ranCore (State.check_keeps .rfl')
  | mxdTakeUp tile u => exact keepsBy_ranCore (State.serveMatrix_keeps .rfl')
  | mxdStart tile job u ua => exact mxdStart_keepsBy ..
  | stationaryLoadDone tile job u => exact stationaryLoadDone_keepsBy ..
  | mxdComplete tile job u ua => exact mxdComplete_keepsBy ..
  | tieSum p u ua => exact tieSum_keepsBy ..
  | dmaCopy r ch => exact keepsBy_ran (State.startWrite_keeps .rfl')
  | dmaPack r ch => exact keepsBy_ran (State.startWrite_keeps .rfl')
  | dmaUnpack r ch => exact keepsBy_ran (State.startWrite_keeps .rfl')
  | fieldRowBroadcast r ch => exact keepsBy_ran (State.startWrite_keeps .rfl')
  | dmaReadBackDone ch u => exact dmaReadBackDone_keepsBy ..
  | homeAccess n u => exact keepsBy_ranCore (State.serveHome_keeps .rfl')
  | cacheAccess half n u => exact keepsBy_ranCore (State.serveSlice_keeps .rfl')
  | cacheFill half n u => exact keepsBy_ranCore (State.fillAccess_keeps .rfl')
  | thrashEvent half => exact keepsBy_ranCore (State.endWindow_keeps .rfl')
  | refreshInterval field site t0 t1 t2 t3 u => exact keepsBy_ran (State.refresh_keeps .rfl')
  | tileStoreScrub tile pair u => exact keepsBy_ranCore (State.scrubStore_keeps .rfl')
  | recalibration field site ch ok => exact recalibration_keepsBy ..
  | rowRemap field site ch bank row u => exact rowRemap_keepsBy ..
  | laneGroupSpare field site ch symbol => exact laneGroupSpare_keepsBy ..
  | slotMoveCopy r field site v => exact keepsBy_ran (State.busPair_keeps .rfl')
  | slotSwitchPoison r field site v => exact keepsBy_ran (State.busPair_keeps .rfl')
  | slotCopyDone field site u => exact slotCopyDone_keepsBy ..
  | pinFillDone half entry u => exact pinFillDone_keepsBy ..
  | cacheClean r half len => exact keepsBy_ran (State.busWrite_keeps .rfl')
  | cacheDrop r half len => exact keepsBy_ran (State.busWrite_keeps .rfl')
  | cacheOpDone half u => exact cacheOpDone_keepsBy ..
  | regionCommit r v => exact keepsBy_ran (State.busPair_keeps .rfl')
  | regionFlip r v => exact keepsBy_ran (State.busPair_keeps .rfl')
  | keyMapCommit r v => exact keepsBy_ran (State.busPair_keeps .rfl')
  | routeCommit r v => exact keepsBy_ran (State.busPair_keeps .rfl')
  | linkRemap r g v => exact keepsBy_ran (State.busPair_keeps .rfl')
  | keeperSet r v => exact keepsBy_ran (State.busPair_keeps .rfl')
  | teardown r v => exact keepsBy_ran (State.busPair_keeps .rfl')
  | livenessIncrement => exact keepsBy_ranCore (State.merge_keeps .rfl')
  | livenessRound m downs hops => exact livenessRound_keepsBy ..
  | keeperTakeover reachable => exact keepsBy_ranCore (.ite (State.takeOver_keeps .rfl') .rfl')
  | keeperReport jobSlot m memLost ckpts => exact keepsBy_ranCore (.ite (State.takeReport_keeps .rfl') .rfl')
  | fwdEnter p => exact keepsBy_ranCore (.ite (State.enterFwd_keeps .rfl') .rfl')
  | bwdEnter p => exact keepsBy_ranCore (.ite (State.armChans_keeps (State.setPhase_keeps .rfl')) .rfl')
  | bwdClose p => exact keepsBy_ranCore (.ite (State.armChans_keeps (State.setPhase_keeps .rfl')) .rfl')
  | clipEnter p u => exact clipEnter_keepsBy ..
  | commitEnter p => exact keepsBy_ranCore (.ite (State.reportStaged_keeps (State.setPhase_keeps .rfl')) .rfl')
  | recordOrder p => exact recordOrder_keepsBy ..
  | discardOrder p => exact keepsBy_ranCore (.ite .rfl' (State.endStep_keeps (State.setPhase_keeps .rfl')))
  | recoveryReplay p b u => exact recoveryReplay_keepsBy ..
  | checkpoint p largest othersValid peers u => exact checkpoint_keepsBy ..
  | rollBack p c decodable u => exact rollBack_keepsBy ..
  | bucketStart p c u => exact keepsBy_ranCore (State.bucketStart_keeps .rfl')
  | idleFlit k h => exact keepsBy_ran (.ite .rfl' (.ite (State.rxHeader_keeps .rfl') (State.rejectFlit_keeps (State.rxHeader_keeps .rfl'))))
  | fabricReq k h b => exact keepsBy_ran (State.receive_keeps .rfl' fun _ => State.takeReq_keeps)
  | fabricRsp k h b u => exact keepsBy_ran (State.receive_keeps .rfl' fun _ => State.takeRsp_keeps)
  | reduce k h b u => exact keepsBy_ran (State.receive_keeps .rfl' fun _ => State.takeRing_keeps)
  | norm k h b u => exact keepsBy_ran (State.receive_keeps .rfl' fun _ => State.takeNorm_keeps)
  | normResult k h b u => exact keepsBy_ran (State.receive_keeps .rfl' fun _ => State.takeNorm_keeps)
  | reservedKindFlit k h kind => exact keepsBy_ran (State.receive_keeps .rfl' fun _ => State.countLink_keeps)
  | linkReplay k => exact keepsBy_ran (.ite .rfl' (State.countLink_keeps (State.resend_keeps (State.putLink_keeps .rfl'))))
  | linkTraining k t => exact keepsBy_ran (State.train_keeps .rfl')
  | linkTrainingTimeout k order => exact keepsBy_ran (.ite .rfl' (State.trainFailed_keeps .rfl'))
  | linkRetrain k replays => exact keepsBy_ran (.ite (State.enterRetrain_keeps .rfl') .rfl')
  | laneSignalLoss k lane => exact keepsBy_ran (State.enterRetrain_keeps (State.wrF_keeps .rfl'))
  | linkEnable r k => exact keepsBy_ran (State.busWrite_keeps .rfl')
  | linkDisable r k => exact keepsBy_ran (State.busWrite_keeps .rfl')
  | linkCtrlRetrain r k => exact keepsBy_ran (State.busWrite_keeps .rfl')
  | update r v => exact keepsBy_ran (State.busWrite_keeps .rfl')
  | blockUpdateApply base => exact keepsBy_ran (.ite (State.applyBlock_keeps .rfl') .rfl')
  | strobedWrite r off v => exact keepsBy_ran (State.busWrite_keeps .rfl')
  | guardedFirstWrite r off v => exact keepsBy_ran (State.busWrite_keeps .rfl')
  | guardTwinWrite r off v => exact keepsBy_ran (State.busWrite_keeps .rfl')
  | bitAliasWrite r off bit b => exact keepsBy_ran (State.busWrite_keeps .rfl')
  | registerWrite r off v => exact keepsBy_ran (State.busWrite_keeps .rfl')
  | mctpRegisterAccess op byteOff v => exact keepsBy_ran (State.mctp_keeps .rfl')
  | tgFaultValid r field site => exact keepsBy_ran (State.busWrite_keeps .rfl')
  | vltThrottlePeakValid r field site => exact keepsBy_ran (State.busWrite_keeps .rfl')
  | vltErrNonzero r field site ch => exact keepsBy_ran (State.busWrite_keeps .rfl')
  | vltErrAddrValid r field site => exact keepsBy_ran (State.busWrite_keeps .rfl')
  | tsErrNonzero r field site => exact keepsBy_ran (State.busWrite_keeps .rfl')
  | tsErrAddrValid r field site => exact keepsBy_ran (State.busWrite_keeps .rfl')
  | scStatusThrash r half => exact keepsBy_ran (State.busWrite_keeps .rfl')
  | scErrNonzero r half => exact keepsBy_ran (State.busWrite_keeps .rfl')
  | fabErrNonzero r => exact keepsBy_ran (State.busWrite_keeps .rfl')
  | linkReplayNonzero r k => exact keepsBy_ran (State.busWrite_keeps .rfl')
  | mcGuardValid r => exact keepsBy_ran (State.busWrite_keeps .rfl')
  | evrLostNonzero r => exact keepsBy_ran (State.busWrite_keeps .rfl')
  | rgnPoisonClear r entry => exact keepsBy_ran (State.busWrite_keeps .rfl')
  | evrRelease r v => exact keepsBy_ran (State.busPair_keeps .rfl')
  | replicaCommit r v => exact keepsBy_ran (State.busPair_keeps .rfl')
  | hostDmaRing r n v => exact keepsBy_ran (State.busPair_keeps .rfl')
  | hostDmaList r hi v => exact keepsBy_ran (State.busPair_keeps .rfl')
  | pwrCtrlWake r => exact keepsBy_ran (State.busWrite_keeps .rfl')
  | ringEnable r ring reply db => exact keepsBy_ran (State.startRing_keeps (.ite .rfl' (State.busWrite_keeps .rfl')))
  | ringDisable r ring => exact keepsBy_ran (State.busWrite_keeps .rfl')
  | doorbellNotify ring reply cmdProd cplCons => exact keepsBy_ran (State.doorbell_keeps .rfl')
  | pcieCompletionTimeout n => exact keepsBy_ranCore (State.hostAnswer_keeps .rfl')
  | nop c => exact keepsBy_ran (State.answer_keeps .rfl' fun _ h => h)
  | fence c => exact keepsBy_ran (State.await_keeps .rfl' fun _ => State.fences_keeps)
  | progLoad c first fields reply insns bad tied lim => exact progLoad_keepsBy ..
  | schedLoad c reply img => exact keepsBy_ran (State.await_keeps .rfl' fun _ h => State.wrF_keeps (.upd h))
  | regionDefine c d0 d1 d3 => exact regionDefine_keepsBy ..
  | jobUnload c => exact keepsBy_ran (State.answer_keeps .rfl' fun _ => State.unloadJob_keeps)
  | kernelLaunch c entry repack slots fields args kid => exact keepsBy_ran (State.await_keeps .rfl' fun _ => State.launch_keeps)
  | kernelComplete kid => exact kernelComplete_keepsBy ..
  | kernelAbort c kid => exact keepsBy_ran (State.await_keeps .rfl' fun _ => State.abortKernel_keeps)
  | dmaXfer c h paired reply img => exact dmaXfer_keepsBy ..
  | cacheOp c line16 len kind => exact cacheOp_keepsBy ..
  | pin c line16 len fill => exact pin_keepsBy ..
  | unpin c v => exact keepsBy_ran (State.await_keeps .rfl' fun _ => State.pinWrite_keeps)
  | stepBegin c index reply b => exact stepBegin_keepsBy ..
  | stepAbort c => exact keepsBy_ran (State.await_keeps .rfl' fun _ h => State.reportStep_keeps (State.putPart_keeps h))
  | clipSet c reply v => exact keepsBy_ran (State.answer_keeps .rfl' fun _ h => .ite_fst h (State.setClip_keeps h))
  | tieDeclare c reply t =>
    exact keepsBy_ran (State.answer_keeps .rfl' fun _ h => .ite_fst h (.ite_fst h (.ite_fst h (State.putPart_keeps h))))
  | stepQuery c p => exact keepsBy_ran (State.answer_keeps .rfl' fun _ h => h)
  | stepTable c reply t u => exact stepTable_keepsBy ..
  | partCreate c p quads job key => exact keepsBy_ran (State.await_keeps .rfl' fun _ h => .upd (State.wrF_keeps (State.putPart_keeps h)))
  | partDestroy c p force => exact partDestroy_keepsBy ..
  | scrubComplete n => exact scrubComplete_keepsBy ..
  | frameLoad c reply img => exact keepsBy_ran (State.await_keeps .rfl' fun _ h => State.wrF_keeps (.upd h))
  | sharedCreate c base len key replica => exact sharedCreate_keepsBy ..
  | sharedSeal c e => exact keepsBy_ran (State.answer_keeps .rfl' fun _ => State.putRegion_keeps)
  | keyGrant c p e module anymod base len key => exact keepsBy_ran (State.answer_keeps .rfl' fun _ => State.putKmap_keeps)
  | keyRevoke c p e => exact keepsBy_ran (State.answer_keeps .rfl' fun _ => State.putKmap_keeps)
  | sharedDestroy c e => exact keepsBy_ran (State.await_keeps .rfl' fun _ h => .upd (State.clearPoisonBit_keeps (State.putRegion_keeps h)))
  | epochSet c tag => exact keepsBy_ran (State.answer_keeps .rfl' fun _ => State.wr_keeps)
  | moduleQuery c => exact keepsBy_ran (State.answer_keeps .rfl' fun _ h => h)
  | powerQuery c => exact keepsBy_ran (State.powerCmd_keeps .rfl' fun _ h => h)
  | powerReef c => exact keepsBy_ran (State.powerCmd_keeps .rfl' fun _ => State.enterReef_keeps)
  | powerReefLeave c => exact keepsBy_ran (State.powerCmd_keeps .rfl' fun _ => State.leaveReef_keeps)
  | powerStrike c => exact powerStrike_keepsBy ..
  | powerDormant c => exact powerDormant_keepsBy ..
  | powerWake c => exact powerWake_keepsBy ..
  | powerLimits c cap lo hi =>
    exact keepsBy_ran (State.powerCmd_keeps .rfl' fun _ h => State.wrF_keeps (State.wrF_keeps (State.wrF_keeps h)))
  | eventRead c buf len n release => exact keepsBy_ran (State.answer_keeps .rfl' fun _ => State.readEvents_keeps)
  | reset c => cases h
  | certRead c buf len => exact keepsBy_ran (State.secAnswer_keeps .rfl' fun _ => State.emit_keeps)
  | attest c buf len part nonce => cases h
  | revokeUpdate c reply l => exact revokeUpdate_keepsBy ..
  | fwInstall c reply img => exact fwInstall_keepsBy ..
  | debugSet c level reply token => exact debugSet_keepsBy ..
  | lifecycle c target reply token => cases h
  | signQuery c => exact keepsBy_ran (State.secAnswer_keeps .rfl' fun _ h => h)
  | nodeCacheBuild => exact keepsBy_ran (.ite (State.buildNodes_keeps .rfl') .rfl')
  | idcode => exact keepsBy_ran (State.tapRun_keeps .rfl' fun _ => State.tapSet_keeps)
  | bypass => exact keepsBy_ran (State.tapRun_keeps .rfl' fun _ => State.tapSet_keeps)
  | secStatus => exact keepsBy_ran (State.tapRun_keeps .rfl' fun _ => State.tapSet_keeps)
  | samplePreload cells => exact keepsBy_ran (State.tapRun_keeps .rfl' fun _ h => State.tock_keeps (.upd (State.tapSet_keeps h)))
  | extest cells => exact keepsBy_ran (State.tapRun_keeps .rfl' fun _ h => State.tock_keeps (.upd (State.tapSet_keeps h)))
  | regRead off => exact keepsBy_ran (State.tapRun_keeps .rfl' fun _ => State.tapSet_keeps)
  | regWrite off v => exact keepsBy_ran (State.tapRun_keeps .rfl' fun _ h => State.tapSet_keeps (State.busWrite_keeps h))
  | coreHalt core => exact keepsBy_ran (State.tapRun_keeps .rfl' fun _ h => State.tapSet_keeps (State.putCore_keeps h))
  | coreStep core => exact keepsBy_ran (State.tapRun_keeps .rfl' fun _ h => State.tapSet_keeps (.ite (State.putCore_keeps h) h))
  | mem addr k u => exact mem_keepsBy ..
  | powerUpReset => cases h
  | resetN => cases h
  | jtagReset => cases h
  | perstN => exact keepsBy_ran (.upd .rfl')
  | startupOrderComplete d => cases h
  | startupOrderTimeout => exact keepsBy_ran (.ite (State.enterBeacon_keeps .rfl') .rfl')
  | coolantWaitTimeout => exact keepsBy_ran (.ite (State.enterBeacon_keeps .rfl') .rfl')
  | lampTimer => exact keepsBy_ran (.ite .rfl' (.upd .rfl'))
  | pfwNAssert => exact keepsBy_ran (.ite .rfl' (State.pfwAssert_keeps .rfl'))
  | undervoltageWarning => exact keepsBy_ran (.ite .rfl' (.ite (State.warn_keeps (State.wrF_keeps .rfl')) (State.wrF_keeps .rfl')))
  | pfwNRelease => cases h
  | holdEnd => exact keepsBy_ran (.ite (State.enterStrike_keeps (.ite (State.setCause_keeps .rfl') .rfl')) .rfl')
  | resume => exact keepsBy_ran (.ite (State.leaveStrike_keeps .rfl') .rfl')
  | bulkStoreCollapse => cases h
  | governorSample watts avg1 avg10 volt amps => exact governorSample_keepsBy ..
  | protectiveHold field junction supplyBad => exact protectiveHold_keepsBy ..
  | protectiveHoldExit field junction supplyBad u => exact protectiveHoldExit_keepsBy ..
  | sharedRestore entry status data verify => exact keepsBy_ranCore (State.restoreShared_keeps .rfl')
  | recorderTake => exact keepsBy_ran (.ite .rfl' (State.recorderSlot_keeps .rfl'))
  | recordWrite => exact recordWrite_keepsBy ..
  | shortRepairDone field site ch u => exact shortRepairDone_keepsBy ..
  | unpinComplete half entry u => exact unpinComplete_keepsBy ..
  | controlCoreStop core => exact keepsBy_ran (.ite (State.raiseOwner_keeps (State.putCore_keeps .rfl')) .rfl')
  | coolantCrossing inlet outlet => exact coolantCrossing_keepsBy ..
  | pcieLinkUp => exact keepsBy_ran (.ite .rfl' (.upd .rfl'))
  | hostReadCompletion n reply data u => exact keepsBy_ranCore (State.hostAnswer_keeps .rfl')

/-! ### Resets and signing -/

/-- From s to t the queue and the canonical form of memory are kept: what `State.Keeps` says, the signing state apart. -/
structure Retains (s t : State) : Prop where
  pending : t.pending = s.pending
  mem : Memory.wf s.mem = true → Memory.wf t.mem = true

section Resets

variable {s t u : State}

theorem Retains.of_keeps (h : s.Keeps t) : Retains s t := ⟨h.pending, h.mem⟩

theorem Retains.refl (s : State) : Retains s s := ⟨rfl, id⟩

theorem Retains.trans (h : Retains s t) (g : Retains t u) : Retains s u := ⟨g.pending.trans h.pending, g.mem ∘ h.mem⟩

theorem Retains.then_keeps (h : Retains s t) (g : t.Keeps u) : Retains s u := h.trans (.of_keeps g)

theorem Retains.ite {c : Prop} [Decidable c] (h : Retains s t) (g : Retains s u) : Retains s (if c then t else u) := by
  split
  · exact h
  · exact g

theorem setFlash_retains (s : State) (f : Flash) : Retains s ({ s with flash := f } : State) := ⟨rfl, id⟩

/-- A reset keeps the queue of commands and empties memory (R407). -/
theorem resetTo_retains (s : State) (cause : Nat) : Retains s (s.resetTo cause) := ⟨rfl, fun _ => rfl⟩

theorem powerUp_retains (s : State) : Retains s s.powerUp := ⟨rfl, fun _ => rfl⟩

theorem sign_retains {msg : Nat → Nat} {n sig : Nat} (h : s.sign msg = some (t, n, sig)) : Retains s t := by
  unfold State.sign at h
  extract_lets leaf sec s1 s2 sec2 at h
  have reserved : Retains s s1 := .ite ⟨rfl, id⟩ (.refl s)
  have built : Retains s s2 := reserved.then_keeps (State.buildNodes_keeps .rfl')
  have advanced : Retains s ({ s2 with sec := { s2.sec with signNext := leaf + 1 } } : State) := built.trans ⟨rfl, id⟩
  split at h
  · cases h
  · obtain rfl : _ = t := congrArg (·.1) (Option.some.inj h)
    exact advanced.then_keeps (State.showNodes_keeps .rfl')

theorem attest_retains (s : State) (buf : Long) (part : Nat) (nonce : BitVec 256) : Retains s (s.attest buf part nonce).1 := by
  unfold State.attest
  split
  · exact .refl s
  · rename_i signed
    exact (sign_retains signed).then_keeps (State.tock_keeps (State.emit_keeps .rfl'))

theorem secAnswer_retains {f : State → State × Status × Nat × Nat} (s : State) (c : Cmd) (op : Nat) (v : Status)
    (hf : ∀ x, Retains x (f x).1) : Retains s (s.secAnswer c op v f) := by
  unfold State.secAnswer
  have consumed : Retains s (s.consume c.ring 1) := .of_keeps (State.consume_keeps .rfl')
  refine .ite (.refl s) ?_
  extract_lets s1
  split
  · split
    rename_i answered
    have acted := consumed.trans (hf _)
    rw [answered] at acted
    exact acted.then_keeps (State.secDone_keeps .rfl')
  · exact consumed.then_keeps (State.secDone_keeps .rfl')

theorem Flash.putLife_resEnd (f : Flash) (state : Nat) : (f.putLife state).resEnd = f.resEnd := by
  unfold Flash.putLife
  extract_lets a b r
  split <;> rfl

theorem hintUpdate_retains (s : State) : Retains s s.hintUpdate := by
  unfold State.hintUpdate
  extract_lets f found moved due
  refine .ite (.refl s) ?_
  split
  · exact .refl s
  · rename_i signed
    exact ((sign_retains signed).trans (setFlash_retains ..)).then_keeps (State.raiseOwner_keeps (State.wrF_keeps .rfl'))

theorem identity_retains (s : State) : Retains s s.identity := by
  unfold State.identity
  extract_lets f sec s1 s2 s3
  have loaded : Retains s s1 := ⟨rfl, id⟩
  have hashed : s1.Keeps s3 := State.putHash_keeps (State.wr_keeps (State.wr_keeps .rfl'))
  exact loaded.then_keeps (State.nextOrder_keeps (State.bootHistory_keeps (State.showNodes_keeps hashed)))

theorem railCheck_retains (d : OrderData) (h : Retains s t) : Retains s (s.railCheck d t) := by
  unfold State.railCheck
  split
  · exact .of_keeps (State.enterBeacon_keeps .rfl')
  · exact h

/-- An order of start-up that finishes keeps the queue and memory's canonical form (R409). -/
theorem orderDone_retains (s : State) (d : OrderData) : Retains s (s.orderDone d) := by
  have advances {t : State} : t.Keeps t.nextOrder := State.nextOrder_keeps .rfl'
  unfold State.orderDone
  split
  · exact .of_keeps advances
  · exact railCheck_retains d (.of_keeps (State.nextOrder_keeps (State.wrF_keeps (.upd .rfl'))))
  · exact railCheck_retains d (.ite (identity_retains s) (.of_keeps (State.enterBeacon_keeps .rfl')))
  · exact railCheck_retains d (.of_keeps (State.bootImage_keeps .rfl'))
  · split
    · exact .of_keeps (State.enterBeacon_keeps .rfl')
    · exact .of_keeps advances
  · have shown : s.Keeps ((s.showTemps d.inlet d.outlet).wrF oPwrTemp 0 8 (Nat.min 255 d.junction)) :=
      State.wrF_keeps (State.showTemps_keeps .rfl')
    exact .of_keeps (.ite (State.bist_keeps shown) shown)
  · exact .of_keeps (State.repairMap_keeps .rfl')
  · have moved : Retains s (s.moveChannels d.badCh) := .of_keeps (State.moveChannels_keeps .rfl')
    exact .ite moved ((moved.trans (hintUpdate_retains _)).then_keeps advances)
  · exact .of_keeps (State.nextOrder_keeps (State.loadRegisters_keeps .rfl'))
  · exact .of_keeps (State.nextOrder_keeps (State.trainLinks_keeps .rfl'))
  · exact .of_keeps (State.finishStartup_keeps .rfl')
  · exact .refl s

theorem pfwRelease_retains (s : State) : Retains s s.pfwRelease := by
  unfold State.pfwRelease
  extract_lets s1
  have released : s.Keeps s1 := State.setPfw_keeps .rfl'
  exact .ite (.of_keeps (.ite (.upd released) (State.leaveReef_keeps released)))
    (.ite ((Retains.of_keeps released).trans (powerUp_retains s1)) (.of_keeps released))

/-- RESET resets the module, or completes with why it does not (R379). -/
theorem reset_eq_ran (c : Cmd) (s : State) : ∃ t, execReset c s = ran (.reset c) t ∧ Retains s t := by
  refine ⟨_, rfl, .ite (.refl s) ?_⟩
  split
  · exact resetTo_retains s 1
  · exact .of_keeps (State.writeCpl_keeps (State.consume_keeps .rfl'))

/-- LIFECYCLE writes its record and completes; where it succeeds a power-up reset follows (R458). -/
theorem lifecycle_eq_ran (c : Cmd) (target : Nat) (reply : HostReply) (token : Option Signed) (s : State) :
    ∃ t, execLifecycle c target reply token s = ran (.lifecycle c target reply token) t ∧ Retains s t := by
  have answered (v : Status) : Retains s (s.secAnswer c 0x95 v fun t => ({ t with flash := t.flash.putLife target }, .ok, 0, 0)) :=
    .of_keeps (State.secAnswer_keeps .rfl' fun _ h => .updSec h rfl rfl rfl (Flash.putLife_resEnd _ _))
  exact ⟨_, rfl, .ite ((answered _).trans (powerUp_retains _)) (answered _)⟩

end Resets

/-! ### Every command -/

/-- Every command, in every state, has as its outcome that of an effect which keeps the queue and memory's canonical form. -/
theorem exec_eq_ran (c : Instr) (s : State) : ∃ t, exec c s = ran c t ∧ Retains s t := by
  by_cases h : resetsOrSigns c = false
  · obtain ⟨t, outcome, kept⟩ := exec_keepsBy c s h
    exact ⟨t, outcome, .of_keeps kept⟩
  · unfold resetsOrSigns at h
    split at h
    · exact ⟨_, rfl, powerUp_retains s⟩
    · exact ⟨_, rfl, .ite (.refl s) (resetTo_retains s 2)⟩
    · exact reset_eq_ran ..
    · exact ⟨_, rfl, .ite (orderDone_retains s _) (.refl s)⟩
    · exact ⟨_, rfl, .ite (.refl s) (.ite (resetTo_retains s 3) (.of_keeps (.upd .rfl')))⟩
    · exact ⟨_, rfl, .ite (.refl s) (pfwRelease_retains s)⟩
    · exact ⟨_, rfl, rfl, fun _ => rfl⟩
    · exact ⟨_, rfl, secAnswer_retains s _ _ _ fun x => attest_retains x ..⟩
    · exact lifecycle_eq_ran ..
    · exact absurd rfl h

/-! ### The obligations -/

/-- Settles O56: `ran` answers the effect of a well-formed command and names the stop of the others. -/
theorem commandsCompleteOrNameTheirStop : Obligations.CommandsCompleteOrNameTheirStop := by
  intro c s
  obtain ⟨t, outcome, kept⟩ := exec_eq_ran c s
  rw [outcome]
  exact ⟨fun wf => ⟨t, ran_of_wf wf t, kept.pending⟩, fun units => ran_of_no_units units t,
    fun units loadable => ran_of_not_loadable units loadable t⟩

/-- Settles O58: on an empty queue memory stays as it is, and the command at the front of the queue keeps its canonical form. -/
theorem memoryStaysCanonical : Obligations.MemoryStaysCanonical := by
  intro s t wf stepped
  unfold step at stepped
  split at stepped
  · cases stepped
    exact (State.idle_keeps .rfl').mem wf
  · rename_i c rest _
    obtain ⟨u, outcome, kept⟩ := exec_eq_ran c { s with pending := rest }
    rw [outcome] at stepped
    rw [eq_of_ran_next stepped]
    exact kept.mem wf

end Sys2Proof.Proofs
end

section
/-! PROOF. Writes that clear W1C bits

A write of 1 to a W1C bit clears the bit and zeroes the counts it stands for (R7). `clearW1c_spec` says so of the model's operation,
`ClearingWrite` says when a bus write comes down to that operation, and one lemma per register shows that its write is such a one. -/

namespace Sys2Proof.Proofs

open Sys2Proof.Machine Sys2Proof.Claim

/-! ### Fields and bits -/

theorem getLsbD_setFld_zero (v : Word) (lo w i : Nat) :
    (setFld v lo w 0).getLsbD i = (v.getLsbD i && !(decide (lo ≤ i) && decide (i < lo + w))) := by
  by_cases hi : i < 32
  · have inField :
        (decide (lo ≤ i) && decide (i - lo < w)) = (decide (lo ≤ i) && decide (i < lo + w)) := by
      by_cases h : lo ≤ i
      · simp only [h, decide_true, Bool.true_and, decide_eq_decide]
        omega
      · simp [h]
    simp [setFld, -BitVec.getLsbD_eq_getElem, BitVec.getLsbD_ofNat, Nat.testBit_shiftLeft,
      Nat.testBit_two_pow_sub_one, hi, inField]
  · simp [BitVec.getLsbD_of_ge _ _ (by omega : 32 ≤ i)]

/-- A field reads zero where none of its bits is set. -/
theorem fld_eq_zero {v : Word} {lo w : Nat} (h : ∀ i, lo ≤ i → i < lo + w → v.getLsbD i = false) :
    fld v lo w = 0 := by
  refine Nat.eq_of_testBit_eq fun i => ?_
  by_cases hi : i < w
  · simpa [fld, bits, Nat.testBit_mod_two_pow, hi, BitVec.testBit_toNat, Nat.add_comm] using h (lo + i) (by omega) (by omega)
  · simp [fld, bits, Nat.testBit_mod_two_pow, hi]

/-! ### Counts zeroed one after the other -/

/-- From s to t registers alone changed, those of `os` at most, and no bit was set. -/
structure ClearsIn (os : List Nat) (s t : State) : Prop where
  regsOnly : ({ t with regs := s.regs } : State) = s
  frame : ∀ q, q ∉ os → t.rd q = s.rd q
  clear : ∀ q i, (s.rd q).getLsbD i = false → (t.rd q).getLsbD i = false

theorem ClearsIn.trans {os ps : List Nat} {s t u : State} (h : ClearsIn os s t) (g : ClearsIn ps t u) : ClearsIn (os ++ ps) s u where
  regsOnly := by
    have := h.regsOnly
    rw [← g.regsOnly] at this
    exact this
  frame q hq := by
    rw [List.mem_append, not_or] at hq
    rw [g.frame q hq.2, h.frame q hq.1]
  clear q i hi := g.clear q i (h.clear q i hi)

theorem wr_clearsIn (s : State) (o : Nat) (v : Word) (h : ∀ i, (s.rd o).getLsbD i = false → v.getLsbD i = false) :
    ClearsIn [o] s (s.wr o v) where
  regsOnly := rfl
  frame q hq := by
    rw [List.mem_singleton] at hq
    rw [State.rd_wr, if_neg hq]
  clear q i hi := by
    rw [State.rd_wr]
    split
    · subst q
      exact h i hi
    · exact hi

theorem wrF_zero_clearsIn (s : State) (o lo w : Nat) : ClearsIn [o] s (s.wrF o lo w 0) :=
  wr_clearsIn s o _ fun i hi => by rw [getLsbD_setFld_zero, hi, Bool.false_and]

theorem rdF_wrF_zero (s : State) (o lo w : Nat) : (s.wrF o lo w 0).rdF o lo w = 0 := by
  refine fld_eq_zero fun i hlo hhi => ?_
  rw [State.rd_wrF, if_pos rfl, getLsbD_setFld_zero]
  simp [hlo, hhi]

theorem ClearsIn.rdF_eq_zero {os : List Nat} {s t : State} (h : ClearsIn os s t) {o lo w : Nat} (hz : s.rdF o lo w = 0) :
    t.rdF o lo w = 0 := by
  refine fld_eq_zero fun i hlo hhi => h.clear o i ?_
  have bit := congrArg (fun n => n.testBit (i - lo)) hz
  simpa [State.rdF, fld, bits, BitVec.testBit_toNat, Nat.testBit_mod_two_pow, show i - lo < w by omega,
    Nat.add_sub_cancel' hlo] using bit

/-- A block zeroes count fields one after the other. -/
theorem foldl_zero_clearsIn (base : Nat) (zs : List (Nat × Nat × Nat)) (s : State) :
    let t := zs.foldl (fun v z => v.wrF (base + z.1) z.2.1 z.2.2 0) s
    ClearsIn (zs.map fun z => base + z.1) s t ∧ ∀ z ∈ zs, t.rdF (base + z.1) z.2.1 z.2.2 = 0 := by
  induction zs generalizing s with
  | nil => exact ⟨⟨rfl, fun _ _ => rfl, fun _ _ => id⟩, by simp⟩
  | cons z r ih =>
    obtain ⟨cleared, zero⟩ := ih (s.wrF (base + z.1) z.2.1 z.2.2 0)
    refine ⟨(wrF_zero_clearsIn s _ _ _).trans cleared, fun y hy => ?_⟩
    rcases List.mem_cons.1 hy with rfl | hy
    · exact cleared.rdF_eq_zero (rdF_wrF_zero s ..)
    · exact zero y hy

/-- Writing 1 to W1C bits of a register clears them and the counts they stand for, and sets no bit (R7). -/
theorem clearW1c_spec (s : State) (b : Blk) (l : Nat) {v : Word} (hv : v ≠ 0) :
    let t := s.clearW1c b l v
    ClearsIn ((b.base + l) :: (w1cZeroes b l).map fun z => b.base + z.1) s t ∧
    (∀ i, v.getLsbD i = true → (t.rd (b.base + l)).getLsbD i = false) ∧
    ∀ z ∈ w1cZeroes b l, t.rdF (b.base + z.1) z.2.1 z.2.2 = 0 := by
  have bits : ClearsIn [b.base + l] s (s.wr (b.base + l) (s.rd (b.base + l) &&& ~~~ v)) :=
    wr_clearsIn s _ _ fun i hi => by rw [BitVec.getLsbD_and, hi, Bool.false_and]
  obtain ⟨cleared, zero⟩ := foldl_zero_clearsIn b.base (w1cZeroes b l) (s.wr (b.base + l) (s.rd (b.base + l) &&& ~~~ v))
  rw [State.clearW1c, if_neg hv]
  refine ⟨bits.trans cleared, fun i hi => cleared.clear _ i ?_, zero⟩
  rw [State.rd_wr, if_pos rfl, BitVec.getLsbD_and, BitVec.getLsbD_not, hi]
  simp

/-! ### The way of a write to its register -/

/-- A block's base and an offset's place in the block together are the offset, and it lies below the aliases (R392). -/
theorem base_add_of_blkOf {o l : Nat} {b : Blk} (h : blkOf o = some (b, l)) : b.base + l = o ∧ o < 0x5000000 := by
  unfold blkOf at h
  split at h
  · extract_lets m at h
    have whole : o / 0x10000 * 0x10000 + m = o := Nat.div_add_mod' o 0x10000
    clear_value m
    split at h
    case h_5 =>
      split at h
      · rename_i inDma
        simp only [Bool.and_eq_true, decide_eq_true_eq] at inDma
        cases h
        simp only [Blk.base]
        omega
      · cases h
        simp only [Blk.base]
        omega
    case h_8 n0 n1 n2 n3 n4 n5 n6 =>
      have last : o / 0x10000 = 7 := by
        simp only [imp_false] at n0 n1 n2 n3 n4 n5 n6
        omega
      cases h
      simp only [Blk.base]
      omega
    all_goals
      cases h
      simp only [Blk.base]
      omega
  · split at h
    · cases h
      simp only [Blk.base]
      omega
    · split at h
      · rename_i range
        simp only [Bool.and_eq_true, decide_eq_true_eq] at range
        extract_lets f m at h
        have whole : f * 0x100000 + m = o - 0x1000000 := by
          show (o - 0x1000000) / 0x100000 * 0x100000 + o % 0x100000 = o - 0x1000000
          omega
        clear_value f m
        split at h
        · rename_i inDma
          simp only [Bool.and_eq_true, decide_eq_true_eq] at inDma
          cases h
          simp only [Blk.base]
          omega
        · split at h
          · rename_i inTile
            simp only [Bool.and_eq_true, decide_eq_true_eq] at inTile
            cases h
            simp only [Blk.base]
            omega
          · cases h
            simp only [Blk.base]
            omega
      · cases h

theorem blkOf_tile {f site l : Nat} (hf : f < 64) (hs : site < 196) (hl : l < 0x1000) :
    blkOf (0x1001000 + f * 0x100000 + site * 0x1000 + l) = some (.tile f site, l) := by
  have field : (0x1001000 + f * 0x100000 + site * 0x1000 + l - 0x1000000) / 0x100000 = f := by omega
  have inField : (0x1001000 + f * 0x100000 + site * 0x1000 + l) % 0x100000 = 0x1000 + site * 0x1000 + l := by omega
  unfold blkOf
  rw [if_neg (by omega), if_neg (by omega), if_pos (by simp; omega), field, inField]
  dsimp only
  rw [if_neg (by simp; omega), if_pos (by simp; omega)]
  congr 3 <;> omega

theorem blkOf_link {k l : Nat} (hk : k < 64) (hl : l < 0x1000) : blkOf (0x80000 + k * 0x1000 + l) = some (.link k, l) := by
  unfold blkOf
  rw [if_neg (by omega), if_pos (by omega)]
  congr 3 <;> omega

/-- Offset o is that of a register, at l in block b, of which a write of v does nothing but clear W1C bits. -/
structure ClearingWrite (o : Nat) (b : Blk) (l : Nat) (v : Word) : Prop where
  place : blkOf o = some (b, l)
  aligned : o % 8 = 0
  row : ∃ row n, rowOf b.rows l = some (row, n) ∧ row.guarded = false ∧ row.mask .rw = 0 ∧ row.mask .s = 0 ∧
    v &&& row.mask .w1c = v
  stored : tabled b l = false
  hook : ∀ (s : State) (old : Word), s.writeHook b l old v = s

theorem ClearingWrite.busWrite_eq {o l : Nat} {b : Blk} {v : Word} (h : ClearingWrite o b l v) {s : State} {r : Req}
    (unpaired : s.pairOf r.id = none) (takes : Takes s r o) : s.busWrite r o v = s.clearW1c b l v := by
  obtain ⟨row, n, found, unguarded, noRw, noS, w1c⟩ := h.row
  obtain ⟨whole, low⟩ := base_add_of_blkOf h.place
  have checkOk : s.writeCheck r b l row = some .ok := by
    obtain ⟨b', l', row', n', placed, found', ok⟩ := takes
    rw [h.place, Option.some.injEq, Prod.mk.injEq] at placed
    obtain ⟨rfl, rfl⟩ := placed
    rw [found, Option.some.injEq, Prod.mk.injEq] at found'
    obtain ⟨rfl, -⟩ := found'
    exact ok
  have reached : s.reaches r b = true := by
    cases unreached : s.reaches r b with
    | true => rfl
    | false => simp [State.writeCheck, unreached] at checkOk
  have heard : s.hears r = true := by
    cases unheard : s.hears r with
    | true => rfl
    | false => simp [State.reaches, unheard] at reached
  have fits : offsetOk o = true := by simp [offsetOk, h.aligned, h.place]
  have notAlias : ¬ aliasBase ≤ o := by
    unfold aliasBase
    omega
  have notTwin : ¬ twinBase ≤ o := by
    unfold twinBase
    omega
  have arrived : s.arrives r o = true := by simp [State.arrives, notAlias, notTwin, h.place, reached]
  have unbroken : s.breakPair r.id o = s := by rw [State.breakPair, unpaired]
  simp [State.busWrite, heard, fits, arrived, notAlias, notTwin, unbroken, State.blockWrite, State.checked,
    h.place, found, checkOk, unguarded, State.plainWrite, h.stored, State.storeFields, noRw, noS, w1c, h.hook]

/-- A command that is such a write clears its bit and the counts given, and changes no other register. -/
theorem ClearingWrite.goes {o l i : Nat} {b : Blk} {v : Word} (h : ClearingWrite o b l v) {c : Instr} {s : State} {r : Req}
    {counts : List (Nat × Nat × Nat)} (effect : exec c s = ran c (s.busWrite r o v)) (units : c.units = true)
    (loadable : c.loadable = true) (unpaired : s.pairOf r.id = none) (takes : Takes s r o) (bit : v.getLsbD i = true)
    (zeroes : (w1cZeroes b l).map (fun z => (b.base + z.1, z.2)) = counts) :
    Goes c s fun t => (t.rd o).getLsbD i = false ∧ (∀ z ∈ counts, t.rdF z.1 z.2.1 z.2.2 = 0) ∧
      (∀ q, q ≠ o → (∀ z ∈ counts, q ≠ z.1) → t.rd q = s.rd q) ∧ ({ t with regs := s.regs } : State) = s := by
  have nonzero : v ≠ 0 := by
    rintro rfl
    simp at bit
  obtain ⟨cleared, bits, zero⟩ := clearW1c_spec s b l nonzero
  rw [(base_add_of_blkOf h.place).1] at cleared bits
  subst zeroes
  refine ⟨s.clearW1c b l v, ?_, bits i bit, ?_, fun q hq hz => cleared.frame q ?_, cleared.regsOnly⟩
  · rw [effect, ran_of_wf (by rw [Instr.wf, units, loadable]; rfl), h.busWrite_eq unpaired takes]
  · simpa only [List.forall_mem_map] using zero
  · simp only [List.forall_mem_map] at hz
    simp only [List.mem_cons, List.mem_map, not_or, not_exists, not_and]
    exact ⟨hq, fun z mem eq => hz z mem eq.symm⟩

theorem ClearingWrite.own_count {o l : Nat} {b : Blk} {v : Word} (h : ClearingWrite o b l v) {lo w : Nat}
    (own : w1cZeroes b l = [(l, lo, w)]) : (w1cZeroes b l).map (fun z => (b.base + z.1, z.2)) = [(o, lo, w)] := by
  rw [own, List.map_singleton, (base_add_of_blkOf h.place).1]

/-! ### The registers with a W1C bit -/

theorem bit31_set : bit31.getLsbD 31 = true := by decide

theorem bit4_set : (0x10 : Word).getLsbD 4 = true := by decide

theorem tile_clearingWrite {f site l : Nat} (hf : f < 64) (hs : site < 196) (hl : l < 0x1000) (aligned : l % 8 = 0) {v : Word}
    (row : ∃ row n, rowOf tileRows l = some (row, n) ∧ row.guarded = false ∧ row.mask .rw = 0 ∧ row.mask .s = 0 ∧
      v &&& row.mask .w1c = v) :
    ClearingWrite (0x1001000 + f * 0x100000 + site * 0x1000 + l) (.tile f site) l v where
  place := blkOf_tile hf hs hl
  aligned := by omega
  row := row
  stored := rfl
  hook _ _ := rfl

theorem tgFault_clearingWrite {f site : Nat} (hf : f < 64) (hs : site < 196) :
    ClearingWrite (oTgFault f site) (.tile f site) 0xC08 bit31 :=
  tile_clearingWrite hf hs (by decide) rfl ⟨_, _, rfl, by decide⟩

theorem vltThrottle_clearingWrite {f site : Nat} (hf : f < 64) (hs : site < 196) :
    ClearingWrite (oVltThrottle f site) (.tile f site) 0x10 bit31 :=
  tile_clearingWrite hf hs (by decide) rfl ⟨_, _, rfl, by decide⟩

theorem vltErrCh_clearingWrite {f site ch : Nat} (hf : f < 64) (hs : site < 196) (hc : ch < 4) :
    ClearingWrite (oVltErrCh f site ch) (.tile f site) (0x18 + ch * 8) bit31 := by
  have row : ∃ row n, rowOf tileRows (0x18 + ch * 8) = some (row, n) ∧ row.guarded = false ∧ row.mask .rw = 0 ∧ row.mask .s = 0 ∧
      bit31 &&& row.mask .w1c = bit31 := by
    obtain rfl | rfl | rfl | rfl : ch = 0 ∨ ch = 1 ∨ ch = 2 ∨ ch = 3 := by omega
    all_goals exact ⟨_, _, rfl, by decide⟩
  rw [oVltErrCh, Nat.add_assoc _ 0x18]
  exact tile_clearingWrite hf hs (by omega) (by omega) row

theorem vltErrAddr_clearingWrite {f site : Nat} (hf : f < 64) (hs : site < 196) :
    ClearingWrite (oVltErrAddr f site) (.tile f site) 0x68 bit31 :=
  tile_clearingWrite hf hs (by decide) rfl ⟨_, _, rfl, by decide⟩

theorem tsErr_clearingWrite {f site : Nat} (hf : f < 64) (hs : site < 196) :
    ClearingWrite (oTsErr f site) (.tile f site) 0x70 bit31 :=
  tile_clearingWrite hf hs (by decide) rfl ⟨_, _, rfl, by decide⟩

theorem tsErrAddr_clearingWrite {f site : Nat} (hf : f < 64) (hs : site < 196) :
    ClearingWrite (oTsErrAddr f site) (.tile f site) 0x78 bit31 :=
  tile_clearingWrite hf hs (by decide) rfl ⟨_, _, rfl, by decide⟩

theorem scStatus_clearingWrite {h : Nat} (hh : h < 2) : ClearingWrite (oScStatus h) .sc (h * 0x4000) 0x10 := by
  obtain rfl | rfl : h = 0 ∨ h = 1 := by omega
  all_goals exact ⟨rfl, rfl, ⟨_, _, rfl, by decide⟩, rfl, fun _ _ => rfl⟩

theorem scErr_clearingWrite {h : Nat} (hh : h < 2) : ClearingWrite (oScErr h) .sc (0x28 + h * 0x4000) bit31 := by
  obtain rfl | rfl : h = 0 ∨ h = 1 := by omega
  all_goals exact ⟨rfl, rfl, ⟨_, _, rfl, by decide⟩, rfl, fun _ _ => rfl⟩

theorem fabErr_clearingWrite : ClearingWrite oFabErr .fab 0x300 bit31 :=
  ⟨rfl, rfl, ⟨_, _, rfl, by decide⟩, rfl, fun _ _ => rfl⟩

theorem linkReplay_clearingWrite {k : Nat} (hk : k < 64) : ClearingWrite (oLinkReplay k) (.link k) 0x30 bit31 where
  place := blkOf_link hk (by decide)
  aligned := by
    unfold oLinkReplay
    omega
  row := ⟨_, _, rfl, by decide⟩
  stored := rfl
  hook _ _ := rfl

theorem mcGuard_clearingWrite : ClearingWrite oMcGuard .mc 0x110 bit31 :=
  ⟨rfl, rfl, ⟨_, _, rfl, by decide⟩, rfl, fun _ _ => rfl⟩

theorem evrLost_clearingWrite : ClearingWrite oEvrLost .evr 0x18 bit31 :=
  ⟨rfl, rfl, ⟨_, _, rfl, by decide⟩, rfl, fun _ _ => rfl⟩

/-- The row of the poison bits of the region entries, all W1C (R485). -/
def rgnPoisonRow : Row := ⟨"RGN_POISON_n", 0x400, 128, 0x8, .runtime, [⟨0, 32, .w1c, 0x0⟩]⟩

theorem rowOf_rgnPoison : ∀ n < 128, rowOf evrRows (0x400 + n * 8) = some (rgnPoisonRow, n) := by decide

theorem rgnPoison_clearingWrite {n : Nat} (hn : n < 128) (v : Word) : ClearingWrite (oRgnPoison n) .evr (0x400 + n * 8) v where
  place := by
    have block : (0x30400 + n * 8) / 0x10000 = 3 := by omega
    have inBlock : (0x30400 + n * 8) % 0x10000 = 0x400 + n * 8 := by omega
    rw [oRgnPoison, blkOf, if_pos (by omega), block, inBlock]
    rfl
  aligned := by
    unfold oRgnPoison
    omega
  row := by
    have all : rgnPoisonRow.mask .w1c = BitVec.allOnes 32 := by decide
    exact ⟨_, _, rowOf_rgnPoison n hn, by decide, by decide, by decide, by rw [all, BitVec.and_allOnes]⟩
  stored := by
    simp [tabled]
    omega
  hook s old := by
    simp only [State.writeHook]
    rw [if_neg (by omega), if_neg (by simp; omega)]

/-! ### The obligation -/

/-- Settles O31: each command of the list is a write that does nothing but clear W1C bits. -/
theorem clearingWritesClear : Obligations.ClearingWritesClear := by
  intro r f site ch h k e s hr hf hs hch hh hk he unpaired c listed takes
  have siteUnits : (reqOk r && siteOk f site) = true := by simp [siteOk, fieldOk, hr, hf, hs]
  have chanUnits : (reqOk r && chanOk f site ch) = true := by simp [chanOk, siteOk, fieldOk, hr, hf, hs, hch]
  have halfUnits : (reqOk r && halfOk h) = true := by simp [halfOk, hr, hh]
  have linkUnits : (reqOk r && linkOk k) = true := by simp [linkOk, hr, hk]
  have entryUnits : (reqOk r && decide (e < 4096)) = true := by simp [hr, he]
  simp only [w1cRows, List.mem_cons, List.not_mem_nil, or_false] at listed
  obtain rfl | rfl | rfl | rfl | rfl | rfl | rfl | rfl | rfl | rfl | rfl | rfl | rfl := listed
  · have w := tgFault_clearingWrite hf hs
    exact w.goes rfl siteUnits rfl unpaired takes bit31_set (w.own_count rfl)
  · exact (vltThrottle_clearingWrite hf hs).goes rfl siteUnits rfl unpaired takes bit31_set rfl
  · have w := vltErrCh_clearingWrite hf hs hch
    have own : w1cZeroes (.tile f site) (0x18 + ch * 8) = [(0x18 + ch * 8, 0, 31)] := by
      rw [w1cZeroes, if_pos (by simp; omega)]
    exact w.goes rfl chanUnits rfl unpaired takes bit31_set (w.own_count own)
  · exact (vltErrAddr_clearingWrite hf hs).goes rfl siteUnits rfl unpaired takes bit31_set rfl
  · have w := tsErr_clearingWrite hf hs
    exact w.goes rfl siteUnits rfl unpaired takes bit31_set (w.own_count rfl)
  · exact (tsErrAddr_clearingWrite hf hs).goes rfl siteUnits rfl unpaired takes bit31_set rfl
  · have none : w1cZeroes .sc (h * 0x4000) = [] := by rw [w1cZeroes, if_neg (by omega)]
    exact (scStatus_clearingWrite hh).goes rfl halfUnits rfl unpaired takes bit4_set (by rw [none, List.map_nil])
  · have w := scErr_clearingWrite hh
    have own : w1cZeroes .sc (0x28 + h * 0x4000) = [(0x28 + h * 0x4000, 0, 31)] := by rw [w1cZeroes, if_pos (by omega)]
    exact w.goes rfl halfUnits rfl unpaired takes bit31_set (w.own_count own)
  · exact fabErr_clearingWrite.goes rfl hr rfl unpaired takes bit31_set rfl
  · exact (linkReplay_clearingWrite hk).goes rfl linkUnits rfl unpaired takes bit31_set rfl
  · exact mcGuard_clearingWrite.goes rfl hr rfl unpaired takes bit31_set rfl
  · exact evrLost_clearingWrite.goes rfl hr rfl unpaired takes bit31_set rfl
  · have none : w1cZeroes .evr (0x400 + e / 32 * 8) = [] := by rw [w1cZeroes, if_neg (by omega)]
    have bit : (BitVec.ofNat 32 (2 ^ (e % 32))).getLsbD (e % 32) = true := by
      rw [BitVec.getLsbD_ofNat, Nat.testBit_two_pow_self, Bool.and_true, decide_eq_true_eq]
      omega
    exact (rgnPoison_clearingWrite (by omega) _).goes rfl entryUnits rfl unpaired takes bit (by rw [none, List.map_nil])

end Sys2Proof.Proofs
end

section
/-! PROOF. Start-up and BEACON

The orders of start-up change few registers, and few of those twice. First come the reads of a register field after a write, then what each
operation of start-up leaves of the registers and of the state; `enterBeacon_shows` says once what every failure leads to, and one lemma
per order says what it leaves behind. -/

namespace Sys2Proof.Proofs

open Sys2Proof.Machine Sys2Proof.Claim

/-! ### Fields of registers -/

theorem getLsbD_setFld (v : Word) (lo w x i : Nat) :
    (setFld v lo w x).getLsbD i = if lo ≤ i ∧ i < lo + w then decide (i < 32) && x.testBit (i - lo) else v.getLsbD i := by
  by_cases hi : i < 32
  · by_cases field : lo ≤ i ∧ i < lo + w
    · have inField : i - lo < w := by omega
      simp [setFld, -BitVec.getLsbD_eq_getElem, BitVec.getLsbD_ofNat, Nat.testBit_shiftLeft, Nat.testBit_two_pow_sub_one, hi, field, inField]
    · have outside : (decide (lo ≤ i) && decide (i - lo < w)) = false := by
        rw [← Bool.decide_and]
        exact decide_eq_false (by omega)
      simp [setFld, -BitVec.getLsbD_eq_getElem, BitVec.getLsbD_ofNat, Nat.testBit_shiftLeft, Nat.testBit_two_pow_sub_one, hi, field, outside]
  · simp [BitVec.getLsbD_of_ge _ _ (by omega : 32 ≤ i), hi]

theorem testBit_fld (v : Word) (lo w i : Nat) : (fld v lo w).testBit i = (decide (i < w) && v.getLsbD (lo + i)) := by
  simp [fld, bits, Nat.testBit_mod_two_pow, BitVec.testBit_toNat]

theorem fld_setFld {lo w : Nat} (fits : lo + w ≤ 32) (v : Word) (x : Nat) : fld (setFld v lo w x) lo w = x % 2 ^ w := by
  refine Nat.eq_of_testBit_eq fun i => ?_
  rw [testBit_fld, getLsbD_setFld, Nat.testBit_mod_two_pow]
  by_cases hi : i < w
  · have inWord : lo + i < 32 := by omega
    simp [hi, inWord]
  · simp [hi]

theorem fld_setFld_of_disjoint {lo w a b : Nat} (apart : a + b ≤ lo ∨ lo + w ≤ a) (v : Word) (x : Nat) :
    fld (setFld v lo w x) a b = fld v a b := by
  refine Nat.eq_of_testBit_eq fun i => ?_
  rw [testBit_fld, testBit_fld, getLsbD_setFld]
  by_cases hi : i < b
  · rw [if_neg (by omega)]
  · simp [hi]

theorem rdF_wrF {lo w x : Nat} (fits : lo + w ≤ 32) (small : x < 2 ^ w) (s : State) (o : Nat) : (s.wrF o lo w x).rdF o lo w = x := by
  rw [State.rdF, State.rd_wrF, if_pos rfl, fld_setFld fits, Nat.mod_eq_of_lt small]

theorem rdF_wrF_of_disjoint {lo w a b : Nat} (apart : a + b ≤ lo ∨ lo + w ≤ a) (s : State) (o x : Nat) :
    (s.wrF o lo w x).rdF o a b = s.rdF o a b := by
  rw [State.rdF, State.rd_wrF, if_pos rfl, fld_setFld_of_disjoint apart, State.rdF]

theorem rd_wr_of_ne {q o : Nat} (h : q ≠ o) (s : State) (v : Word) : (s.wr o v).rd q = s.rd q := by rw [State.rd_wr, if_neg h]

theorem rd_wrF_of_ne {q o : Nat} (h : q ≠ o) (s : State) (lo w x : Nat) : (s.wrF o lo w x).rd q = s.rd q := rd_wr_of_ne h s _

theorem rd_of_regs {s t : State} (h : t.regs = s.regs) (q : Nat) : t.rd q = s.rd q := by rw [State.rd, State.rd, h]

theorem rdF_of_rd {s t : State} {o : Nat} (h : t.rd o = s.rd o) (lo w : Nat) : t.rdF o lo w = s.rdF o lo w := by
  rw [State.rdF, State.rdF, h]

/-! ### What the operations of start-up leave alone -/

/-- A report changes the recorder alone (R473). -/
theorem raiseOwner_eq (s : State) (cls : Cls) (st : Status) (x : Src) : ∃ r, s.raiseOwner cls st x = { s with recorder := r } := by
  unfold State.raiseOwner State.raise
  extract_lets r c k rep
  split <;> exact ⟨_, rfl⟩

theorem raiseOwner_field {γ : Type} (g : State → γ) (blind : ∀ (s : State) r, g { s with recorder := r } = g s) (s : State) (cls : Cls)
    (st : Status) (x : Src) : g (s.raiseOwner cls st x) = g s := by
  obtain ⟨r, eq⟩ := raiseOwner_eq s cls st x
  rw [eq, blind]

@[simp] theorem raiseOwner_rd (s : State) (cls : Cls) (st : Status) (x : Src) (q : Nat) : (s.raiseOwner cls st x).rd q = s.rd q :=
  raiseOwner_field (·.rd q) (fun _ _ => rfl) ..

theorem putHash_rd {q : Nat} {o : Nat → Nat} (h : ∀ n, q ≠ o n) (s : State) (v : BitVec 256) : (s.putHash o v).rd q = s.rd q := by
  unfold State.putHash
  exact foldl_field (State.rd · q) _ _ s fun t n => rd_wr_of_ne (h n) t _

@[simp] theorem putHash_sec (s : State) (o : Nat → Nat) (v : BitVec 256) : (s.putHash o v).sec = s.sec := by
  unfold State.putHash
  exact foldl_field State.sec _ _ s fun _ _ => rfl

@[simp] theorem putHash_flash (s : State) (o : Nat → Nat) (v : BitVec 256) : (s.putHash o v).flash = s.flash := by
  unfold State.putHash
  exact foldl_field State.flash _ _ s fun _ _ => rfl

@[simp] theorem putHash_rtMem (s : State) (o : Nat → Nat) (v : BitVec 256) : (s.putHash o v).rtMem = s.rtMem := by
  unfold State.putHash
  exact foldl_field State.rtMem _ _ s fun _ _ => rfl

theorem showRecord_rd {q : Nat} (h : ∀ n, q ≠ oSuRecord n) (s : State) (r : BitVec 512) : (s.showRecord r).rd q = s.rd q := by
  unfold State.showRecord
  exact foldl_field (State.rd · q) _ _ s fun t n => rd_wr_of_ne (h n) t _

@[simp] theorem keepFailure_startup (s : State) (r : BitVec 512) : (s.keepFailure r).startup = s.startup := by
  unfold State.keepFailure State.showRecord
  exact foldl_field State.startup _ _ _ fun _ _ => rfl

theorem suStatus_ne_suRecord (n : Nat) : oSuStatus ≠ oSuRecord n := by
  unfold oSuStatus oSuRecord
  omega

/-! ### Links -/

theorem setLinkState_rd {q k : Nat} (h : q ≠ oLinkStatus k) (s : State) (st : Nat) : (s.setLinkState k st).rd q = s.rd q := by
  unfold State.setLinkState
  split
  · rfl
  · rw [raiseOwner_rd, rd_wrF_of_ne h]

theorem setLinkState_startup (s : State) (k st : Nat) : (s.setLinkState k st).startup = s.startup := by
  unfold State.setLinkState
  split
  · rfl
  · exact raiseOwner_field (·.startup) (fun _ _ => rfl) ..

theorem oLinkStatus_inj {j k : Nat} (h : oLinkStatus j = oLinkStatus k) : j = k := by
  unfold oLinkStatus at h
  omega

theorem linkState_setLinkState {st : Nat} (small : st < 8) (s : State) (k j : Nat) :
    (s.setLinkState k st).linkState j = if j = k then st else s.linkState j := by
  by_cases same : j = k
  · subst j
    rw [if_pos rfl, State.setLinkState]
    split
    · assumption
    · rw [State.linkState, rdF_of_rd (raiseOwner_rd ..), rdF_wrF (by decide) small]
  · rw [if_neg same]
    exact rdF_of_rd (setLinkState_rd (mt oLinkStatus_inj same) s st) 0 3

/-- The registers below the links' blocks (R392). -/
theorem ne_oLinkStatus {q : Nat} (below : q < 0x80000) (k : Nat) : q ≠ oLinkStatus k := by
  unfold oLinkStatus
  omega

theorem linksOff_rd {q : Nat} (below : q < 0x80000) (s : State) : s.linksOff.rd q = s.rd q := by
  refine foldl_field (·.rd q) _ _ s fun t k => ?_
  have off := setLinkState_rd (ne_oLinkStatus below k) t lkOff
  dsimp only
  split
  · exact off
  · rw [← off]
    exact rd_of_regs (State.putLink_regs ..) q

theorem linksOff_startup (s : State) : s.linksOff.startup = s.startup := by
  refine foldl_field (·.startup) _ _ s fun t k => ?_
  have off := setLinkState_startup t k lkOff
  dsimp only
  split
  · exact off
  · rw [State.putLink_startup, off]

/-- One turn of `trainLinks`. -/
def trainOne (s : State) (k : Nat) : State :=
  if flag (s.rd (oLinkExpect k)) 16 && flag (s.rd (oLinkCtrl k)) 0 then s.setLinkState k lkTraining else s

theorem trainLinks_eq (s : State) : s.trainLinks = (List.range 64).foldl trainOne s := rfl

theorem trainOne_rd {q k : Nat} (h : q ≠ oLinkStatus k) (s : State) : (trainOne s k).rd q = s.rd q := by
  unfold trainOne
  split
  · exact setLinkState_rd h s _
  · rfl

theorem trainLinks_rd {q : Nat} (h : ∀ k, q ≠ oLinkStatus k) (s : State) : s.trainLinks.rd q = s.rd q :=
  foldl_field (·.rd q) trainOne _ s fun t k => trainOne_rd (h k) t

/-- A link is declared and enabled (R324, R326). -/
def Trains (s : State) (k : Nat) : Prop := flag (s.rd (oLinkExpect k)) 16 = true ∧ flag (s.rd (oLinkCtrl k)) 0 = true

theorem Trains.after_trainOne {s : State} {k : Nat} (h : Trains s k) (j : Nat) : Trains (trainOne s j) k := by
  have expect : oLinkExpect k ≠ oLinkStatus j := by
    unfold oLinkExpect oLinkStatus
    omega
  have ctrl : oLinkCtrl k ≠ oLinkStatus j := by
    unfold oLinkCtrl oLinkStatus
    omega
  rw [Trains, trainOne_rd expect, trainOne_rd ctrl]
  exact h

theorem Trains.linkState_trainOne {s : State} {k : Nat} (h : Trains s k) : (trainOne s k).linkState k = lkTraining := by
  rw [trainOne, h.1, h.2, Bool.and_self, if_pos rfl, linkState_setLinkState (by decide), if_pos rfl]

theorem linkState_trainOne_of_training {s : State} {k : Nat} (h : s.linkState k = lkTraining) (j : Nat) :
    (trainOne s j).linkState k = lkTraining := by
  unfold trainOne
  split
  · rw [linkState_setLinkState (by decide), h, ite_self]
  · exact h

theorem Trains.linkState_foldl {s : State} {k : Nat} (h : Trains s k) (l : List Nat) (trained : k ∈ l ∨ s.linkState k = lkTraining) :
    (l.foldl trainOne s).linkState k = lkTraining := by
  induction l generalizing s with
  | nil => exact trained.resolve_left List.not_mem_nil
  | cons j r ih =>
    refine ih (h.after_trainOne j) ?_
    rcases trained with listed | training
    · rcases List.mem_cons.1 listed with rfl | later
      · exact .inr h.linkState_trainOne
      · exact .inl later
    · exact .inr (linkState_trainOne_of_training training j)

/-! ### BEACON -/

theorem modState_of_stored {s : State} {c : Nat} (h : s.rdF oMcState 0 4 = c) (notReady : c ≠ stReady) : s.modState = c := by
  rw [State.modState, h, if_neg (by simp [notReady])]

/-- The module is in BEACON with a class and a detail, which `SU_STATUS` and the lamps show (R418, R422, R423). -/
def InBeacon (t : State) (c k : Nat) : Prop :=
  t.modState = stBeacon ∧ t.rdF oSuStatus 8 8 = c ∧ t.rdF oSuStatus 16 8 = k ∧ t.rdF oSuStatus 5 1 = 1 ∧ t.startup.beacon = some (c, k)

theorem enterBeacon_shows {c k : Nat} (hc : c < 256) (hk : k < 256) (s : State) (st : Status) : InBeacon (s.enterBeacon c k st) c k := by
  unfold State.enterBeacon
  extract_lets s1 s2 s3
  have shown (t : State) : (t.linksOff.setModState stBeacon).rd oSuStatus = t.rd oSuStatus := by
    rw [State.setModState, rd_wrF_of_ne (by decide), linksOff_rd (by decide)]
  refine ⟨modState_of_stored (rdF_wrF (by decide) (by decide) ..) (by decide), ?_, ?_, ?_, ?_⟩
  · rw [rdF_of_rd (shown _), rdF_wrF_of_disjoint (by decide), rdF_wrF (by decide) hc]
  · rw [rdF_of_rd (shown _), rdF_wrF (by decide) hk]
  · rw [rdF_of_rd (shown _), rdF_wrF_of_disjoint (by decide), rdF_wrF_of_disjoint (by decide), rdF_wrF (by decide) (by decide)]
  · rw [State.setModState_startup, linksOff_startup, State.wrF_startup, State.wrF_startup, State.wrF_startup, keepFailure_startup]

/-! ### From order to order -/

theorem nextOrder_order {s : State} {n : Nat} (h : s.rdF oSuStatus 0 4 = n) (small : n + 1 < 16) : s.nextOrder.rdF oSuStatus 0 4 = n + 1 := by
  rw [State.nextOrder, State.order, h, rdF_wrF (by decide) small]

theorem nextOrder_rd {q : Nat} (h : q ≠ oSuStatus) (s : State) : s.nextOrder.rd q = s.rd q := rd_wrF_of_ne h ..

section NextOrder

variable (s : State)

@[simp] theorem nextOrder_mem : s.nextOrder.mem = s.mem := rfl
@[simp] theorem nextOrder_poison : s.nextOrder.poison = s.poison := rfl
@[simp] theorem nextOrder_acc : s.nextOrder.acc = s.acc := rfl
@[simp] theorem nextOrder_imem : s.nextOrder.imem = s.imem := rfl
@[simp] theorem nextOrder_unused : s.nextOrder.unused = s.unused := rfl
@[simp] theorem nextOrder_regions : s.nextOrder.regions = s.regions := rfl
@[simp] theorem nextOrder_rtMem : s.nextOrder.rtMem = s.rtMem := rfl
@[simp] theorem nextOrder_flash : s.nextOrder.flash = s.flash := rfl
@[simp] theorem nextOrder_sec : s.nextOrder.sec = s.sec := rfl

end NextOrder

theorem goes_of_effect {c : Instr} {s t : State} {P : State → Prop} (effect : exec c s = ran c t) (wf : c.wf = true) (h : P t) :
    Goes c s P :=
  ⟨t, effect.trans (ran_of_wf wf t), h⟩

/-- While start-up runs, an order that ends does what `orderDone` says. -/
theorem startupOrderComplete_goes {s : State} (starting : s.starting = true) {d : OrderData} {P : State → Prop} (h : P (s.orderDone d)) :
    Goes (.startupOrderComplete d) s P :=
  goes_of_effect rfl rfl (by rwa [if_pos starting])

theorem startupOrderTimeout_goes {s : State} (starting : s.starting = true) {P : State → Prop} (order : 2 ≤ s.order)
    (h : P (s.enterBeacon 8 s.order .ok)) : Goes .startupOrderTimeout s P :=
  goes_of_effect rfl rfl (by rwa [if_pos (by simp [starting, order])])

theorem coolantWaitTimeout_goes {s : State} (starting : s.starting = true) {P : State → Prop} (order : s.order = 6)
    (h : P (s.enterBeacon 7 0 .ok)) : Goes .coolantWaitTimeout s P :=
  goes_of_effect rfl rfl (by rwa [if_pos (by simp [starting, order])])

theorem rdF_mcState_of_starting {s : State} (h : s.starting = true) : s.rdF oMcState 0 4 = stStartup := by
  simp only [State.starting, Bool.and_eq_true, beq_iff_eq] at h
  obtain ⟨⟨⟨inStartup, -⟩, -⟩, -⟩ := h
  exact inStartup

/-! ### Orders 2 to 4: the rails, the identity and the firmware image -/

theorem railCheck_none {s t : State} {d : OrderData} (h : d.rail = none) : s.railCheck d t = t := by rw [State.railCheck, h]

theorem railCheck_some {s t : State} {d : OrderData} {r : Nat} (h : d.rail = some r) : s.railCheck d t = s.enterBeacon 1 r .ok := by
  rw [State.railCheck, h]

theorem chargeTarget_le (inputMv bulkUf : Nat) : chargeTarget inputMv bulkUf ≤ 54000 ∧ chargeTarget inputMv bulkUf ≤ inputMv :=
  have within := Nat.min_le_left (Nat.min inputMv 54000) (if bulkUf = 0 then 54000 else isqrt (59600 * 10 ^ 12 / (1005 * bulkUf)))
  ⟨Nat.le_trans within (Nat.min_le_right ..), Nat.le_trans within (Nat.min_le_left ..)⟩

theorem showNodes_rd {q : Nat} (h : q ≠ oSecStatus) (s : State) : s.showNodes.rd q = s.rd q := rd_wrF_of_ne h ..

theorem bootHistory_rd {q : Nat} (h : q ≠ oEvrNext) (s : State) : s.bootHistory.rd q = s.rd q := by
  unfold State.bootHistory
  exact rd_wr_of_ne h _ _

@[simp] theorem bootHistory_sec (s : State) : s.bootHistory.sec = s.sec := by
  unfold State.bootHistory
  rw [State.wr_sec]

@[simp] theorem bootHistory_flash (s : State) : s.bootHistory.flash = s.flash := by
  unfold State.bootHistory
  rw [State.wr_flash]

theorem bootHistory_evrNext (s : State) : s.bootHistory.rd oEvrNext = 2 := by
  unfold State.bootHistory
  extract_lets r word x l
  rw [State.rd_wr, if_pos rfl]

theorem suStatus_ne_secIdHash (n : Nat) : oSuStatus ≠ oSecIdHash n := by
  unfold oSuStatus oSecIdHash
  omega

theorem identity_order {s : State} (h : s.rdF oSuStatus 0 4 = 3) : s.identity.rdF oSuStatus 0 4 = 4 := by
  unfold State.identity
  extract_lets f sec s1 s2 s3
  have kept : s3.showNodes.bootHistory.rd oSuStatus = s.rd oSuStatus :=
    calc s3.showNodes.bootHistory.rd oSuStatus = s3.showNodes.rd oSuStatus := bootHistory_rd (by decide) _
      _ = s3.rd oSuStatus := showNodes_rd (by decide) s3
      _ = s2.rd oSuStatus := putHash_rd suStatus_ne_secIdHash s2 _
      _ = (s1.wr oSecStatus _).rd oSuStatus := rd_wr_of_ne (by decide) _ _
      _ = s1.rd oSuStatus := rd_wr_of_ne (by decide) s1 _
  exact nextOrder_order ((rdF_of_rd kept 0 4).trans h) (by decide)

theorem identity_sec (s : State) :
    s.identity.sec = { s.sec with idOk := true, signNext := s.flash.resEnd, signEnd := s.flash.resEnd } := by
  unfold State.identity
  extract_lets f old s1 s2 s3
  calc s3.showNodes.bootHistory.nextOrder.sec = s3.sec := by
        rw [nextOrder_sec, bootHistory_sec, State.showNodes, State.wrF_sec]
    _ = s2.sec := putHash_sec s2 _ _
    _ = _ := rfl

theorem identity_flash (s : State) : s.identity.flash = s.flash := by
  unfold State.identity
  extract_lets f sec s1 s2 s3
  calc s3.showNodes.bootHistory.nextOrder.flash = s3.flash := by
        rw [nextOrder_flash, bootHistory_flash, State.showNodes, State.wrF_flash]
    _ = s2.flash := putHash_flash s2 _ _
    _ = s.flash := rfl

theorem identity_evrNext (s : State) : s.identity.rd oEvrNext = 2 := by
  unfold State.identity
  extract_lets f sec s1 s2 s3
  rw [nextOrder_rd (by decide), bootHistory_evrNext]

/-- The table of a list's bytes from key n on, with no zero listed, reads each byte at its place. -/
theorem tget_zipIdx (l : List Byte) (n i : Nat) :
    tget 0#8 (((l.zipIdx n).map fun e => (e.2, e.1)).filter fun e => e.2 != 0#8) i = if n ≤ i then l[i - n]?.getD 0#8 else 0#8 := by
  induction l generalizing n with
  | nil => simp [tget]
  | cons b r ih =>
    have rest := ih (n + 1)
    rw [List.zipIdx_cons, List.map_cons, List.filter_cons]
    have listed : tget 0#8 (if (b != 0#8) = true then (n, b) :: ((r.zipIdx (n + 1)).map fun e => (e.2, e.1)).filter fun e => e.2 != 0#8
        else ((r.zipIdx (n + 1)).map fun e => (e.2, e.1)).filter fun e => e.2 != 0#8) i =
        if n = i then b else if n + 1 ≤ i then r[i - (n + 1)]?.getD 0#8 else 0#8 := by
      by_cases zero : b = 0#8
      · subst b
        rw [if_neg (by decide), rest]
        by_cases here : n = i
        · rw [if_pos here, if_neg (by omega)]
        · rw [if_neg here]
      · rw [if_pos (bne_iff_ne.2 zero), tget, rest]
    refine listed.trans ?_
    by_cases here : n = i
    · subst i
      rw [if_pos rfl, if_pos (Nat.le_refl n), Nat.sub_self, List.getElem?_cons_zero, Option.getD_some]
    · rw [if_neg here]
      by_cases after : n + 1 ≤ i
      · have next : i - n = i - (n + 1) + 1 := by omega
        rw [if_pos after, if_pos (by omega), next, List.getElem?_cons_succ]
      · rw [if_neg after, if_neg (by omega)]

theorem tget_runtimeMemory (code : List Byte) (i : Nat) :
    tget 0#8 (runtimeMemory code) i = if i < 2 ^ 25 then code[i]?.getD 0#8 else 0#8 := by
  refine (tget_zipIdx (code.take rtBytes) 0 i).trans ?_
  rw [if_pos (Nat.zero_le i), Nat.sub_zero, List.getElem?_take, rtBytes]
  split <;> rfl

/-- The state once order 4 has taken image x (R410). -/
def bootedWith (s : State) (x : FwImage) : State :=
  let s1 := s.wr oSecRevocation (BitVec.ofNat 32 s.flash.revocation.version)
  (({ s1 with sec := { s1.sec with fw := some x }, rtMem := runtimeMemory x.code } : State).wr oSecFw (BitVec.ofNat 32 x.version)).putHash
    oSecFwHash x.hash

theorem bootImage_of_missing {s : State} {flashOk : Bool} (missing : flashOk = false ∨ s.flash.images = []) :
    s.bootImage flashOk = s.enterBeacon 2 0 .ok := by
  unfold State.bootImage
  extract_lets f s1
  rw [if_pos (by simpa using missing)]

theorem bootImage_of_refused {s : State} (someImage : s.flash.images ≠ [])
    (refused : s.flash.images.find? s.flash.revocation.passes = none) : s.bootImage true = s.enterBeacon 3 0 .signatureInvalid := by
  unfold State.bootImage
  extract_lets f s1
  rw [if_neg (by simpa using someImage), refused]

/-- The first image, in the order of R410, that passes its checks is taken. -/
theorem bootImage_of_accepted {s : State} {x : FwImage} (accepted : s.flash.images.find? s.flash.revocation.passes = some x) :
    s.bootImage true = (bootedWith s x).nextOrder := by
  have someImage : s.flash.images ≠ [] := List.ne_nil_of_mem (List.mem_of_find?_eq_some accepted)
  unfold State.bootImage bootedWith
  extract_lets f s1
  rw [if_neg (by simpa using someImage), accepted]

theorem bootedWith_order (s : State) (x : FwImage) : (bootedWith s x).rdF oSuStatus 0 4 = s.rdF oSuStatus 0 4 := by
  have ne (n : Nat) : oSuStatus ≠ oSecFwHash n := by
    unfold oSuStatus oSecFwHash
    omega
  unfold bootedWith
  extract_lets s1
  refine rdF_of_rd ?_ 0 4
  rw [putHash_rd ne, rd_wr_of_ne (by decide)]
  exact rd_wr_of_ne (by decide) s _

theorem bootedWith_fw (s : State) (x : FwImage) : (bootedWith s x).sec.fw = some x := by
  unfold bootedWith
  rw [putHash_sec, State.wr_sec]

theorem bootedWith_secFw (s : State) (x : FwImage) : (bootedWith s x).rd oSecFw = BitVec.ofNat 32 x.version := by
  have ne (n : Nat) : oSecFw ≠ oSecFwHash n := by
    unfold oSecFw oSecFwHash
    omega
  unfold bootedWith
  rw [putHash_rd ne, State.rd_wr, if_pos rfl]

theorem bootedWith_rtMem (s : State) (x : FwImage) : (bootedWith s x).rtMem = runtimeMemory x.code := by
  unfold bootedWith
  rw [putHash_rtMem, State.wr_rtMem]

/-! ### Order 6: the coolant and BIST -/

theorem showTemps_rd {q : Nat} (h : q ≠ oPwrTemp) (s : State) (inlet outlet : Nat) : (s.showTemps inlet outlet).rd q = s.rd q := by
  rw [State.showTemps, rd_wrF_of_ne h, rd_wrF_of_ne h]

theorem mem_of_mem_insertBy {α : Type} {f : α → Nat} {x y : α} {l : List α} (h : y ∈ insertBy f x l) : y = x ∨ y ∈ l := by
  induction l with
  | nil => exact .inl (List.mem_singleton.1 h)
  | cons z r ih =>
    unfold insertBy at h
    split at h
    · exact List.mem_cons.1 h
    · rcases List.mem_cons.1 h with rfl | later
      · exact .inr List.mem_cons_self
      · exact (ih later).imp_right (List.mem_cons_of_mem z)

theorem mem_of_mem_sortBy {α : Type} {f : α → Nat} {y : α} {l : List α} (h : y ∈ sortBy f l) : y ∈ l := by
  induction l with
  | nil => exact h
  | cons x r ih =>
    rcases mem_of_mem_insertBy h with rfl | later
    · exact List.mem_cons_self
    · exact List.mem_cons_of_mem x (ih later)

/-- Order 6 ends where BIST finds no field's own unit faulty (R412, R413). -/
theorem bist_order {s : State} {fails : List (Nat × Nat × Nat)} (h : s.rdF oSuStatus 0 4 = 6) (sound : ∀ e ∈ fails, e.2.2 ≠ 4) :
    (s.bist fails).rdF oSuStatus 0 4 = 7 := by
  unfold State.bist
  extract_lets fs startup s1 bad
  have noField : bad = [] := by
    refine List.filter_eq_nil_iff.2 fun f _ found => ?_
    obtain ⟨e, listed, own⟩ := List.any_eq_true.1 found
    simp only [Bool.and_eq_true, beq_iff_eq] at own
    exact sound e (List.mem_filter.1 (mem_of_mem_sortBy listed)).1 own.2
  rw [noField, List.isEmpty_nil, if_pos rfl]
  exact nextOrder_order (s := s1) h (by decide)

/-! ### Order 7: the repair map -/

theorem mem_fillCorners {x : Nat} {l : List Nat} (h : x ∈ l) (corners : List Nat) : x ∈ fillCorners corners l := by
  induction corners generalizing l with
  | nil => exact h
  | cons c r ih =>
    unfold fillCorners
    split
    · exact h
    · exact ih ((mem_sadd l c x).2 (.inr h))

theorem tget_foldl_tset {α : Type} [DecidableEq α] (d : α) (v : Nat → α) (m : Tab α) (n k : Nat) :
    tget d ((List.range n).foldl (fun t i => tset d t i (v i)) m) k = if k < n then v k else tget d m k := by
  induction n with
  | zero => rfl
  | succ n ih =>
    rw [List.range_succ, List.foldl_append, List.foldl_cons, List.foldl_nil, tget_tset, ih]
    by_cases last : k = n
    · subst k
      rw [if_pos rfl, if_pos (by omega)]
    · rw [if_neg last]
      have sameRange : k < n + 1 ↔ k < n := by omega
      simp only [sameRange]

theorem nth_zero_filter_range {p : Nat → Bool} {n f : Nat} (hf : f < n) (here : p f = true) (before : ∀ g, g < f → p g = false) (d : Nat) :
    nth d ((List.range n).filter p) 0 = f := by
  have first : (List.range n).find? p = some f := by
    rw [List.find?_range_eq_some]
    exact ⟨here, List.mem_range.2 hf, fun g hg => by rw [before g hg]; rfl⟩
  rw [nth, List.getD_eq_getElem?_getD, ← List.head?_eq_getElem?, List.head?_filter, first]
  rfl

/-- A failure of fields leads to BEACON with the quad of the lowest (R413, R418). -/
theorem failFields_shows {fs : List Nat} {f : Nat} (hf : f < 64) (lowest : nth 0 fs 0 = f) (s : State) :
    InBeacon (s.failFields fs) 4 (quadOf f) := by
  have quad : quadOf f < 256 := by
    unfold quadOf
    omega
  unfold State.failFields
  rw [lowest]
  exact enterBeacon_shows (by decide) quad _ _

theorem repairMap_fails {s : State} {f : Nat} (hf : f < 64) (many : 4 < (s.mustSkip f).length)
    (before : ∀ g, g < f → (s.mustSkip g).length ≤ 4) : InBeacon s.repairMap 4 (quadOf f) := by
  have lowest : nth 0 ((List.range 64).filter fun g => decide (4 < (s.mustSkip g).length)) 0 = f :=
    nth_zero_filter_range hf (decide_eq_true many) (fun g hg => decide_eq_false (Nat.not_lt.2 (before g hg))) 0
  unfold State.repairMap
  extract_lets bad diff startup s1 s2
  have someField : bad.isEmpty = false := by
    rw [List.isEmpty_eq_false_iff]
    exact List.ne_nil_of_mem (List.mem_filter.2 ⟨List.mem_range.2 hf, decide_eq_true many⟩)
  rw [someField, if_neg (by decide)]
  exact failFields_shows hf lowest s2

/-- With at most four faulty sites in every field, order 7 gives each field its unused sites; what it does besides keeps the order and memory. -/
theorem repairMap_eq {s : State} (few : ∀ f, f < 64 → (s.mustSkip f).length ≤ 4) : ∃ u : State,
    u.rdF oSuStatus 0 4 = s.rdF oSuStatus 0 4 ∧ u.mem = s.mem ∧
    s.repairMap = ({ u with unused := (List.range 64).foldl (fun m f =>
      tset [0, 13, 182, 195] m f (fillCorners [0, 13, 182, 195] (s.mustSkip f))) u.unused } : State).nextOrder := by
  unfold State.repairMap
  extract_lets bad diff startup s1 s2
  have noField : bad = [] :=
    List.filter_eq_nil_iff.2 fun f inRange => by simpa using few f (List.mem_range.1 inRange)
  have order : s2.rdF oSuStatus 0 4 = s.rdF oSuStatus 0 4 := by
    unfold s2
    split
    · rw [rdF_of_rd (raiseOwner_rd ..), rdF_wrF_of_disjoint (by decide)]
      rfl
    · rfl
  have mem : s2.mem = s.mem := by
    unfold s2
    split
    · rw [raiseOwner_field State.mem fun _ _ => rfl]
      rfl
    · rfl
  refine ⟨s2, order, mem, ?_⟩
  rw [noField, List.isEmpty_nil, if_pos rfl]

theorem repairMap_shows {s : State} (h : s.rdF oSuStatus 0 4 = 7) (few : ∀ f, f < 64 → (s.mustSkip f).length ≤ 4) :
    s.repairMap.rdF oSuStatus 0 4 = 8 ∧ s.repairMap.mem = s.mem ∧ ∀ f, f < 64 → ∀ x ∈ s.mustSkip f, x ∈ s.repairMap.unusedOf f := by
  obtain ⟨u, order, mem, mapped⟩ := repairMap_eq few
  rw [mapped]
  refine ⟨nextOrder_order (order.trans h) (by decide), mem, fun f hf x hx => ?_⟩
  rw [State.unusedOf, nextOrder_unused, tget_foldl_tset, if_pos hf]
  exact mem_fillCorners hx _

/-! ### Order 8: lost channels and the hint record -/

/-- With no channel out of use there is none to move. -/
theorem moveChannels_nil {s : State} (sound : ∀ f site, (s.vault f site).badCh = []) : s.moveChannels [] = s := by
  have noneLost (f : Nat) : s.lostChannels f = [] := by
    simp [State.lostChannels, sound]
  unfold State.moveChannels
  extract_lets ok s1 fs
  have stillNone (f : Nat) : s1.lostChannels f = [] := noneLost f
  have noField : fs = [] := by
    refine List.filter_eq_nil_iff.2 fun f _ => ?_
    rw [stillNone, List.length_nil, decide_eq_true_iff]
    exact Nat.not_lt_zero _
  rw [noField, List.isEmpty_nil, if_pos rfl]
  exact foldl_field (fun v => v) _ (List.range 64) s fun v f => by rw [stillNone, List.zip_nil_left, List.foldl_nil]

/-- What a signature changes: the signing state, flash and `SEC_STATUS` (R452, R453). -/
theorem sign_field {γ : Type} {g : State → γ} (blind : ∀ (u : State) f x, g { u with flash := f, sec := x } = g u)
    (status : ∀ (u : State) v, g (u.wr oSecStatus v) = g u) {s t : State} {msg : Nat → Nat} {n sig : Nat}
    (signed : s.sign msg = some (t, n, sig)) : g t = g s := by
  have shown (u : State) : g u.showNodes = g u := status u _
  unfold State.sign at signed
  extract_lets leaf sec s1 s2 sec2 at signed
  have reserved : g s1 = g s := by
    unfold s1
    split
    · exact blind s _ _
    · rfl
  have built : g s2 = g s1 := (shown _).trans (blind s1 _ _)
  split at signed
  · cases signed
  · obtain rfl : _ = t := congrArg (·.1) (Option.some.inj signed)
    exact (shown _).trans ((blind s2 _ _).trans (built.trans reserved))

/-- What a new hint record changes: besides what its signature does, flash, `SU_STATUS.HINT_WRITTEN` and the recorder (R415). -/
theorem hintUpdate_field {γ : Type} {g : State → γ} (blind : ∀ (u : State) f x r, g { u with flash := f, sec := x, recorder := r } = g u)
    (status : ∀ (u : State) v, g (u.wr oSecStatus v) = g u) (written : ∀ u : State, g (u.wrF oSuStatus 6 1 1) = g u) (s : State) :
    g s.hintUpdate = g s := by
  unfold State.hintUpdate
  extract_lets f found moved due
  split
  · rfl
  · split
    · rfl
    · rename_i signed
      extract_lets
      rw [raiseOwner_field g fun u r => blind u u.flash u.sec r, written]
      exact (blind _ _ _ _).trans (sign_field (fun u f x => blind u f x u.recorder) status signed)

theorem hintUpdate_order (s : State) : s.hintUpdate.rdF oSuStatus 0 4 = s.rdF oSuStatus 0 4 :=
  hintUpdate_field (g := fun u => u.rdF oSuStatus 0 4) (fun _ _ _ _ => rfl) (fun u v => rdF_of_rd (rd_wr_of_ne (by decide) u v) 0 4)
    (fun u => rdF_wrF_of_disjoint (by decide) u _ _) s

theorem hintUpdate_mem (s : State) : s.hintUpdate.mem = s.mem :=
  hintUpdate_field (g := State.mem) (fun _ _ _ _ => rfl) (fun _ _ => rfl) (fun _ => rfl) s

/-! ### Orders 9 to 11: memories and registers, links, service -/

/-- Order 9 before the links' peers are declared: every memory zero, and the registers and the keeper's region entry loaded. -/
def loadedButPeers (s : State) : State :=
  (((({ s with mem := [], poison := [], imem := [], imemPoison := [], acc := [], lines := [], cells := [],
               recorder := { s.recorder with snaps := snapsDefault } } : State).wrF oFabStatus 0 10 s.flash.moduleId).wrF
    oSuStatus 24 1 (b2n s.flash.toDormant)).wrF oMcId 16 8 s.flash.stepping).putRegion 4095 keeperRegion

/-- Declaring the peers writes `LINK_EXPECT` registers alone. -/
theorem loadRegisters_field {γ : Type} {g : State → γ} (declared : ∀ (u : State) k v, g (u.wr (oLinkExpect k) v) = g u) (s : State) :
    g s.loadRegisters = g (loadedButPeers s) := by
  refine foldl_field g _ s.flash.peers (loadedButPeers s) fun u e => ?_
  split
  · exact declared u _ _
  · rfl

/-- Declaring a peer changes no register below the links' blocks (R392). -/
theorem rdF_wr_linkExpect {q : Nat} (below : q < 0x80000) (lo w : Nat) (u : State) (k : Nat) (v : Word) :
    (u.wr (oLinkExpect k) v).rdF q lo w = u.rdF q lo w := by
  have ne : q ≠ oLinkExpect k := by
    unfold oLinkExpect
    omega
  exact rdF_of_rd (rd_wr_of_ne ne u v) lo w

theorem loadRegisters_order (s : State) : s.loadRegisters.rdF oSuStatus 0 4 = s.rdF oSuStatus 0 4 := by
  rw [loadRegisters_field (g := fun u => u.rdF oSuStatus 0 4) (rdF_wr_linkExpect (by decide) 0 4), loadedButPeers]
  show State.rdF (State.wrF _ oMcId 16 8 _) oSuStatus 0 4 = _
  rw [rdF_of_rd (rd_wrF_of_ne (by decide) ..), rdF_wrF_of_disjoint (by decide), rdF_of_rd (rd_wrF_of_ne (by decide) ..)]
  rfl

theorem loadRegisters_zeroes (s : State) :
    s.loadRegisters.mem = [] ∧ s.loadRegisters.poison = [] ∧ s.loadRegisters.acc = [] ∧ s.loadRegisters.imem = [] :=
  ⟨loadRegisters_field (g := State.mem) (fun _ _ _ => rfl) s, loadRegisters_field (g := State.poison) (fun _ _ _ => rfl) s,
    loadRegisters_field (g := State.acc) (fun _ _ _ => rfl) s, loadRegisters_field (g := State.imem) (fun _ _ _ => rfl) s⟩

theorem loadRegisters_moduleId (s : State) : s.loadRegisters.rdF oFabStatus 0 10 = s.flash.moduleId % 1024 := by
  rw [loadRegisters_field (g := fun u => u.rdF oFabStatus 0 10) (rdF_wr_linkExpect (by decide) 0 10), loadedButPeers]
  show State.rdF (State.wrF _ oMcId 16 8 _) oFabStatus 0 10 = _
  rw [rdF_of_rd (rd_wrF_of_ne (by decide) ..), rdF_of_rd (rd_wrF_of_ne (by decide) ..), State.rdF, State.rd_wrF, if_pos rfl]
  exact fld_setFld (by decide) _ _

theorem loadRegisters_keeperRegion (s : State) : s.loadRegisters.region 4095 = keeperRegion := by
  rw [loadRegisters_field (g := fun u => u.region 4095) (fun _ _ _ => rfl), loadedButPeers, State.region_putRegion, if_pos rfl]

theorem trainLinks_order (s : State) : s.trainLinks.rdF oSuStatus 0 4 = s.rdF oSuStatus 0 4 :=
  rdF_of_rd (trainLinks_rd (ne_oLinkStatus (by decide)) s) 0 4

theorem Trains.linkState_trainLinks {s : State} {k : Nat} (h : Trains s k) (hk : k < 64) : s.trainLinks.linkState k = lkTraining := by
  rw [trainLinks_eq]
  exact h.linkState_foldl _ (.inl (List.mem_range.2 hk))

theorem nextOrder_linkState (s : State) (k : Nat) : s.nextOrder.linkState k = s.linkState k :=
  rdF_of_rd (nextOrder_rd (ne_oLinkStatus (by decide) k).symm s) 0 3

theorem zeroSram_rd (s : State) (q : Nat) : s.zeroSram.rd q = s.rd q := rd_of_regs rfl q

theorem finishStartup_done (s : State) : s.finishStartup.rdF oSuStatus 4 1 = 1 := by
  unfold State.finishStartup
  extract_lets s1 host s2 s3
  have recorded : s1.rdF oSuStatus 4 1 = 1 :=
    (rdF_of_rd (showRecord_rd suStatus_ne_suRecord _ _) 4 1).trans (rdF_wrF (by decide) (by decide) s _)
  clear_value s1
  have sameRegs : s3.regs = s1.regs := by
    unfold s3
    split
    · rw [State.emit_regs]
    · rfl
  have done : s3.rdF oSuStatus 4 1 = 1 := (rdF_of_rd (rd_of_regs sameRegs _) 4 1).trans recorded
  clear_value s3
  split
  · rw [State.setModState, rdF_of_rd (rd_wrF_of_ne (by decide) ..), rdF_of_rd (zeroSram_rd ..), rdF_of_rd (linksOff_rd (by decide) s3)]
    exact done
  · rw [State.setModState, rdF_of_rd (rd_wrF_of_ne (by decide) ..)]
    exact done

theorem finishStartup_stCode (s : State) : s.finishStartup.stCode = if s.flash.toDormant then stDormant else stReady := by
  unfold State.finishStartup
  split
  · exact rdF_wrF (by decide) (by decide) ..
  · exact rdF_wrF (by decide) (by decide) ..

/-! ### What each order does as it ends -/

section Orders

variable {s : State} (d : OrderData)

theorem orderDone_one (h : s.rdF oSuStatus 0 4 = 1) : s.orderDone d = s.nextOrder := by
  simp only [State.orderDone, State.order, h]

theorem orderDone_two (h : s.rdF oSuStatus 0 4 = 2) :
    s.orderDone d = s.railCheck d ((({ s with power := { s.power with target := chargeTarget d.inputMv d.bulkUf } } : State).wrF
      oPwrPower 16 16 (Nat.min 65535 d.bulkUf)).nextOrder) := by
  simp only [State.orderDone, State.order, h]

theorem orderDone_three (h : s.rdF oSuStatus 0 4 = 3) :
    s.orderDone d = s.railCheck d (if d.pufOk then s.identity else s.enterBeacon 9 0 .ok) := by
  simp only [State.orderDone, State.order, h]

theorem orderDone_four (h : s.rdF oSuStatus 0 4 = 4) : s.orderDone d = s.railCheck d (s.bootImage d.flashOk) := by
  simp only [State.orderDone, State.order, h]

theorem orderDone_five_of_passed (h : s.rdF oSuStatus 0 4 = 5) (passed : d.selfFail = none) : s.orderDone d = s.nextOrder := by
  simp only [State.orderDone, State.order, h, passed]

theorem orderDone_five_of_failed (h : s.rdF oSuStatus 0 4 = 5) {n : Nat} (failed : d.selfFail = some n) :
    s.orderDone d = s.enterBeacon 5 n .ok := by
  simp only [State.orderDone, State.order, h, failed]

/-- The readings that order 6 takes (R409, R444). -/
def withReadings (s : State) (d : OrderData) : State := (s.showTemps d.inlet d.outlet).wrF oPwrTemp 0 8 (Nat.min 255 d.junction)

theorem withReadings_rd {q : Nat} (h : q ≠ oPwrTemp) : (withReadings s d).rd q = s.rd q := by
  rw [withReadings, rd_wrF_of_ne h, showTemps_rd h]

theorem orderDone_six (h : s.rdF oSuStatus 0 4 = 6) :
    s.orderDone d = if coolantOk d then (withReadings s d).bist d.fails else withReadings s d := by
  simp only [State.orderDone, State.order, h, withReadings]

theorem orderDone_seven (h : s.rdF oSuStatus 0 4 = 7) : s.orderDone d = s.repairMap := by
  simp only [State.orderDone, State.order, h]

theorem orderDone_eight (h : s.rdF oSuStatus 0 4 = 8) :
    s.orderDone d = if (s.moveChannels d.badCh).startup.beacon.isSome then s.moveChannels d.badCh
      else (s.moveChannels d.badCh).hintUpdate.nextOrder := by
  simp only [State.orderDone, State.order, h]

theorem orderDone_nine (h : s.rdF oSuStatus 0 4 = 9) : s.orderDone d = s.loadRegisters.nextOrder := by
  simp only [State.orderDone, State.order, h]

theorem orderDone_ten (h : s.rdF oSuStatus 0 4 = 10) : s.orderDone d = s.trainLinks.nextOrder := by
  simp only [State.orderDone, State.order, h]

theorem orderDone_eleven (h : s.rdF oSuStatus 0 4 = 11) : s.orderDone d = s.finishStartup := by
  simp only [State.orderDone, State.order, h]

variable {d}

/-- A rail out of tolerance ends start-up at orders 2, 3 and 4 (R418). -/
theorem orderDone_of_rail (h : s.rdF oSuStatus 0 4 = 2 ∨ s.rdF oSuStatus 0 4 = 3 ∨ s.rdF oSuStatus 0 4 = 4) {r : Nat}
    (rail : d.rail = some r) : s.orderDone d = s.enterBeacon 1 r .ok := by
  rcases h with h | h | h
  · rw [orderDone_two d h, railCheck_some rail]
  · rw [orderDone_three d h, railCheck_some rail]
  · rw [orderDone_four d h, railCheck_some rail]

theorem orderDone_two_shows (h : s.rdF oSuStatus 0 4 = 2) (rail : d.rail = none) :
    (s.orderDone d).rdF oSuStatus 0 4 = 3 ∧ (s.orderDone d).power.target ≤ 54000 ∧ (s.orderDone d).power.target ≤ d.inputMv := by
  rw [orderDone_two d h, railCheck_none rail]
  refine ⟨nextOrder_order ?_ (by decide), chargeTarget_le d.inputMv d.bulkUf⟩
  exact (rdF_of_rd (rd_wrF_of_ne (by decide) ..) 0 4).trans h

theorem orderDone_eight_sound (h : s.rdF oSuStatus 0 4 = 8) (found : d.badCh = []) (sound : ∀ f site, (s.vault f site).badCh = [])
    (lit : s.startup.beacon = none) : s.orderDone d = s.hintUpdate.nextOrder := by
  rw [orderDone_eight d h, found, moveChannels_nil sound, lit, if_neg (by decide)]

end Orders

/-! ### The obligation -/

/-- Settles O53: each order does as it ends what `orderDone` says of it, and every failure is a call of `enterBeacon`. -/
theorem startupFollowsItsOrders : Obligations.StartupFollowsItsOrders := by
  intro d s starting at' beacon goes
  have ends {P : State → Prop} (h : P (s.orderDone d)) : goes P := startupOrderComplete_goes starting h
  have fails {c k : Nat} {st : Status} (hc : c < 256) (hk : k < 256) (h : s.orderDone d = s.enterBeacon c k st) :
      goes fun t => beacon t c k := ends (by rw [h]; exact enterBeacon_shows hc hk s st)
  refine ⟨fun h => ends ?_, fun h rail => ends (orderDone_two_shows h rail),
    fun h r rail small => fails (by decide) small (orderDone_of_rail h rail), fun h rail puf => ends ?_, fun h rail puf => ?_,
    fun h rail answered x accepted => ends ?_, fun h rail missing => ?_, fun h rail answered someImage refused => ?_,
    fun h => ⟨fun passed => ends ?_, fun n failed small => ?_⟩, fun h cold => ends ?_, fun h warm sound => ends ?_, fun h => ?_,
    fun h few => ends ?_, fun h f hf many before => ends ?_, fun h found sound lit => ends ?_, fun h => ends ?_, fun h => ends ?_,
    fun h => ends ?_, fun n h low high => ?_⟩
  · rw [orderDone_one d h]
    exact ⟨nextOrder_order h (by decide), rfl⟩
  · rw [orderDone_three d h, railCheck_none rail, puf, if_pos rfl, identity_sec]
    exact ⟨identity_order h, rfl, rfl, rfl, identity_flash s, identity_evrNext s⟩
  · exact fails (by decide) (by decide) (by rw [orderDone_three d h, railCheck_none rail, puf, if_neg (by decide)])
  · rw [orderDone_four d h, railCheck_none rail, answered, bootImage_of_accepted accepted]
    refine ⟨nextOrder_order ((bootedWith_order s x).trans h) (by decide), ?_, ?_, fun i => ?_⟩
    · rw [nextOrder_sec, bootedWith_fw]
    · rw [nextOrder_rd (by decide), bootedWith_secFw]
    · rw [nextOrder_rtMem, bootedWith_rtMem, tget_runtimeMemory]
  · exact fails (by decide) (by decide) (by rw [orderDone_four d h, railCheck_none rail, bootImage_of_missing missing])
  · have nonePasses : s.flash.images.find? s.flash.revocation.passes = none := by simpa using refused
    exact fails (by decide) (by decide)
      (by rw [orderDone_four d h, railCheck_none rail, answered, bootImage_of_refused someImage nonePasses])
  · rw [orderDone_five_of_passed d h passed]
    exact nextOrder_order h (by decide)
  · exact fails (by decide) small (orderDone_five_of_failed d h failed)
  · rw [orderDone_six d h, cold, if_neg (by decide)]
    refine ⟨(rdF_of_rd (withReadings_rd d (by decide)) 0 4).trans h, modState_of_stored ?_ (by decide)⟩
    exact (rdF_of_rd (withReadings_rd d (by decide)) 0 4).trans (rdF_mcState_of_starting starting)
  · rw [orderDone_six d h, warm, if_pos rfl]
    exact bist_order ((rdF_of_rd (withReadings_rd d (by decide)) 0 4).trans h) sound
  · exact coolantWaitTimeout_goes starting h (enterBeacon_shows (by decide) (by decide) s .ok)
  · rw [orderDone_seven d h]
    exact repairMap_shows h few
  · rw [orderDone_seven d h]
    exact repairMap_fails hf many before
  · rw [orderDone_eight_sound h found sound lit]
    exact ⟨nextOrder_order ((hintUpdate_order s).trans h) (by decide), (nextOrder_mem _).trans (hintUpdate_mem s)⟩
  · obtain ⟨mem, poison, acc, imem⟩ := loadRegisters_zeroes s
    rw [orderDone_nine d h, nextOrder_mem, nextOrder_poison, nextOrder_acc, nextOrder_imem, State.region, nextOrder_regions]
    refine ⟨nextOrder_order ((loadRegisters_order s).trans h) (by decide), mem, poison, acc, imem, ?_, loadRegisters_keeperRegion s⟩
    exact (rdF_of_rd (nextOrder_rd (by decide) _) 0 10).trans (loadRegisters_moduleId s)
  · rw [orderDone_ten d h]
    refine ⟨nextOrder_order ((trainLinks_order s).trans h) (by decide), fun k hk expected enabled => ?_⟩
    rw [nextOrder_linkState]
    exact Trains.linkState_trainLinks ⟨expected, enabled⟩ hk
  · rw [orderDone_eleven d h]
    exact ⟨finishStartup_done s, finishStartup_stCode s⟩
  · have order : s.order = n := h
    refine startupOrderTimeout_goes starting (by omega) ?_
    rw [order]
    exact enterBeacon_shows (by decide) (by omega) s .ok

end Sys2Proof.Proofs
end
